-- ==== Sys2Proof/Word.lean ====
section
/-! DEFINITION. The word types of the part and the four-fold record that holds one item per link, feed,
lane or output (spec/00_scope.md: "Instances are numbered from 0"). -/

namespace Sys2Proof

/-- One word of a packet's user data (Table 6: 8 bits each). -/
abbrev Byte := BitVec 8

/-- One 10-bit sample code, 0..1023 (00_scope, Samples). -/
abbrev Sample := BitVec 10

/-- An instance number 0..3: input link INn, feed Fn, lane Ln and output OUTn. -/
abbrev Ix := Fin 4

/-- A slot number 0..63 of the picture store (chapter 3). -/
abbrev SlotIx := Fin 64

/-- Four items of one kind, one per instance number. -/
structure Four (α : Type) where
  q0 : α
  q1 : α
  q2 : α
  q3 : α
deriving DecidableEq, Repr

/-- The item of instance `n`. -/
def Four.get {α : Type} (v : Four α) (n : Ix) : α :=
  match n.val with
  | 0 => v.q0
  | 1 => v.q1
  | 2 => v.q2
  | _ => v.q3

/-- The same four items with that of instance `n` replaced. -/
def Four.set {α : Type} (v : Four α) (n : Ix) (a : α) : Four α :=
  match n.val with
  | 0 => { v with q0 := a }
  | 1 => { v with q1 := a }
  | 2 => { v with q2 := a }
  | _ => { v with q3 := a }

/-- The four items with that of instance `n` changed by `f`. -/
def Four.modify {α : Type} (v : Four α) (n : Ix) (f : α → α) : Four α :=
  v.set n (f (v.get n))

/-- Four equal items. -/
def Four.all {α : Type} (a : α) : Four α := ⟨a, a, a, a⟩

/-- Four items made from their instance numbers. -/
def Four.make {α : Type} (f : Ix → α) : Four α := ⟨f 0, f 1, f 2, f 3⟩

/-- The four items in ascending instance number. -/
def Four.toList {α : Type} (v : Four α) : List α := [v.q0, v.q1, v.q2, v.q3]

/-- The instance numbers in ascending order. -/
def allIx : List Ix := [0, 1, 2, 3]

end Sys2Proof
end

