-- ==== Sys2Proof/Syntax.lean ====
section
/-! DEFINITION. The commands of the part: one constructor of `Instr` per row of spec/opcode_table.json, with
the row's operands. A row is one whole and indivisible step (spec/95_what_each_step_holds.md). -/

namespace Sys2Proof

/-- Parity of a field: TOP (0) or BOTTOM (1) (Table 4). -/
inductive Parity where
  | top
  | bottom
deriving DecidableEq, Repr

/-- The component of a 4:2:2 sample. -/
inductive Component where
  | y
  | cb
  | cr
deriving DecidableEq, Repr

/-- One active sample as it arrives on the link, with the component it belongs to. -/
structure LinkSample where
  comp : Component
  value : Sample
deriving DecidableEq, Repr

/-- What the memory's check bits tell of a stored sample that is in error (R54, R55). -/
inductive EccFault where
  | correctable
  | uncorrectable
deriving DecidableEq, Repr

/-- The three coefficient tables of a lane (R157). -/
inductive Table where
  | tt
  | hc
  | vc
deriving DecidableEq, Repr

/-- The two banks of a table (R158). -/
inductive Bank where
  | active
  | shadow
deriving DecidableEq, Repr

/-- The two reference inputs (R101). -/
inductive RefId where
  | a
  | b
deriving DecidableEq, Repr

/-- A physical failure that came about since the previous step: the stored check of the named item no
longer holds. The spec says what the part does when it meets one (R54, R55, R58, R146, R165, R166) and not
how it arises, so it is an input (log entry 5). -/
inductive Upset where
  /-- the integrity check of a slot record fails from now on (R58) -/
  | slotRecord (slot : SlotIx)
  /-- a stored sample of the attached memory is in error (R54, R55) -/
  | storedSample (slot : SlotIx) (comp : Component) (line col : Nat) (fault : EccFault)
  /-- a row of a coefficient table fails its parity (R165, R166) -/
  | tableRow (lane : Ix) (table : Table) (bank : Bank) (row : Nat)
  /-- an item of a carry queue fails its parity (R146) -/
  | carryItem (lane : Ix) (index : Nat)
deriving DecidableEq, Repr

/-- What the outside gives with an event: the timebase instant at which it is taken, and the physical
failures that came about since the previous step. -/
structure Env where
  time : Nat
  upsets : List Upset
deriving DecidableEq, Repr

/-- A command block as software sends it (Table 47): the input link it arrives on, and its words but for the
device address and the code. -/
structure Command where
  link : Ix
  tag : Byte
  target : Byte
  payload : List Byte
deriving DecidableEq, Repr

/-- The commands, one constructor per row of the opcode table, in the table's order. -/
inductive Instr where
  /-- PIN_RESET: the straps ADDR0–ADDR3 and STD_SEL (true: high, S04) as sampled. -/
  | pinReset (address : Fin 16) (stdSel : Bool)
  /-- ACTIVITY_GAINED on input link `n`. -/
  | activityGained (env : Env) (n : Ix)
  /-- ACTIVITY_LOST on input link `n`; `cut`: a packet's words were in progress. -/
  | activityLost (env : Env) (n : Ix) (cut : Bool)
  /-- PICTURE_MARKER: a line start with the marker flag set, with its other three fields (R1). -/
  | pictureMarker (env : Env) (n : Ix) (number : Nat) (parity : Parity) (blank cut : Bool)
  /-- LINE_START: a line start with the marker flag clear, with its other three fields (R1). -/
  | lineStart (env : Env) (n : Ix) (number : Nat) (parity : Parity) (blank cut : Bool)
  /-- LINE_END: the active samples of the line in order of arrival, and its check word (R2). -/
  | lineEnd (env : Env) (n : Ix) (samples : List LinkSample) (check : BitVec 16)
  /-- ANCILLARY_PACKET: the link words that arrived before the line's blanking ended (Table 6). -/
  | ancillaryPacket (env : Env) (n : Ix) (words : List (BitVec 10))
  /-- REF_MARKER on a reference input. -/
  | refMarker (env : Env) (ref : RefId)
  /-- REF_EXPIRY of a reference input. -/
  | refExpiry (upsets : List Upset) (ref : RefId)
  /-- OUTPUT_BOUNDARY of output `n`. -/
  | outputBoundary (upsets : List Upset) (n : Ix)
  /-- OUTPUT_LINE: the next active line of the picture of output `n`. -/
  | outputLine (env : Env) (n : Ix)
  /-- JOB_END: the end of the last active line of the picture of output `n`. -/
  | jobEnd (env : Env) (n : Ix)
  /-- SLOT_INITIALISATION_END: the black write of the slot being initialised completes. -/
  | slotInitialisationEnd (upsets : List Upset)
  /-- ACQUIRE_TIMEOUT of lane `n`. -/
  | acquireTimeout (upsets : List Upset) (n : Ix)
  | identify (env : Env) (cmd : Command)
  | queryStatus (env : Env) (cmd : Command)
  | queryCounters (env : Env) (cmd : Command)
  | deviceReset (env : Env) (cmd : Command)
  | setFeed (env : Env) (cmd : Command)
  | feedReset (env : Env) (cmd : Command)
  | releaseQuarantine (env : Env) (cmd : Command)
  | setLane (env : Env) (cmd : Command)
  | start (env : Env) (cmd : Command)
  | stop (env : Env) (cmd : Command)
  | resume (env : Env) (cmd : Command)
  | mute (env : Env) (cmd : Command)
  | unmute (env : Env) (cmd : Command)
  | loadSegment (env : Env) (cmd : Command)
  | commit (env : Env) (cmd : Command)
  | setOutput (env : Env) (cmd : Command)
  | relock (env : Env) (cmd : Command)
  | setRoute (env : Env) (cmd : Command)
  | seedTimecode (env : Env) (cmd : Command)
  | halt (env : Env) (cmd : Command)
  | queryLog (env : Env) (cmd : Command)
  | clearLog (env : Env) (cmd : Command)
  | queryConditions (env : Env) (cmd : Command)
  | ackConditions (env : Env) (cmd : Command)
  | setAlarmMask (env : Env) (cmd : Command)
  /-- BAD_CODE: a command block whose code is not in the command table (Table 52). -/
  | badCode (env : Env) (cmd : Command) (code : Byte)
deriving DecidableEq, Repr

end Sys2Proof
end

