-- ==== Sys2Proof/Decode.lean ====
section
/-! DEFINITION. The words of commands. The table of operations and events gives none of its rows any bits: a row is a
step of the part (spec/95_what_each_step_holds.md), and a command block reaches the part as a packet, not as a word of
the table. So no word of the table spells a command (log entry 1). -/

namespace Sys2Proof

/-- The command that a word spells by the table's bits: none, since no row of the table gives bits. -/
def decodeTableWord (_nbits _w : Nat) : Option Instr := none

end Sys2Proof
end

