-- ==== Sys2Proof/Config.lean ====
section
/-! DEFINITION. What is fixed in the part: the sizes the spec gives its lists and regions. The spec leaves no
value of the part to an implementation that a command's effect would need, so this file holds no free value
(INVENTORY.md, "What the manual leaves open"). -/

namespace Sys2Proof.Config

/-- "at most 8 entries" (R29). -/
def historyMax : Nat := 8
/-- "0..64 items" (R143). -/
def carryMax : Nat := 64
/-- "0..8 command blocks" (R168). -/
def commandMax : Nat := 8
/-- "Blocks plus reserved places never exceed 16" (R117). -/
def replyMax : Nat := 16
/-- "is less than 11" (R48). -/
def ceiling : Nat := 11
/-- "fewer than 7 items have been taken" (R145). -/
def deliverMax : Nat := 7
/-- "Up to 2 reply blocks from the head" (R116). -/
def repliesPerPicture : Nat := 2
/-- "The write takes 16,875 TU" (R46). -/
def initWriteTime : Nat := 16875
/-- 27,000,000 TU per second; one tenth of a second (R126). -/
def tenthSecond : Nat := 2700000
/-- The largest value of a 32-bit counter. -/
def counterMax : Nat := 4294967295
/-- Luma samples of a slot's region: 1920 × 1080 (chapter 3). -/
def lumaPerSlot : Nat := 2073600
/-- Samples of a slot's region: "1920 × 1080 luma samples and as many chroma samples". -/
def samplesPerSlot : Nat := 4147200

end Sys2Proof.Config
end

