-- ==== Sys2Proof/Machine/Parts.lean ====
section
/-! DEFINITION. The records that make up the state of the part, block by block (Table 1), as plain data. Each
record cites the rule of spec/ that names its fields. -/

namespace Sys2Proof.Machine

/-- The fourteen standards of the catalogue (Table 2). -/
inductive Std where
  | s01 | s02 | s03 | s04 | s05 | s06 | s07 | s08 | s09 | s10 | s11 | s12 | s13 | s14
deriving DecidableEq, Repr

/-- A label: a timecode value (Table 4, R147). -/
structure Label where
  hours : Nat
  minutes : Nat
  seconds : Nat
  frames : Nat
  drop : Bool
  second : Bool
deriving DecidableEq, Repr

/-- An ancillary packet without its checksum (Table 6); its count is the length of `user`. -/
structure Packet where
  kind : Byte
  subkind : Byte
  user : List Byte
deriving DecidableEq, Repr

/-- A packet as sent on an output link: "with its checksum computed on sending" (R116). -/
structure SentPacket where
  packet : Packet
  checksum : BitVec 9
deriving DecidableEq, Repr

/-- The straps as sampled at the last pin reset (Table 5). -/
structure Straps where
  address : Fin 16
  stdSel : Bool
deriving DecidableEq, Repr

/-! ### Link receivers (chapter 1) -/

/-- The four link states (Table 7). -/
inductive LinkState where
  | dark
  | seeking
  | measuring
  | locked (code : Std)
deriving DecidableEq, Repr

/-- The four properties of a recorded picture (R1). -/
structure Measured where
  total : Nat
  active : Nat
  samples : Nat
  parity : Parity
deriving DecidableEq, Repr

/-- The picture whose lines are arriving (R1): what of its properties has been seen so far, and what the
receiver holds of it besides. -/
structure Current where
  /-- line starts from its first line on -/
  total : Nat
  /-- active lines among them -/
  active : Nat
  /-- luma samples of its active lines: absent before the first, 0 once two of them differ -/
  samples : Option Nat
  /-- parity carried at its marker; the expected parity where its marker was missed (R7) -/
  parity : Parity
  /-- the parity that was expected of its marker (R7) -/
  expected : Parity
  /-- its properties are checked at the marker that ends it: not so where its marker was missed (R7) -/
  checked : Bool
  /-- its marker was handed to feed capture as a picture start (R12) -/
  handed : Bool
deriving DecidableEq, Repr

/-- Scan pattern of the established structure (R6). -/
inductive Pattern where
  | alternating
  | allTop
deriving DecidableEq, Repr

/-- The established structure, "set on entry to MEASURING" (R6). -/
structure Established where
  active : Nat
  samples : Nat
  pattern : Pattern
  totalTop : Option Nat
  totalBottom : Option Nat
deriving DecidableEq, Repr

/-- The measurement window: the arrival stamp of its first marker and the periods counted (chapter 1). -/
structure Window where
  start : Nat
  count : Nat
deriving DecidableEq, Repr

/-- The feed policy (Table 9). -/
inductive Policy where
  | contain
  | pass
deriving DecidableEq, Repr

/-- The six feed settings (Table 9). -/
structure Settings where
  listen : Bool
  policy : Policy
  wDiv : Nat
  threshold : Nat
  tcKind : Byte
  tcSubkind : Byte
deriving DecidableEq, Repr

/-- The seven link counters (Table 11). -/
structure LinkCounters where
  lineErrors : Nat
  packetErrors : Nat
  missedMarkers : Nat
  unidentified : Nat
  identified : Nat
  lockLosses : Nat
  tcUnattached : Nat
deriving DecidableEq, Repr

/-- One link receiver INn (chapter 1, link states). -/
structure LinkRx where
  /-- the line interface's activity indication -/
  activity : Bool
  state : LinkState
  est : Option Established
  window : Option Window
  /-- the run of missed markers, 0..3 -/
  missedRun : Nat
  lastCode : Option Std
  /-- the line-error count of the current picture (R2) -/
  lineErrors : Nat
  /-- the candidate picture of the search (R6), or the current picture (R7) -/
  cur : Option Current
  /-- the picture recorded before the candidate (R6) -/
  recorded : Option Measured
  /-- the previous line number (R6, R7) -/
  lastNumber : Option Nat
  /-- the line begun and not yet ended: whether it is an active line (R1) -/
  line : Option Bool
  settings : Settings
  ctr : LinkCounters
deriving DecidableEq, Repr

/-! ### Feed capture (chapter 2) -/

/-- The reasons of a hole (Table 14). -/
inductive HoleReason where
  | noBuffer
  | missed
  | discarded
  | abandoned
deriving DecidableEq, Repr

/-- Kind of a history entry: a PICTURE has a slot and an arrival stamp, a HOLE a reason (Table 14). -/
inductive EntryKind where
  | picture (slot : SlotIx) (arrival : Int)
  | hole (reason : HoleReason)
deriving DecidableEq, Repr

/-- One history entry (R28, Table 14). -/
structure Entry where
  seq : Nat
  segment : Nat
  stamp : Int
  kind : EntryKind
  parity : Option Parity
  complete : Bool
  lineErrors : Nat
  label : Option Label
deriving DecidableEq, Repr

/-- The eight feed counters (Table 15). -/
structure FeedCounters where
  picturesStamped : Nat
  picturesCompleted : Nat
  holesMissed : Nat
  holesNoBuffer : Nat
  holesDiscarded : Nat
  holesAbandoned : Nat
  reanchors : Nat
  flushes : Nat
deriving DecidableEq, Repr

/-- Feed capture Fn: capture state, timeline, history and counters (chapter 2). -/
structure Feed where
  captureOn : Bool
  lastStamp : Option Int
  dPrev : Int
  segment : Nat
  nextSeq : Nat
  history : List Entry
  ctr : FeedCounters
deriving DecidableEq, Repr

/-! ### Picture store (chapter 3) -/

/-- The six slot states (Table 17). -/
inductive SlotState where
  | uninitialized
  | free
  | filling
  | history
  | retiring
  | quarantined
deriving DecidableEq, Repr

/-- One slot record: the five fields of Table 17 and whether its integrity check holds (R42). -/
structure SlotRec where
  state : SlotState
  owner : Option Ix
  pins : Nat
  poisoned : Bool
  corrected : Nat
  intact : Bool
deriving DecidableEq, Repr

/-- The seven store counters (Table 19). -/
structure StoreCounters where
  allocations : Nat
  refusedCeiling : Nat
  refusedEmpty : Nat
  correctedReads : Nat
  uncorrectableReads : Nat
  quarantineEntries : Nat
  quarantineReleases : Nat
deriving DecidableEq, Repr

/-- The picture store (chapter 3), with the contents of the attached memory and the errors standing in it.
`initDue` is the instant at which the black write in progress ends (R46). -/
structure Store where
  slots : Vector SlotRec 64
  freeList : List SlotIx
  quarantine : Nat
  initRunning : Bool
  initNext : Nat
  initDue : Nat
  mem : List (Nat × Sample)
  ecc : List (Nat × EccFault)
  ctr : StoreCounters
deriving DecidableEq, Repr

/-! ### Coefficient tables (chapter 9) -/

/-- One row: four 16-bit two's complement coefficients, and whether its parity holds (R157). -/
structure TRow where
  k0 : BitVec 16
  k1 : BitVec 16
  k2 : BitVec 16
  k3 : BitVec 16
  parityOk : Bool
deriving DecidableEq, Repr

/-- The two banks of one table and the CRC of its active contents (R158). -/
structure TableBanks where
  active : List TRow
  shadow : List TRow
  crc : BitVec 16
deriving DecidableEq, Repr

/-- The three tables of a lane (R157). -/
structure Tables where
  tt : TableBanks
  hc : TableBanks
  vc : TableBanks
deriving DecidableEq, Repr

/-- The commit record of a pending COMMIT: for each table its mask names, the CRC it carried (R158, R163). -/
structure CommitRec where
  tt : Option (BitVec 16)
  hc : Option (BitVec 16)
  vc : Option (BitVec 16)
deriving DecidableEq, Repr

/-! ### Conversion lanes (chapters 4, 7, 8) -/

/-- Timecode mode of a lane (Table 31). -/
inductive TcMode where
  | off
  | free
  | follow
deriving DecidableEq, Repr

/-- The lane profile (Table 31). -/
structure Profile where
  source : Ix
  input : Std
  output : Std
  latency : Nat
  theta1 : Nat
  theta2 : Nat
  theta3 : Nat
  holdLimit : Nat
  slateY : Nat
  slateCb : Nat
  slateCr : Nat
  acquireTimeout : Nat
  tcMode : TcMode
deriving DecidableEq, Repr

/-- The six lane states (Table 33). -/
inductive LaneState where
  | stopped
  | acquiring
  | converting
  | holding
  | slate
  | faulted
deriving DecidableEq, Repr

/-- Case of a job (Table 21). -/
inductive JobCase where
  | none
  | bracket
  | earlyClamp
  | lateClamp
  | frozen
  | slate
deriving DecidableEq, Repr

/-- State of a tap (Table 21). -/
inductive TapState where
  | absent
  | present
  | poisoned
deriving DecidableEq, Repr

/-- One tap of the job record: the entry of the snapshot it holds, its state, and for a POISONED tap the
output line from which it is treated as absent (Table 21). -/
structure Tap where
  entry : Option Entry
  state : TapState
  poisonedFrom : Option Nat
deriving DecidableEq, Repr

/-- The fallback picture (R73), and the line from which it is poisoned (R80). -/
structure Fallback where
  entry : Entry
  poisonedFrom : Option Nat
deriving DecidableEq, Repr

/-- The motion measure D of one block that has been measured (R75). -/
structure BlockMeasure where
  col : Nat
  row : Nat
  d : Nat
deriving DecidableEq, Repr

/-- The rows of the active banks of the three tables. -/
structure ActiveRows where
  tt : List TRow
  hc : List TRow
  vc : List TRow
deriving DecidableEq, Repr

/-- The job record (R62, Table 21). Beside the fields of the table it holds the slots whose pins were taken
(R71, R58), the blocks measured so far ("Its D then holds for the rest of the job", R75), and in `kept` the active
rows as they stood before a swap that was taken with the job in flight: the job "always finishes on the contents it
started with" (R163). -/
structure JobRec where
  inFlight : Bool
  kase : JobCase
  boundary : Option Int
  target : Option Int
  picStd : Option Std
  picParity : Option Parity
  phase : Option Nat
  tm1 : Tap
  t0 : Tap
  t1 : Tap
  t2 : Tap
  fallback : Option Fallback
  motionValid : Bool
  motionLostFrom : Option Nat
  pinned : List SlotIx
  blocks : List BlockMeasure
  kept : Option ActiveRows
deriving DecidableEq, Repr

/-- Routing action (R140). -/
inductive RouteAction where
  | carry
  | drop
deriving DecidableEq, Repr

/-- One routing entry; `subkind` absent is ANY (R140). -/
structure RouteEntry where
  kind : Byte
  subkind : Option Byte
  action : RouteAction
deriving DecidableEq, Repr

/-- A lane's routing table (R140). -/
structure RouteTable where
  default : RouteAction
  entries : List RouteEntry
deriving DecidableEq, Repr

/-- One item of a carry queue (R143); `parityOk`: the parity of the carry-queue RAM holds for it. -/
structure CarryItem where
  packet : Packet
  stamp : Int
  source : Option Nat
  parityOk : Bool
deriving DecidableEq, Repr

/-- The ten job counters (Table 24). -/
structure JobCounters where
  jobsStarted : Nat
  bracketJobs : Nat
  earlyClamps : Nat
  lateClamps : Nat
  frozenJobs : Nat
  slateJobs : Nat
  substitutedJobs : Nat
  fallbackJobs : Nat
  poisonedTaps : Nat
  jobsAbandoned : Nat
deriving DecidableEq, Repr

/-- The eight lane control counters (Table 35). -/
structure LaneCounters where
  startsAccepted : Nat
  acquisitions : Nat
  acquireTimeouts : Nat
  holdEntries : Nat
  heldJobs : Nat
  slateEntries : Nat
  stops : Nat
  faults : Nat
deriving DecidableEq, Repr

/-- The eight carriage and timecode counters (Table 40). -/
structure CarryCounters where
  packetsCarried : Nat
  routeDrops : Nat
  carryOverflows : Nat
  packetsDelivered : Nat
  itemsFlushed : Nat
  tcEmitted : Nat
  tcReseeds : Nat
  labelsInvalid : Nat
deriving DecidableEq, Repr

/-- One conversion lane Ln (R62, R119, R121, R151, R158, chapter 8). `jobNumber` is the number of its next
job (R61, R85). -/
structure Lane where
  profile : Profile
  state : LaneState
  usable : Bool
  holdCount : Nat
  acquireAt : Option Nat
  job : JobRec
  jobNumber : Nat
  tables : Tables
  commit : Option CommitRec
  route : RouteTable
  carry : List CarryItem
  tcCount : Nat
  fresh : Bool
  lastLabel : Option Label
  jobCtr : JobCounters
  laneCtr : LaneCounters
  carryCtr : CarryCounters
deriving DecidableEq, Repr

/-! ### Reference inputs and output timing units (chapter 6) -/

/-- One reference input (R101); present exactly while `pr` is. -/
structure RefInput where
  present : Bool
  last : Option Nat
  intervals : List Nat
  pr : Option Nat
deriving DecidableEq, Repr

/-- The alignment of a LOCKED output: relation and k, Pm, the aligning marker M and the marker count (R106). -/
structure Alignment where
  faster : Bool
  k : Nat
  pm : Nat
  m : Int
  count : Nat
deriving DecidableEq, Repr

/-- The lock state, with what the output holds in it: the alignment while LOCKED, Ph while HOLDOVER (R106). -/
inductive Lock where
  | free
  | locked (al : Alignment)
  | holdover (ph : Int)
deriving DecidableEq, Repr

/-- The relock policy (R106). -/
inductive RelockPolicy where
  | auto
  | latched
deriving DecidableEq, Repr

/-- Reply kind (Table 49). -/
inductive ReplyKind where
  | accepted
  | done
  | refused
deriving DecidableEq, Repr

/-- A reply block as it is held in a reply queue (Table 49): word 0 is the device address and word 6, the lost
count, is filled at placement (R172). -/
structure Reply where
  tag : Byte
  code : Byte
  kind : ReplyKind
  status : Byte
  restart : Bool
  payload : List Byte
deriving DecidableEq, Repr

/-- The condition latches: owner and kind (Table 59). -/
inductive Cond where
  | linkLost (n : Ix)
  | slip (n : Ix)
  | inputLost (n : Ix)
  | stdMismatch (n : Ix)
  | slate (n : Ix)
  | faulted (n : Ix)
  | refLost (n : Ix)
  | poolDegraded
  | deviceFatal
deriving DecidableEq, Repr

/-- An instant and parity of a boundary (R106). -/
structure Boundary where
  instant : Int
  parity : Option Parity
deriving DecidableEq, Repr

/-- One active line as it is emitted on an output link: its number and its samples. -/
structure EmittedLine where
  number : Nat
  y : List Nat
  cb : List Nat
  cr : List Nat
deriving DecidableEq, Repr

/-- The seven output counters (Table 29). -/
structure OutCounters where
  boundaries : Nat
  alignments : Nat
  phaseSteps : Nat
  holdoverEntries : Nat
  standardChanges : Nat
  repliesSent : Nat
  noticesSent : Nat
deriving DecidableEq, Repr

/-- One output timing unit OUTn (R106, R117). `nextParity` is the parity that the even-k rule of R110 gave the
next boundary where it was placed; `lineNext` the next active line of the picture; `packets` and `lineOut`
what the output link carries: the packets of the current picture and the last active line emitted. -/
structure OutUnit where
  standard : Std
  lock : Lock
  select : Option RefId
  offset : Nat
  policy : RelockPolicy
  last : Boundary
  next : Int
  nextParity : Option Parity
  relockPending : Bool
  replies : List Reply
  reserved : Nat
  notices : List Cond
  lineNext : Nat
  packets : List SentPacket
  lineOut : Option EmittedLine
  ctr : OutCounters
deriving DecidableEq, Repr

/-! ### Management unit (chapter 10) -/

/-- A command block waiting in a command queue (Table 47); its word 0 is the device address (R15). -/
structure Block where
  tag : Byte
  code : Byte
  target : Byte
  payload : List Byte
deriving DecidableEq, Repr

/-- The operation of a pending-operation record (R174). -/
inductive PendingKind where
  | start
  | commit
  | relock
deriving DecidableEq, Repr

/-- A pending-operation record that is not empty (R174). -/
structure PendingOp where
  op : PendingKind
  origin : Ix
  tag : Byte
  code : Byte
  restart : Bool
deriving DecidableEq, Repr

/-- The five management counters (Table 56). -/
structure MgmtCounters where
  commandsTaken : Nat
  commandsRefused : Nat
  commandsLost : Nat
  shortBlocks : Nat
  badCodes : Nat
deriving DecidableEq, Repr

/-- The management unit (chapter 10). -/
structure Mgmt where
  queues : Four (List Block)
  lost : Four Nat
  lastServed : Ix
  laneOps : Four (Option PendingOp)
  outOps : Four (Option PendingOp)
  restart : Bool
  ctr : MgmtCounters
deriving DecidableEq, Repr

/-! ### Fault unit (chapter 11) -/

/-- Severities in ascending order (chapter 11). -/
inductive Severity where
  | note
  | degraded
  | fatal
deriving DecidableEq, Repr

/-- The error codes (Table 57). -/
inductive ErrCode where
  | badPacket | lineErrors | discarded | missed | noBuffer | reanchor | abandoned | linkLost
  | memoryCorrected | memoryUncorrectable
  | ttParity | hcParity | vcParity | carryParity | carryDrop | invalidLabel
  | refLost | poolDegraded | badCode | slotRecord
deriving DecidableEq, Repr

/-- Detail of an error (R180, Table 58). -/
inductive Detail where
  | none
  | slot (k : Nat)
  | sequence (q : Nat)
  | row (r : Nat)
  | output (n : Nat)
  | count (c : Nat)
deriving DecidableEq, Repr

/-- The record of a log that is not empty (R180). -/
structure LogRec where
  code : ErrCode
  severity : Severity
  time : Nat
  detail : Detail
  overflow : Bool
  later : Nat
  read : Bool
deriving DecidableEq, Repr

/-- The nine error logs (R180). -/
inductive LogId where
  | fl (n : Ix)
  | ll (n : Ix)
  | dl
deriving DecidableEq, Repr

/-- The fault unit (chapter 11). `latches` lists the set latches in the order of R185, `mask` holds bit
kind − 1 for each kind (R187). `fatalDue` is the model's own: an integrity error found in the step being
taken, whose entry to device fatal waits for the end of the step (R58); it is clear between steps. -/
structure FaultUnit where
  feedLogs : Four (Option LogRec)
  laneLogs : Four (Option LogRec)
  deviceLog : Option LogRec
  latches : List Cond
  mask : BitVec 9
  alarm : Bool
  deviceFatal : Bool
  fatalDue : Bool
deriving DecidableEq, Repr

/-! ### The part -/

/-- The whole part: every block of Table 1, the timebase (R20), the straps and the mute flag (R137). -/
structure Part where
  timebase : Nat
  straps : Straps
  links : Four LinkRx
  feeds : Four Feed
  store : Store
  lanes : Four Lane
  outs : Four OutUnit
  refA : RefInput
  refB : RefInput
  mgmt : Mgmt
  fault : FaultUnit
  mute : Bool
deriving DecidableEq, Repr

end Sys2Proof.Machine
end

