-- ==== Sys2Proof/Machine/Memory.lean ====
section
/-! DEFINITION. Sparse lists keyed by a number in one canonical form, and on them the attached memory: the
samples of the 64 slot regions (R47) and the errors standing in it (R54, R55). -/

namespace Sys2Proof.Machine

/-- The canonical form: keys strictly rising. -/
abbrev cellsRising {α : Type} (m : List (Nat × α)) : Prop := m.Pairwise (fun x y => x.1 < y.1)

/-- The value listed at a key. -/
def cellsGet {α : Type} (a : Nat) : List (Nat × α) → Option α
  | [] => none
  | (b, v) :: rest => if a = b then some v else if a < b then none else cellsGet a rest

/-- The list with a value put at a key. -/
def cellsPut {α : Type} (a : Nat) (v : α) : List (Nat × α) → List (Nat × α)
  | [] => [(a, v)]
  | (b, w) :: rest =>
    if a < b then (a, v) :: (b, w) :: rest
    else if a = b then (a, v) :: rest
    else (b, w) :: cellsPut a v rest

/-- The list without a key. -/
def cellsDrop {α : Type} (a : Nat) (m : List (Nat × α)) : List (Nat × α) :=
  m.filter (fun c => c.1 ≠ a)

/-! ### Addresses and contents of the attached memory -/

/-- The number of a stored sample: slot region, then the luma samples by line position and sample number, then
those of Cb and of Cr (R47, R95). The numbering inside the part is the model's own (log entry 11). -/
def sampleAddress (slot : SlotIx) (comp : Component) (line col : Nat) : Nat :=
  slot.val * Config.samplesPerSlot +
    (match comp with
     | .y => line * 1920 + col
     | .cb => Config.lumaPerSlot + line * 960 + col
     | .cr => Config.lumaPerSlot + 1036800 + line * 960 + col)

/-- What an unlisted address reads as: the black that initialisation writes, Y 64, Cb 512, Cr 512 (R46). -/
def blackAt (a : Nat) : Sample :=
  if a % Config.samplesPerSlot < Config.lumaPerSlot then 64#10 else 512#10

/-- The canonical form of the memory: rising addresses, no entry equal to what an unlisted address reads as. -/
abbrev memoryWf (m : List (Nat × Sample)) : Prop :=
  cellsRising m ∧ ∀ c ∈ m, c.2 ≠ blackAt c.1

/-- Read one stored sample. -/
def memoryRead (m : List (Nat × Sample)) (a : Nat) : Sample :=
  (cellsGet a m).getD (blackAt a)

/-- Write one stored sample. -/
def memoryWrite (a : Nat) (v : Sample) (m : List (Nat × Sample)) : List (Nat × Sample) :=
  if v = blackAt a then cellsDrop a m else cellsPut a v m

/-- Write black over a slot's whole region (R46). -/
def memoryBlacken (slot : SlotIx) (m : List (Nat × Sample)) : List (Nat × Sample) :=
  m.filter (fun c => c.1 / Config.samplesPerSlot ≠ slot.val)

/-- Fresh check bits over a slot's whole region (R46). -/
def eccClear (slot : SlotIx) (m : List (Nat × EccFault)) : List (Nat × EccFault) :=
  m.filter (fun c => c.1 / Config.samplesPerSlot ≠ slot.val)

/-- The samples and the errors of the memory, as a write changes them together. -/
abbrev Cells := List (Nat × Sample) × List (Nat × EccFault)

/-- One sample written at an address, with fresh check bits (R47). -/
def writeSample (a : Nat) (v : Sample) (st : Cells) : Cells := (memoryWrite a v st.1, cellsDrop a st.2)

/-- One component of one line into a slot, from sample 0 upward (R47). -/
def writeRun (slot : SlotIx) (comp : Component) (line : Nat) (vs : List Sample) (st : Cells) : Cells :=
  vs.zipIdx.foldl (fun st vi => writeSample (sampleAddress slot comp line vi.2) vi.1 st) st

/-- The values of one component of a line, in order of arrival. -/
def componentOf (comp : Component) (samples : List LinkSample) : List Sample :=
  (samples.filter (fun s => s.comp == comp)).map LinkSample.value

/-- Luma samples of a line: the line's sample count (R1). -/
def lumaCount (samples : List LinkSample) : Nat := (componentOf .y samples).length

/-- One active line into a slot at a line position, within the raster's width (R33, R47). -/
def writeLine (slot : SlotIx) (line width : Nat) (samples : List LinkSample) (st : Cells) : Cells :=
  st |> writeRun slot .y line ((componentOf .y samples).take width)
     |> writeRun slot .cb line ((componentOf .cb samples).take (width / 2))
     |> writeRun slot .cr line ((componentOf .cr samples).take (width / 2))

end Sys2Proof.Machine
end

