-- ==== Sys2Proof/Machine/Catalogue.lean ====
section
/-! DEFINITION. The standards catalogue (Tables 2 and 3), the identification tolerances (Table 8), the label
conversions (R147, R149, R150) and the raster mapping (R88 to R91): what the spec fixes as pure functions. -/

namespace Sys2Proof.Machine

/-- Label rates (Table 2). -/
inductive LabelRate where
  | ndf24
  | ndf25
  | ndf30
  | df30
deriving DecidableEq, Repr

/-- One row of the catalogue (Table 2). -/
structure StdRow where
  width : Nat
  height : Nat
  interlaced : Bool
  period : Nat
  rate : LabelRate
  perLabel : Nat
deriving DecidableEq, Repr

/-- The catalogue (Table 2). -/
def stdRow (s : Std) : StdRow :=
  match s with
  | .s01 => ⟨720, 576, true, 540000, .ndf25, 2⟩
  | .s02 => ⟨720, 480, true, 450450, .df30, 2⟩
  | .s03 => ⟨1920, 1080, true, 540000, .ndf25, 2⟩
  | .s04 => ⟨1920, 1080, true, 450450, .df30, 2⟩
  | .s05 => ⟨1280, 720, false, 540000, .ndf25, 2⟩
  | .s06 => ⟨1280, 720, false, 450450, .df30, 2⟩
  | .s07 => ⟨1920, 1080, false, 1080000, .ndf25, 1⟩
  | .s08 => ⟨1920, 1080, false, 900900, .df30, 1⟩
  | .s09 => ⟨1920, 1080, false, 1126125, .ndf24, 1⟩
  | .s10 => ⟨1920, 1080, false, 1125000, .ndf24, 1⟩
  | .s11 => ⟨1920, 1080, false, 540000, .ndf25, 2⟩
  | .s12 => ⟨1920, 1080, false, 450450, .df30, 2⟩
  | .s13 => ⟨1920, 1080, false, 900000, .ndf30, 1⟩
  | .s14 => ⟨1920, 1080, false, 450000, .ndf30, 2⟩

/-- The catalogue's codes in table order. -/
def allStd : List Std :=
  [.s01, .s02, .s03, .s04, .s05, .s06, .s07, .s08, .s09, .s10, .s11, .s12, .s13, .s14]

/-- "Codes are given by their number: S01 is 1, S14 is 14" (Table 12). -/
def stdNumber (s : Std) : Nat :=
  match s with
  | .s01 => 1 | .s02 => 2 | .s03 => 3 | .s04 => 4 | .s05 => 5 | .s06 => 6 | .s07 => 7
  | .s08 => 8 | .s09 => 9 | .s10 => 10 | .s11 => 11 | .s12 => 12 | .s13 => 13 | .s14 => 14

/-- The standard of a code number; none for 0 and above 14 (R120). -/
def stdOfNumber (k : Nat) : Option Std :=
  allStd.find? (fun s => stdNumber s == k)

/-- Lines of one picture: all frame lines of a progressive standard, half of them of an interlaced one
(Table 26). -/
def linesPerPicture (s : Std) : Nat :=
  if (stdRow s).interlaced then (stdRow s).height / 2 else (stdRow s).height

/-- Picture period in TU (Table 2). -/
def periodOf (s : Std) : Nat := (stdRow s).period

/-- The strap standard: "S03 when low, S04 when high" (Table 5). -/
def strapStd (t : Straps) : Std := if t.stdSel then .s04 else .s03

/-! ### Identification (R8) -/

/-- "floor(8 × Pi × 300 / 1,000,000)" (R8). -/
def windowTolerance (period : Nat) : Nat := 8 * period * 300 / 1000000

/-- A window sum within tolerance of 8 × Pi, inclusive (R8, R10). -/
def windowMatches (period sum : Nat) : Bool :=
  decide (((sum : Int) - (8 * period : Nat)).natAbs ≤ windowTolerance period)

/-- A catalogue row matches an established structure and a window sum (R8). -/
def rowMatches (e : Established) (sum : Nat) (s : Std) : Bool :=
  let r := stdRow s
  let inter := e.pattern == Pattern.alternating
  r.width == e.samples
    && r.height == (if inter then 2 * e.active else e.active)
    && r.interlaced == inter
    && windowMatches r.period sum

/-- The code that a window identifies: "at most one row matches any window" (R8). -/
def identifyWindow (e : Established) (sum : Nat) : Option Std :=
  allStd.find? (rowMatches e sum)

/-! ### Labels (R147, R149, R150) -/

/-- R, the nominal frame count of a label rate (chapter 8). -/
def rateFrames (r : LabelRate) : Nat :=
  match r with
  | .ndf24 => 24
  | .ndf25 => 25
  | .ndf30 => 30
  | .df30 => 30

/-- Labels per day (Table 3). -/
def labelsPerDay (r : LabelRate) : Nat :=
  match r with
  | .ndf24 => 2073600
  | .ndf25 => 2160000
  | .ndf30 => 2592000
  | .df30 => 2589408

/-- Label period Pl of a standard's label rate (Table 3): the time of the pictures that carry one label. -/
def labelPeriod (s : Std) : Nat := (stdRow s).period * (stdRow s).perLabel

/-- Whether a label made of these user words is valid for a standard (R147), and the label. -/
def parseLabel (s : Std) (ws : List Byte) : Option Label :=
  match ws with
  | [h, m, sec, fr, fl] =>
    let r := stdRow s
    let drop := fl.toNat % 2 == 1
    let second := fl.toNat / 2 % 2 == 1
    let h := h.toNat
    let m := m.toNat
    let sec := sec.toNat
    let fr := fr.toNat
    if h < 24 && m < 60 && sec < 60 && fr < rateFrames r.rate && fl.toNat < 4
        && drop == (r.rate == .df30)
        && (!second || r.perLabel == 2)
        && !(r.rate == .df30 && sec == 0 && fr < 2 && m % 10 != 0)
    then some ⟨h, m, sec, fr, drop, second⟩
    else none
  | _ => none

/-- Label to count (R149 for the non-drop rates, R150 for 30 DF). -/
def labelToCount (r : LabelRate) (l : Label) : Nat :=
  match r with
  | .df30 =>
    let m := 60 * l.hours + l.minutes
    30 * (3600 * l.hours + 60 * l.minutes + l.seconds) + l.frames - 2 * (m - m / 10)
  | r => ((l.hours * 60 + l.minutes) * 60 + l.seconds) * rateFrames r + l.frames

/-- The non-drop label of a count at R frames a second (R149), with the drop flag given. -/
def plainLabel (frames count : Nat) (drop : Bool) : Label :=
  ⟨count / (3600 * frames), count / (60 * frames) % 60, count / frames % 60, count % frames, drop, false⟩

/-- The e of R150. -/
def dropExpand (count : Nat) : Nat :=
  let d := count / 17982
  let r := count % 17982
  if r < 2 then count + 18 * d else count + 18 * d + 2 * ((r - 2) / 1798)

/-- Count to label (R149, R150); the second-picture flag is clear. -/
def countToLabel (r : LabelRate) (count : Nat) : Label :=
  match r with
  | .df30 => plainLabel 30 (dropExpand count) true
  | r => plainLabel (rateFrames r) count false

/-- The five user words of a label (Table 38). -/
def labelWords (l : Label) : List Byte :=
  [BitVec.ofNat 8 l.hours, BitVec.ofNat 8 l.minutes, BitVec.ofNat 8 l.seconds, BitVec.ofNat 8 l.frames,
   BitVec.ofNat 8 ((if l.drop then 1 else 0) + (if l.second then 2 else 0))]

/-! ### Raster mapping (chapter 5) -/

/-- Clamp to a..b (00_scope, Arithmetic). -/
def clampInt (a b v : Int) : Int := if v < a then a else if b < v then b else v

/-- Position in sixteenths of a source sample (R88) or source frame row (R90). -/
def sixteenths (x src out : Nat) : Int :=
  ((16 * (2 * (x : Int) + 1) * src - 16 * out) : Int) / (2 * (out : Int))

/-- Integer part of a position in sixteenths; the division rounds toward minus infinity (R88). -/
def wholePart (p : Int) : Int := p / 16

/-- Phase of a position in sixteenths, 0..15 (R88). -/
def phasePart (p : Int) : Nat := (p - 16 * wholePart p).toNat

/-- Number of a parity: TOP 0, BOTTOM 1. -/
def parityNumber (p : Parity) : Nat :=
  match p with
  | .top => 0
  | .bottom => 1

/-- The opposite parity. -/
def oppositeParity (p : Parity) : Parity :=
  match p with
  | .top => .bottom
  | .bottom => .top

/-- The output frame row y of output line l (R87). -/
def frameRow (par : Option Parity) (l : Nat) : Nat :=
  match par with
  | none => l
  | some q => 2 * l + parityNumber q

/-- The field position W16 of an interlaced tap picture of parity p (R91). -/
def fieldSixteenths (v : Int) (p : Parity) : Int := (v - 16 * parityNumber p) / 2

/-- The four positions i − 1 .. i + 2, each clamped to 0..size − 1 (R88, R89, R90, R91, R99). -/
def neighbourhood (i : Int) (size : Nat) : List Nat :=
  [i - 1, i, i + 1, i + 2].map (fun c => (clampInt 0 ((size : Int) - 1) c).toNat)

end Sys2Proof.Machine
end

