-- ==== Sys2Proof/Machine/Operands.lean ====
section
/-! DEFINITION. How values stand in words: multi-word fields, the encodings of targets and settings, the CRC of
R2 and R162, and the packet of Table 6. -/

namespace Sys2Proof.Machine

/-- `k` payload words of a value, most significant first. -/
def beWords : Nat → Nat → List Byte
  | 0, _ => []
  | k + 1, v => BitVec.ofNat 8 (v / 256 ^ k) :: beWords k v

/-- `k` payload words of a signed value in two's complement, most significant first. -/
def beWordsInt (k : Nat) (v : Int) : List Byte := beWords k (v % (256 ^ k : Nat)).toNat

/-- The value of payload words, most significant first. -/
def wordsValue (ws : List Byte) : Nat := ws.foldl (fun a b => a * 256 + b.toNat) 0

/-- A single payload word. -/
def word (v : Nat) : Byte := BitVec.ofNat 8 v

/-- A flag as a payload word: 0 or 1. -/
def flagWord (b : Bool) : Byte := if b then 1 else 0

/-! ### CRC (R2, R162) -/

/-- One bit into the 16-bit CRC with polynomial x¹⁶+x¹²+x⁵+1 (R2, R162). -/
def crcBit (c : BitVec 16) (bit : Bool) : BitVec 16 :=
  if c.msb != bit then (c <<< 1) ^^^ 0x1021#16 else c <<< 1

/-- The low `w` bits of a value into the CRC, most significant first. -/
def crcValue : Nat → Nat → BitVec 16 → BitVec 16
  | 0, _, c => c
  | w + 1, v, c => crcValue w v (crcBit c (v.testBit w))

/-- The check of a line: each active sample in order of arrival, as 10 bits; FFFFh without samples (R2). -/
def lineCheck (samples : List LinkSample) : BitVec 16 :=
  samples.foldl (fun c s => crcValue 10 s.value.toNat c) 0xFFFF#16

/-- The CRC of a byte sequence (R162). -/
def bytesCrc (bytes : List Byte) : BitVec 16 :=
  bytes.foldl (fun c b => crcValue 8 b.toNat c) 0xFFFF#16

/-- The CRC of a table's rows: 16 bits of each coefficient, high byte first (R162). -/
def rowsCrc (rows : List TRow) : BitVec 16 :=
  rows.foldl
    (fun c r => crcValue 16 r.k3.toNat (crcValue 16 r.k2.toNat (crcValue 16 r.k1.toNat (crcValue 16 r.k0.toNat c))))
    0xFFFF#16

/-! ### Packets (Table 6) -/

/-- The sum that the checksum word carries, mod 512 (R3). -/
def packetChecksum (p : Packet) : BitVec 9 :=
  BitVec.ofNat 9 (p.kind.toNat + p.subkind.toNat + p.user.length + (p.user.map BitVec.toNat).sum)

/-- A packet as it is sent, its checksum computed on sending (R116). -/
def sendPacket (p : Packet) : SentPacket := ⟨p, packetChecksum p⟩

/-- The packet that the words of a link spell (R3): accepted when all count + 4 words arrived and the checksum
word equals the computed sum. Unused high bits of each 10-bit link word are ignored (Table 6, note A). -/
def acceptPacket (ws : List (BitVec 10)) : Option Packet :=
  match ws with
  | kind :: subkind :: count :: rest =>
    let n := (count.setWidth 8).toNat
    let p : Packet := ⟨kind.setWidth 8, subkind.setWidth 8, (rest.take n).map (fun w => w.setWidth 8)⟩
    match rest[n]? with
    | some c => if c.setWidth 9 = packetChecksum p then some p else none
    | none => none
  | _ => none

/-! ### Targets and owners (Table 48) -/

/-- What a target word names. -/
inductive Target where
  | device
  | feed (n : Ix)
  | lane (n : Ix)
  | output (n : Ix)
  | log (l : LogId)
  | unused
deriving DecidableEq, Repr

/-- The target of a target word (Table 48). -/
def targetOf (w : Byte) : Target :=
  let v := w.toNat
  if v = 0 then .device
  else if 16 ≤ v ∧ v ≤ 19 then .feed (Fin.ofNat 4 (v - 16))
  else if 32 ≤ v ∧ v ≤ 35 then .lane (Fin.ofNat 4 (v - 32))
  else if 48 ≤ v ∧ v ≤ 51 then .output (Fin.ofNat 4 (v - 48))
  else if 64 ≤ v ∧ v ≤ 67 then .log (.fl (Fin.ofNat 4 (v - 64)))
  else if 68 ≤ v ∧ v ≤ 71 then .log (.ll (Fin.ofNat 4 (v - 68)))
  else if v = 72 then .log .dl
  else .unused

/-- The owner word of a condition (Table 48, Table 59). -/
def condOwner (c : Cond) : Byte :=
  match c with
  | .linkLost n => word (16 + n.val)
  | .slip n => word (16 + n.val)
  | .inputLost n => word (32 + n.val)
  | .stdMismatch n => word (32 + n.val)
  | .slate n => word (32 + n.val)
  | .faulted n => word (32 + n.val)
  | .refLost n => word (48 + n.val)
  | .poolDegraded => word 0
  | .deviceFatal => word 0

/-- The kind of a condition, 1..9 (Table 51). -/
def condKind (c : Cond) : Nat :=
  match c with
  | .linkLost _ => 1
  | .slip _ => 2
  | .inputLost _ => 3
  | .stdMismatch _ => 4
  | .slate _ => 5
  | .faulted _ => 6
  | .refLost _ => 7
  | .poolDegraded => 8
  | .deviceFatal => 9

/-- The 30 latches "in the order of Table 59 and by ascending owner within each kind" (R185). -/
def allConds : List Cond :=
  allIx.map Cond.linkLost ++ allIx.map Cond.slip ++ allIx.map Cond.inputLost ++ allIx.map Cond.stdMismatch
    ++ allIx.map Cond.slate ++ allIx.map Cond.faulted ++ allIx.map Cond.refLost ++ [.poolDegraded, .deviceFatal]

/-- The condition that an owner word and a kind word name; none where the owner does not carry the kind (R185). -/
def condOf (owner kind : Byte) : Option Cond :=
  allConds.find? (fun c => condOwner c == owner && condKind c == kind.toNat)

/-! ### Settings and codes in words -/

/-- Link state word (Table 12). -/
def linkStateWord (s : LinkState) : Nat :=
  match s with
  | .dark => 0
  | .seeking => 1
  | .measuring => 2
  | .locked _ => 3

/-- The identified code while LOCKED; 0 otherwise (Table 12). -/
def linkCodeWord (s : LinkState) : Nat :=
  match s with
  | .locked c => stdNumber c
  | _ => 0

/-- The six feed settings in the order of Table 9. -/
def settingsWords (s : Settings) : List Byte :=
  [flagWord s.listen, word (match s.policy with | .contain => 0 | .pass => 1), word s.wDiv, word s.threshold,
   s.tcKind, s.tcSubkind]

/-- Case word (Table 25). -/
def caseWord (c : JobCase) : Nat :=
  match c with
  | .none => 0
  | .bracket => 1
  | .earlyClamp => 2
  | .lateClamp => 3
  | .frozen => 4
  | .slate => 5

/-- Tap state word (Table 25). -/
def tapWord (t : TapState) : Nat :=
  match t with
  | .absent => 0
  | .present => 1
  | .poisoned => 2

/-- Lane state word (Table 36). -/
def laneStateWord (s : LaneState) : Nat :=
  match s with
  | .stopped => 0
  | .acquiring => 1
  | .converting => 2
  | .holding => 3
  | .slate => 4
  | .faulted => 5

/-- Timecode mode word (Table 32). -/
def tcModeWord (m : TcMode) : Nat :=
  match m with
  | .off => 0
  | .free => 1
  | .follow => 2

/-- The profile "in the order and encoding of Table 32". -/
def profileWords (p : Profile) : List Byte :=
  [word p.source.val, word (stdNumber p.input), word (stdNumber p.output)] ++ beWords 4 p.latency
    ++ beWords 2 p.theta1 ++ beWords 2 p.theta2 ++ beWords 2 p.theta3 ++ beWords 2 p.holdLimit
    ++ beWords 2 p.slateY ++ beWords 2 p.slateCb ++ beWords 2 p.slateCr ++ beWords 2 p.acquireTimeout
    ++ [word (tcModeWord p.tcMode)]

/-- Reference select word (Table 28). -/
def selectWord (s : Option RefId) : Nat :=
  match s with
  | none => 0
  | some .a => 1
  | some .b => 2

/-- Pending operation word (Table 55). -/
def pendingWord (o : Option PendingOp) : Nat :=
  match o with
  | none => 0
  | some q => match q.op with
    | .start => 1
    | .commit => 2
    | .relock => 1

/-- Severity number (Table 58). -/
def severityWord (s : Severity) : Nat :=
  match s with
  | .note => 1
  | .degraded => 2
  | .fatal => 3

/-- The number of an error code (Table 57). -/
def errNumber (c : ErrCode) : Nat :=
  match c with
  | .badPacket => 1
  | .lineErrors => 2
  | .discarded => 3
  | .missed => 4
  | .noBuffer => 5
  | .reanchor => 6
  | .abandoned => 7
  | .linkLost => 8
  | .memoryCorrected => 9
  | .memoryUncorrectable => 10
  | .ttParity => 17
  | .hcParity => 18
  | .vcParity => 19
  | .carryParity => 20
  | .carryDrop => 21
  | .invalidLabel => 22
  | .refLost => 33
  | .poolDegraded => 34
  | .badCode => 35
  | .slotRecord => 36

/-- The severity of an error code (Table 57). -/
def errSeverity (c : ErrCode) : Severity :=
  match c with
  | .badPacket => .note
  | .lineErrors => .note
  | .discarded => .degraded
  | .missed => .degraded
  | .noBuffer => .degraded
  | .reanchor => .degraded
  | .abandoned => .degraded
  | .linkLost => .degraded
  | .memoryCorrected => .note
  | .memoryUncorrectable => .degraded
  | .ttParity => .fatal
  | .hcParity => .fatal
  | .vcParity => .fatal
  | .carryParity => .fatal
  | .carryDrop => .note
  | .invalidLabel => .note
  | .refLost => .degraded
  | .poolDegraded => .degraded
  | .badCode => .note
  | .slotRecord => .fatal

/-- Detail kind and value (Table 58). -/
def detailWords (d : Detail) : List Byte :=
  match d with
  | .none => 0 :: beWords 4 0
  | .slot k => 1 :: beWords 4 k
  | .sequence q => 2 :: beWords 4 q
  | .row r => 3 :: beWords 4 r
  | .output n => 4 :: beWords 4 n
  | .count c => 5 :: beWords 4 c

end Sys2Proof.Machine
end

