-- ==== Sys2Proof/Machine/ResetValues.lean ====
section
/-! DEFINITION. The value of every record after a reset, as the spec states it block by block: R4 and Table 10
for the link receivers, R23 and R40 for feed capture, R42, R45 and R46 for the picture store, R62, R119, R121,
R140, R143, R151, R158 and R159 for the lanes, R101 and R106 for references and outputs, R168, R169, R173, R174
for the management unit, R180, R184, R187 for the fault unit. -/

namespace Sys2Proof.Machine

/-- Number of rows of a table (Table 42). -/
def tableRows (t : Table) : Nat :=
  match t with
  | .tt => 256
  | .hc => 16
  | .vc => 16

/-- A row with fresh parity. -/
def mkRow (a b c d : Nat) : TRow :=
  ⟨BitVec.ofNat 16 a, BitVec.ofNat 16 b, BitVec.ofNat 16 c, BitVec.ofNat 16 d, true⟩

/-- The default row of a table (R159). -/
def defaultRow (t : Table) (row : Nat) : TRow :=
  match t with
  | .tt =>
    let phi := row / 4
    if row % 4 < 2 then mkRow 0 (1024 - 16 * phi) (16 * phi) 0
    else if phi < 32 then mkRow 0 1024 0 0
    else mkRow 0 0 1024 0
  | .hc => mkRow 0 (256 - 16 * row) (16 * row) 0
  | .vc => mkRow 0 (256 - 16 * row) (16 * row) 0

/-- The default contents of a table (R159). -/
def defaultRows (t : Table) : List TRow := (List.range (tableRows t)).map (defaultRow t)

/-- The CRC of a table's default contents (R158), as computed by R162: 48,855 for TT, 8,517 for HC and VC. -/
def defaultCrc (t : Table) : BitVec 16 :=
  match t with
  | .tt => 0xBED7#16
  | .hc => 0x2145#16
  | .vc => 0x2145#16

/-- Both banks of a table at their defaults (R158). -/
def resetTable (t : Table) : TableBanks := ⟨defaultRows t, defaultRows t, defaultCrc t⟩

/-- The feed settings' defaults (Table 10). -/
def defaultSettings : Settings := ⟨true, .contain, 8, 4, 0x60#8, 0x01#8⟩

/-- A link receiver after reset (R4): DARK, and at once SEEKING where the line interface reports activity. -/
def resetLink (activity : Bool) : LinkRx where
  activity := activity
  state := if activity then .seeking else .dark
  est := none
  window := none
  missedRun := 0
  lastCode := none
  lineErrors := 0
  cur := none
  recorded := none
  lastNumber := none
  line := none
  settings := defaultSettings
  ctr := ⟨0, 0, 0, 0, 0, 0, 0⟩

/-- Feed capture after reset (R21, R23, R29). -/
def resetFeed : Feed := ⟨false, none, 0, 0, 0, [], ⟨0, 0, 0, 0, 0, 0, 0, 0⟩⟩

/-- A slot record after pin reset (R42). -/
def resetSlot : SlotRec := ⟨.uninitialized, none, 0, false, 0, true⟩

/-- Whether the store keeps a slot record through DEVICE RESET: QUARANTINED, and passing its check (R45). -/
def keptQuarantined (r : SlotRec) : Bool := r.state == .quarantined && r.intact

/-- A slot record after DEVICE RESET (R45). -/
def deviceResetSlot (r : SlotRec) : SlotRec :=
  if keptQuarantined r then { r with owner := none, pins := 0 } else resetSlot

/-- From the next slot on, the first that is not QUARANTINED: "The store skips it. It advances the next slot
at once" (R46). -/
def skipQuarantined (slots : Vector SlotRec 64) : Nat → Nat → Nat
  | 0, k => k
  | fuel + 1, k =>
    match slots[k]? with
    | some r => if r.state = .quarantined then skipQuarantined slots fuel (k + 1) else k
    | none => k

/-- The store at the begin of an initialisation run over these records (R44, R45, R46, R59). -/
def beginInit (slots : Vector SlotRec 64) (mem : List (Nat × Sample)) (ecc : List (Nat × EccFault)) : Store where
  slots := slots
  freeList := []
  quarantine := slots.toList.countP (fun r => r.state == .quarantined)
  initRunning := decide (skipQuarantined slots 64 0 < 64)
  initNext := skipQuarantined slots 64 0
  initDue := Config.initWriteTime
  mem := mem
  ecc := ecc
  ctr := ⟨0, 0, 0, 0, 0, 0, 0⟩

/-- A tap that holds no entry (Table 21). -/
def emptyTap : Tap := ⟨none, .absent, none⟩

/-- The job record after reset (R62). -/
def resetJob : JobRec where
  inFlight := false
  kase := .none
  boundary := none
  target := none
  picStd := none
  picParity := none
  phase := none
  tm1 := emptyTap
  t0 := emptyTap
  t1 := emptyTap
  t2 := emptyTap
  fallback := none
  motionValid := false
  motionLostFrom := none
  pinned := []
  blocks := []
  kept := none

/-- The default profile of lane `n` (Table 31): its default latency is 3 × Pi of the strap standard. -/
def defaultProfile (t : Straps) (n : Ix) : Profile where
  source := n
  input := strapStd t
  output := strapStd t
  latency := 3 * periodOf (strapStd t)
  theta1 := 8
  theta2 := 24
  theta3 := 64
  holdLimit := 50
  slateY := 64
  slateCb := 512
  slateCr := 512
  acquireTimeout := 50
  tcMode := .off

/-- A lane after reset (R62, R119, R121, R140, R143, R151, R158). -/
def resetLane (t : Straps) (n : Ix) : Lane where
  profile := defaultProfile t n
  state := .stopped
  usable := false
  holdCount := 0
  acquireAt := none
  job := resetJob
  jobNumber := 0
  tables := ⟨resetTable .tt, resetTable .hc, resetTable .vc⟩
  commit := none
  route := ⟨.carry, []⟩
  carry := []
  tcCount := 0
  fresh := true
  lastLabel := none
  jobCtr := ⟨0, 0, 0, 0, 0, 0, 0, 0, 0, 0⟩
  laneCtr := ⟨0, 0, 0, 0, 0, 0, 0, 0⟩
  carryCtr := ⟨0, 0, 0, 0, 0, 0, 0, 0⟩

/-- A reference input after reset (R101). -/
def resetRef : RefInput := ⟨false, none, [], none⟩

/-- An output after reset (R106). "The first boundary is taken at the instant the reset ends, timebase 0, with parity
TOP. Its next boundary is fixed at Po": it belongs to the reset (log entry 8), and is the one boundary counted. -/
def resetOut (t : Straps) : OutUnit where
  standard := strapStd t
  lock := .free
  select := none
  offset := 0
  policy := .auto
  last := ⟨0, if (stdRow (strapStd t)).interlaced then some .top else none⟩
  next := periodOf (strapStd t)
  nextParity := none
  relockPending := false
  replies := []
  reserved := 0
  notices := []
  lineNext := 0
  packets := []
  lineOut := none
  ctr := ⟨1, 0, 0, 0, 0, 0, 0⟩

/-- The management unit after reset (R168, R169, R173, R174, R178). -/
def resetMgmt : Mgmt where
  queues := Four.all []
  lost := Four.all 0
  lastServed := 3
  laneOps := Four.all none
  outOps := Four.all none
  restart := true
  ctr := ⟨0, 0, 0, 0, 0⟩

/-- The fault unit after reset (R180, R184, R187, R189). -/
def resetFault : FaultUnit where
  feedLogs := Four.all none
  laneLogs := Four.all none
  deviceLog := none
  latches := []
  mask := 511#9
  alarm := false
  deviceFatal := false
  fatalDue := false

/-- The part after a reset: every block but the store at its reset values, the line interfaces reporting the
activity given (R4, R20), over the store given. -/
def resetPart (t : Straps) (activity : Four Bool) (store : Store) : Part where
  timebase := 0
  straps := t
  links := Four.make (fun n => resetLink (activity.get n))
  feeds := Four.all resetFeed
  store := store
  lanes := Four.make (resetLane t)
  outs := Four.all (resetOut t)
  refA := resetRef
  refB := resetRef
  mgmt := resetMgmt
  fault := resetFault
  mute := false

/-- The store after pin reset (R45): every record at its reset values. The cells of the attached memory are
not changed by the reset itself. -/
def pinResetStore (mem : List (Nat × Sample)) (ecc : List (Nat × EccFault)) : Store :=
  beginInit (Vector.replicate 64 resetSlot) mem ecc

end Sys2Proof.Machine
end

