-- ==== Sys2Proof/Machine/State.lean ====
section
/-! DEFINITION. The state of the model: the part, and the commands that are waiting for it. -/

namespace Sys2Proof.Machine

/-- The whole state, plain data: the part (every record of Parts.lean), and the queue of the commands that are
waiting, first in, first out. -/
structure State where
  part : Part
  pending : List Instr
deriving DecidableEq, Repr

/-- Why the model would stop with a fault. No command of the part ends in one: the spec gives every row an
effect and names no event that stops the part. -/
inductive Fault where
  /-- Raised by nobody; it stands so that the type has a name to show. Safe: a run never meets it. -/
  | neverRaised
deriving DecidableEq, Repr

/-- Why the model would refuse a command. -/
inductive Refusal where
  /-- A row without its meaning, by its mnemonic. Raised by nobody: every row has its meaning. Safe. -/
  | notModelled (mnemonic : String)
deriving DecidableEq, Repr

/-- The machine right after pin reset, with the straps ADDR0–ADDR3 and STD_SEL all low, no activity on any link
(log entry 7), the attached memory reading as black throughout (log entry 10) and no command waiting. -/
def State.reset : State where
  part := resetPart ⟨0, false⟩ (Four.all false) (pinResetStore [] [])
  pending := []

end Sys2Proof.Machine
end

