-- ==== Sys2Proof/Machine/Lenses.lean ====
section
/-! DEFINITION. Access to one record of the part: each operation below changes one block and no other. -/

namespace Sys2Proof.Machine

/-- The part with link receiver `n` changed. -/
def modLink (n : Ix) (f : LinkRx → LinkRx) (p : Part) : Part := { p with links := p.links.modify n f }

/-- The part with feed capture `n` changed. -/
def modFeed (n : Ix) (f : Feed → Feed) (p : Part) : Part := { p with feeds := p.feeds.modify n f }

/-- The part with lane `n` changed. -/
def modLane (n : Ix) (f : Lane → Lane) (p : Part) : Part := { p with lanes := p.lanes.modify n f }

/-- The part with output `n` changed. -/
def modOut (n : Ix) (f : OutUnit → OutUnit) (p : Part) : Part := { p with outs := p.outs.modify n f }

/-- The part with the picture store changed. -/
def modStore (f : Store → Store) (p : Part) : Part := { p with store := f p.store }

/-- The part with the management unit changed. -/
def modMgmt (f : Mgmt → Mgmt) (p : Part) : Part := { p with mgmt := f p.mgmt }

/-- The part with the fault unit changed. -/
def modFault (f : FaultUnit → FaultUnit) (p : Part) : Part := { p with fault := f p.fault }

/-- The part with one slot record changed: "The check is recomputed at every change of the record" (R42). -/
def modSlot (k : SlotIx) (f : SlotRec → SlotRec) (p : Part) : Part :=
  modStore (fun st => { st with slots := st.slots.set k.val { f st.slots[k.val] with intact := true } }) p

/-- The record of one slot. -/
def slotOf (p : Part) (k : SlotIx) : SlotRec := p.store.slots[k.val]

/-- A reference input. -/
def getRef (p : Part) (r : RefId) : RefInput :=
  match r with
  | .a => p.refA
  | .b => p.refB

/-- The part with a reference input replaced. -/
def setRef (r : RefId) (v : RefInput) (p : Part) : Part :=
  match r with
  | .a => { p with refA := v }
  | .b => { p with refB := v }

/-- The code with which link `n` is LOCKED, if it is. -/
def lockedCode (p : Part) (n : Ix) : Option Std :=
  match (p.links.get n).state with
  | .locked c => some c
  | _ => none

/-- The running states of a lane (R21). -/
def isRunning (s : LaneState) : Bool :=
  match s with
  | .acquiring => true
  | .converting => true
  | .holding => true
  | .slate => true
  | .stopped => false
  | .faulted => false

/-- The states in which a lane runs jobs (R61). -/
def runsJobs (s : LaneState) : Bool :=
  match s with
  | .acquiring => true
  | .converting => true
  | .holding => true
  | .stopped => false
  | .slate => false
  | .faulted => false

/-- A lane sources feed `n`. -/
def sources (p : Part) (n lane : Ix) : Bool := decide ((p.lanes.get lane).profile.source = n)

/-- The number of running lanes whose source feed is Fn (R124). -/
def runningCount (p : Part) (n : Ix) : Nat :=
  allIx.countP (fun m => sources p n m && isRunning (p.lanes.get m).state)

/-- Apply an operation once for each instance number, in ascending order. -/
def forEach (f : Ix → Part → Part) (p : Part) : Part := allIx.foldl (fun q n => f n q) p

/-- Apply an operation once for each item of a list, in order. -/
def forAll {α : Type} (xs : List α) (f : α → Part → Part) (p : Part) : Part := xs.foldl (fun q x => f x q) p

end Sys2Proof.Machine
end

