-- ==== Sys2Proof/Machine/Flags.lean ====
section
/-! DEFINITION. What the part keeps of what has gone wrong: saturating counters, the error logs (R180, R181), the
condition latches with their causes (R184, R185, Table 59) and the alarm line (R187). -/

namespace Sys2Proof.Machine

/-- A 32-bit counter that "saturates at its largest value" (R19, R40, R59, R83, R118, R138, R155, R178), raised
by `k`. -/
def bumpBy (k c : Nat) : Nat := if c + k < Config.counterMax then c + k else Config.counterMax

/-- A saturating counter raised by one. -/
def bump (c : Nat) : Nat := bumpBy 1 c

/-- A value raised by one, to at most `top`. -/
def saturate (top c : Nat) : Nat := if c < top then c + 1 else top

/-! ### Error logs -/

/-- Rank of a severity, in ascending order NOTE, DEGRADED, FATAL. -/
def severityRank (s : Severity) : Nat := severityWord s

/-- A report reaching a log (R181). -/
def logReport (code : ErrCode) (time : Nat) (detail : Detail) (log : Option LogRec) : Option LogRec :=
  match log with
  | none => some ⟨code, errSeverity code, time, detail, false, 0, false⟩
  | some r =>
    if severityRank r.severity < severityRank (errSeverity code) then
      some ⟨code, errSeverity code, time, detail, true, saturate 255 r.later, false⟩
    else some { r with overflow := true, later := saturate 255 r.later }

/-- A log (R180). -/
def getLog (l : LogId) (p : Part) : Option LogRec :=
  match l with
  | .fl n => p.fault.feedLogs.get n
  | .ll n => p.fault.laneLogs.get n
  | .dl => p.fault.deviceLog

/-- The part with a log changed. -/
def modLog (l : LogId) (f : Option LogRec → Option LogRec) (p : Part) : Part :=
  modFault
    (fun u => match l with
      | .fl n => { u with feedLogs := u.feedLogs.modify n f }
      | .ll n => { u with laneLogs := u.laneLogs.modify n f }
      | .dl => { u with deviceLog := f u.deviceLog }) p

/-- Report an error to a log, at the timebase value of the report (R180, R181). -/
def report (l : LogId) (code : ErrCode) (detail : Detail) (p : Part) : Part :=
  modLog l (logReport code p.timebase detail) p

/-! ### Condition latches -/

/-- Whether at least one set latch has its kind's mask bit set (R187). -/
def alarmValue (u : FaultUnit) : Bool := u.latches.any (fun c => u.mask.getLsbD (condKind c - 1))

/-- Re-evaluation of the ALARM pin (R187). -/
def alarmEval (p : Part) : Part := modFault (fun u => { u with alarm := alarmValue u }) p

/-- A pair added to the pending-notice set of each output whose paired input has listen on (R184); not added to
a set that already holds it. -/
def addNotices (c : Cond) (p : Part) : Part :=
  forEach
    (fun m q =>
      if (q.links.get m).settings.listen && !((q.outs.get m).notices.contains c) then
        modOut m (fun o => { o with notices := o.notices ++ [c] }) q
      else q) p

/-- Setting of a latch (R184). Set latches are kept in the order of R185. -/
def latchSet (c : Cond) (p : Part) : Part :=
  if p.fault.latches.contains c then p
  else
    p |> modFault (fun u => { u with latches := allConds.filter (fun d => d == c || u.latches.contains d) })
      |> addNotices c
      |> alarmEval

/-- Clearing of a latch (R185), without the re-evaluation of the alarm line. -/
def latchClear (c : Cond) (p : Part) : Part :=
  modFault (fun u => { u with latches := u.latches.filter (fun d => d != c) }) p

/-- Whether the cause of a condition is present (Table 59). -/
def causePresent (p : Part) (c : Cond) : Bool :=
  match c with
  | .linkLost n => (lockedCode p n).isNone
  | .slip _ => false
  | .inputLost n => isRunning (p.lanes.get n).state && !(p.lanes.get n).usable
  | .stdMismatch n =>
    isRunning (p.lanes.get n).state &&
      (match lockedCode p (p.lanes.get n).profile.source with
       | some code => code != (p.lanes.get n).profile.input
       | none => false)
  | .slate n => (p.lanes.get n).state == .slate
  | .faulted n => (p.lanes.get n).state == .faulted
  | .refLost n =>
    (match (p.outs.get n).lock with
     | .holdover _ => true
     | _ => false)
  | .poolDegraded => decide (16 ≤ p.store.quarantine)
  | .deviceFatal => p.fault.deviceFatal

/-! ### Counters by block -/

/-- Raise a link counter. -/
def bumpLink (n : Ix) (f : LinkCounters → LinkCounters) (p : Part) : Part :=
  modLink n (fun l => { l with ctr := f l.ctr }) p

/-- Raise a feed counter. -/
def bumpFeed (n : Ix) (f : FeedCounters → FeedCounters) (p : Part) : Part :=
  modFeed n (fun l => { l with ctr := f l.ctr }) p

/-- Raise a store counter. -/
def bumpStore (f : StoreCounters → StoreCounters) (p : Part) : Part :=
  modStore (fun l => { l with ctr := f l.ctr }) p

/-- Raise a job counter. -/
def bumpJob (n : Ix) (f : JobCounters → JobCounters) (p : Part) : Part :=
  modLane n (fun l => { l with jobCtr := f l.jobCtr }) p

/-- Raise a lane control counter. -/
def bumpLane (n : Ix) (f : LaneCounters → LaneCounters) (p : Part) : Part :=
  modLane n (fun l => { l with laneCtr := f l.laneCtr }) p

/-- Raise a carriage or timecode counter. -/
def bumpCarry (n : Ix) (f : CarryCounters → CarryCounters) (p : Part) : Part :=
  modLane n (fun l => { l with carryCtr := f l.carryCtr }) p

/-- Raise an output counter. -/
def bumpOut (n : Ix) (f : OutCounters → OutCounters) (p : Part) : Part :=
  modOut n (fun l => { l with ctr := f l.ctr }) p

/-- Raise a management counter. -/
def bumpMgmt (f : MgmtCounters → MgmtCounters) (p : Part) : Part :=
  modMgmt (fun l => { l with ctr := f l.ctr }) p

end Sys2Proof.Machine
end

