-- ==== Sys2Proof/Machine/StoreOps.lean ====
section
/-! DEFINITION. The picture store's own operations (chapter 3): each use of a slot record with its integrity
test (R58), grants and refusals (R48, R49), completion and returns (R50, R51), pins (R52, R53), read reports
(R54, R55), quarantine (R56) and initialisation (R46). -/

namespace Sys2Proof.Machine

/-- An integrity error (R58): the event is not applied to the record, a FATAL SLOT_RECORD goes to DL, and the
entry to device fatal is due at the end of the step. -/
def integrityError (k : SlotIx) (p : Part) : Part :=
  p |> report .dl .slotRecord (.slot k.val) |> modFault (fun u => { u with fatalDue := true })

/-- A slot joins the free list at its tail when it goes FREE, its owner cleared (R44, R50, R51, R53). -/
def slotToFree (k : SlotIx) (p : Part) : Part :=
  p |> modSlot k (fun r => { r with state := .free, owner := none })
    |> modStore (fun st => { st with freeList := st.freeList ++ [k] })

/-- POOL_DEGRADED latched and reported with the quarantine count as detail (R56). -/
def poolDegrade (p : Part) : Part :=
  p |> latchSet .poolDegraded |> report .dl .poolDegraded (.count p.store.quarantine)

/-- An entry into QUARANTINED (R56): "that takes the count from 15 to 16" latches and reports. -/
def slotToQuarantine (k : SlotIx) (p : Part) : Part :=
  let q := p |> modSlot k (fun r => { r with state := .quarantined, owner := none })
             |> modStore (fun st => { st with quarantine := st.quarantine + 1 })
             |> bumpStore (fun c => { c with quarantineEntries := bump c.quarantineEntries })
  if q.store.quarantine = 16 then poolDegrade q else q

/-- The number of slots a feed holds in FILLING, HISTORY and RETIRING together (R48). -/
def heldBy (p : Part) (n : Ix) : Nat :=
  p.store.slots.toList.countP (fun r =>
    decide (r.owner = some n) && (r.state == .filling || r.state == .history || r.state == .retiring))

/-- A slot request of feed `n` (R48, R49): the slot granted, or none. -/
def grant (n : Ix) (p : Part) : Part × Option SlotIx :=
  if Config.ceiling ≤ heldBy p n then
    (bumpStore (fun c => { c with refusedCeiling := bump c.refusedCeiling }) p, none)
  else
    match p.store.freeList with
    | [] => (bumpStore (fun c => { c with refusedEmpty := bump c.refusedEmpty }) p, none)
    | k :: rest =>
      let r := slotOf p k
      if r.intact && r.state == .free then
        (p |> modSlot k (fun r => { r with state := .filling, owner := some n, pins := 0, poisoned := false })
           |> modStore (fun st => { st with freeList := rest })
           |> bumpStore (fun c => { c with allocations := bump c.allocations }), some k)
      else (integrityError k p, none)

/-- A FILLING slot whose entry becomes complete goes HISTORY (R50). -/
def completeSlot (k : SlotIx) (p : Part) : Part :=
  let r := slotOf p k
  if r.intact && r.state == .filling then modSlot k (fun r => { r with state := .history }) p
  else integrityError k p

/-- A slot with no pin moves on: QUARANTINED where it is poisoned, FREE otherwise (R51, R53). -/
def releaseSlot (k : SlotIx) (p : Part) : Part :=
  if (slotOf p k).poisoned then slotToQuarantine k p else slotToFree k p

/-- A slot returned by feed `n` (R50, R51). A return for a slot that is not FILLING or HISTORY, or that another
feed owns, is an integrity error (R51). -/
def returnSlot (n : Ix) (k : SlotIx) (p : Part) : Part :=
  let r := slotOf p k
  if r.intact && decide (r.owner = some n) && (r.state == .filling || r.state == .history) then
    if 0 < r.pins then modSlot k (fun r => { r with state := .retiring }) p else releaseSlot k p
  else integrityError k p

/-- A pin of a slot by a lane whose source feed is `n` (R52): whether it was applied. -/
def pinSlot (n : Ix) (k : SlotIx) (p : Part) : Part × Bool :=
  let r := slotOf p k
  if r.intact && r.state == .history && !r.poisoned && decide (r.owner = some n) && decide (r.pins < 4) then
    (modSlot k (fun r => { r with pins := r.pins + 1 }) p, true)
  else (integrityError k p, false)

/-- An unpin of a slot (R53). -/
def unpinSlot (k : SlotIx) (p : Part) : Part :=
  let r := slotOf p k
  if r.intact && decide (0 < r.pins) then
    let q := modSlot k (fun r => { r with pins := r.pins - 1 }) p
    if r.pins = 1 && r.state == .retiring then releaseSlot k q else q
  else integrityError k p

/-- The feed log of a slot's owner feed takes a report about the slot (R54, R55). -/
def reportOwner (k : SlotIx) (code : ErrCode) (p : Part) : Part :=
  match (slotOf p k).owner with
  | some n => report (.fl n) code (.slot k.val) p
  | none => p

/-- The report of a read that needed correction (R54). -/
def correctedRead (k : SlotIx) (p : Part) : Part :=
  if (slotOf p k).intact then
    p |> modSlot k (fun r => { r with corrected := saturate 255 r.corrected })
      |> bumpStore (fun c => { c with correctedReads := bump c.correctedReads })
      |> reportOwner k .memoryCorrected
  else integrityError k p

/-- The report of a read that could not be corrected (R55). -/
def uncorrectableRead (k : SlotIx) (p : Part) : Part :=
  if (slotOf p k).intact then
    let q := bumpStore (fun c => { c with uncorrectableReads := bump c.uncorrectableReads }) p
    if (slotOf p k).poisoned then q
    else q |> modSlot k (fun r => { r with poisoned := true }) |> reportOwner k .memoryUncorrectable
  else integrityError k p

/-- The slot under initialisation, if the run is RUNNING (R46). -/
def initSlot (p : Part) : Option SlotIx :=
  if p.store.initRunning then
    if h : p.store.initNext < 64 then some ⟨p.store.initNext, h⟩ else none
  else none

/-- The next slot of the run advances, past QUARANTINED slots at once; at 64 the progress becomes DONE (R46). -/
def initAdvance (p : Part) : Part :=
  modStore
    (fun st =>
      let next := skipQuarantined st.slots 64 (st.initNext + 1)
      { st with initNext := next, initRunning := decide (next < 64), initDue := st.initDue + Config.initWriteTime }) p

/-- The end of the black write of one slot (R46). -/
def initEnd (k : SlotIx) (p : Part) : Part :=
  let q := modStore (fun st => { st with mem := memoryBlacken k st.mem, ecc := eccClear k st.ecc }) p
  let r := slotOf q k
  initAdvance
    (if r.intact then (if r.state = .uninitialized then slotToFree k q else q) else integrityError k q)

/-- The release of one slot from quarantine (R57). -/
def releaseQuarantined (k : SlotIx) (p : Part) : Part :=
  if (slotOf p k).state = .quarantined then
    if (slotOf p k).intact then
      p |> modSlot k (fun r => { r with poisoned := false, corrected := 0 })
        |> slotToFree k
        |> modStore (fun st => { st with quarantine := st.quarantine - 1 })
        |> bumpStore (fun c => { c with quarantineReleases := bump c.quarantineReleases })
    else integrityError k p
  else p

/-- The slot numbers in ascending order. -/
def allSlots : List SlotIx := List.finRange 64

end Sys2Proof.Machine
end

