-- ==== Sys2Proof/Machine/FeedOps.lean ====
section
/-! DEFINITION. Feed capture's own operations (chapter 2): capture state (R21, R22), stamping (R24 to R27), the
history (R28 to R32), picture start (R31), completion (R34, R35), abandonment (R36), flush (R37), the current
entry (R39) and label offers (R148). -/

namespace Sys2Proof.Machine

/-- The capture state re-evaluated (R21). -/
def recapture (n : Ix) (p : Part) : Part :=
  let on := (lockedCode p n).isSome && decide (0 < runningCount p n)
  modFeed n (fun f => { f with captureOn := on }) p

/-- The newest entry of a history (R39). -/
def newest (f : Feed) : Option Entry := f.history.getLast?

/-- The history with its newest entry changed. -/
def mapNewest (g : Entry → Entry) : List Entry → List Entry
  | [] => []
  | [e] => [g e]
  | e :: rest => e :: mapNewest g rest

/-- The part with the newest entry of feed `n` changed. -/
def modNewest (n : Ix) (g : Entry → Entry) (p : Part) : Part :=
  modFeed n (fun f => { f with history := mapNewest g f.history }) p

/-- The entry is a PICTURE with complete = no. -/
def isOpenPicture (e : Entry) : Bool :=
  match e.kind with
  | .picture _ _ => !e.complete
  | .hole _ => false

/-- A PICTURE entry turned into a hole: complete becomes yes; sequence, segment, stamp, parity and label are kept,
and so is the line-error count (R28, R34). -/
def toHole (reason : HoleReason) (e : Entry) : Entry := { e with kind := .hole reason, complete := true }

/-- The slot of an entry, if it holds one. -/
def entrySlot (e : Entry) : Option SlotIx :=
  match e.kind with
  | .picture k _ => some k
  | .hole _ => none

/-- An entry leaves: its slot, if it has one, is handed back to the store (R30, R51). -/
def returnEntry (n : Ix) (e : Entry) (p : Part) : Part :=
  match entrySlot e with
  | some k => returnSlot n k p
  | none => p

/-- Making room: if the history is full, the oldest entry leaves (R30). -/
def makeRoom (n : Ix) (p : Part) : Part :=
  match (p.feeds.get n).history with
  | [] => p
  | e :: rest =>
    if Config.historyMax ≤ (e :: rest).length then
      p |> modFeed n (fun f => { f with history := rest }) |> returnEntry n e
    else p

/-- An entry joins at the new end with the next sequence number (R29, R23). -/
def pushEntry (n : Ix) (e : Entry) (p : Part) : Part :=
  modFeed n (fun f => { f with history := f.history ++ [e], nextSeq := (f.nextSeq + 1) % 4294967296 }) p

/-- An incomplete newest PICTURE becomes an ABANDONED hole and its slot is returned (R36); `logged`: at a picture
start, which reports it (R31 step 1). -/
def abandonNewest (n : Ix) (logged : Bool) (p : Part) : Part :=
  match newest (p.feeds.get n) with
  | some e =>
    if isOpenPicture e then
      let q := p |> modNewest n (toHole .abandoned) |> returnEntry n e
                 |> bumpFeed n (fun c => { c with holesAbandoned := bump c.holesAbandoned })
      if logged then report (.fl n) .abandoned (.sequence e.seq) q else q
    else p
  | none => p

/-- The flush of a feed's history, oldest entry first (R37). -/
def flushFeed (n : Ix) (p : Part) : Part :=
  let gone := (p.feeds.get n).history
  p |> modFeed n (fun f => { f with history := [] })
    |> forAll gone (returnEntry n)
    |> modFeed n (fun f => { f with lastStamp := none, dPrev := 0, segment := (f.segment + 1) % 65536 })
    |> bumpFeed n (fun c => { c with flushes := bump c.flushes })

/-! ### Stamping -/

/-- The correction c of R25: trunc(d_prev / 16), clamped to ±floor(Pi/1024). -/
def correction (dPrev : Int) (period : Nat) : Int :=
  clampInt (-((period / 1024 : Nat) : Int)) ((period / 1024 : Nat) : Int) (dPrev.tdiv 16)

/-- The m of R26 for which |d − m × Pi| ≤ W, if any. -/
def slipIndex (d : Int) (period window : Nat) : Option Nat :=
  [0, 1, 2, 3].find? (fun m => decide ((d - ((m * period : Nat) : Int)).natAbs ≤ window))

/-- What the stamping of a picture start gives (R24 to R27). -/
inductive Stamping where
  /-- no last stamp: the picture anchors a segment at its arrival (R24) -/
  | anchor
  /-- within the slip window: m MISSED holes from the expected stamp on, and the deviation kept (R26) -/
  | absorbed (m : Nat) (expected deviation : Int)
  /-- no test passes: a re-anchor at the given stamp (R27) -/
  | reanchor (stamp : Int)
deriving DecidableEq, Repr

/-- The stamping of an arrival (R24 to R27). -/
def stampOf (last : Option Int) (dPrev : Int) (period wDiv : Nat) (a : Int) : Stamping :=
  match last with
  | none => .anchor
  | some prev =>
    let expected := prev + period + correction dPrev period
    let d := a - expected
    match slipIndex d period (period / wDiv) with
    | some m => .absorbed m expected (d - ((m * period : Nat) : Int))
    | none => .reanchor (if prev < a then a else prev + 1)

/-- One MISSED hole with its stamp (R26, R32); `interlaced`: the code is interlaced. -/
def appendMissed (n : Ix) (interlaced : Bool) (stamp : Int) (p : Part) : Part :=
  let f := (p.feeds.get n)
  let parity : Option Parity :=
    if interlaced then
      some (match (newest f).bind Entry.parity with
        | some q => oppositeParity q
        | none => .top)
    else none
  let e : Entry := ⟨f.nextSeq, f.segment, stamp, .hole .missed, parity, true, 0, none⟩
  p |> makeRoom n |> pushEntry n e
    |> report (.fl n) .missed (.sequence f.nextSeq)
    |> bumpFeed n (fun c => { c with holesMissed := bump c.holesMissed })

/-- The m MISSED holes in order: the i-th at n_e + i × Pi (R26, R31 step 3). -/
def appendHoles (n : Ix) (interlaced : Bool) (period : Nat) (expected : Int) : Nat → Part → Part
  | 0, p => p
  | m + 1, p => appendMissed n interlaced (expected + ((m * period : Nat) : Int)) (appendHoles n interlaced period expected m p)

/-- Steps 4 to 7 of a picture start: make room, ask for a slot, append the PICTURE or a NO_BUFFER hole, count
(R31, R32). -/
def appendPicture (n : Ix) (stamp a : Int) (parity : Option Parity) (p : Part) : Part :=
  let q := makeRoom n p
  let f := q.feeds.get n
  let (q, slot) := grant n q
  let q := match slot with
    | some k => pushEntry n ⟨f.nextSeq, f.segment, stamp, .picture k a, parity, false, 0, none⟩ q
    | none =>
      q |> pushEntry n ⟨f.nextSeq, f.segment, stamp, .hole .noBuffer, parity, true, 0, none⟩
        |> report (.fl n) .noBuffer (.sequence f.nextSeq)
        |> bumpFeed n (fun c => { c with holesNoBuffer := bump c.holesNoBuffer })
  bumpFeed n (fun c => { c with picturesStamped := bump c.picturesStamped }) q

/-- A picture start while capture is ON (R31), under the code with which the link is LOCKED. -/
def pictureStart (n : Ix) (code : Std) (a : Int) (parity : Parity) (p : Part) : Part :=
  let row := stdRow code
  let parity : Option Parity := if row.interlaced then some parity else none
  let p := abandonNewest n true p
  let f := p.feeds.get n
  match stampOf f.lastStamp f.dPrev row.period (p.links.get n).settings.wDiv a with
  | .anchor =>
    p |> modFeed n (fun f => { f with lastStamp := some a, dPrev := 0 })
      |> appendPicture n a a parity
  | .absorbed m expected deviation =>
    let stamp := expected + ((m * row.period : Nat) : Int)
    p |> modFeed n (fun f => { f with lastStamp := some stamp, dPrev := deviation })
      |> appendHoles n row.interlaced row.period expected m
      |> appendPicture n stamp a parity
  | .reanchor stamp =>
    p |> modFeed n (fun f => { f with segment := (f.segment + 1) % 65536, lastStamp := some stamp, dPrev := 0 })
      |> latchSet (.slip n)
      |> report (.fl n) .reanchor (.sequence f.nextSeq)
      |> bumpFeed n (fun c => { c with reanchors := bump c.reanchors })
      |> appendPicture n stamp a parity

/-- A picture start handed on by the receiver (R12): ignored while capture is OFF (R22). -/
def handPicture (n : Ix) (code : Std) (a : Int) (parity : Parity) (p : Part) : Part :=
  if (p.feeds.get n).captureOn then pictureStart n code a parity p else p

/-! ### Completion -/

/-- A completion that finds an incomplete PICTURE as the newest entry, under the feed's policy (R34). -/
def completePicture (n : Ix) (k : SlotIx) (seq errors : Nat) (p : Part) : Part :=
  let s := (p.links.get n).settings
  if s.policy = .contain ∧ s.threshold ≤ errors then
    p |> modNewest n (fun e => { toHole .discarded e with lineErrors := errors })
      |> returnSlot n k
      |> report (.fl n) .discarded (.sequence seq)
      |> bumpFeed n (fun c => { c with holesDiscarded := bump c.holesDiscarded })
  else
    let q := p |> modNewest n (fun e => { e with complete := true, lineErrors := errors }) |> completeSlot k
    let q := if 0 < errors then report (.fl n) .lineErrors (.sequence seq) q else q
    bumpFeed n (fun c => { c with picturesCompleted := bump c.picturesCompleted }) q

/-- A picture completion handed on by the receiver (R13, R34, R35). -/
def handCompletion (n : Ix) (errors : Nat) (p : Part) : Part :=
  let f := p.feeds.get n
  if f.captureOn then
    match newest f with
    | some e =>
      match e.kind with
      | .picture k _ => if e.complete then p else completePicture n k e.seq errors p
      | .hole .noBuffer => modNewest n (fun e => { e with lineErrors := errors }) p
      | .hole _ => p
    | none => p
  else p

/-- The active samples of one line of the picture now being captured go into its slot (R33, R47). -/
def captureLine (n : Ix) (line : Nat) (samples : List LinkSample) (p : Part) : Part :=
  let f := p.feeds.get n
  match f.captureOn, newest f, lockedCode p n with
  | true, some e, some code =>
    match e.kind with
    | .picture k _ =>
      if !e.complete && decide (line < linesPerPicture code) then
        modStore
          (fun st =>
            let r := writeLine k line (stdRow code).width samples (st.mem, st.ecc)
            { st with mem := r.1, ecc := r.2 }) p
      else p
    | .hole _ => p
  | _, _, _ => p

/-! ### The ancillary path's view of the feed -/

/-- The current entry of Fn for the ancillary path (R39). -/
def currentEntry (p : Part) (n : Ix) : Option Entry :=
  let f := p.feeds.get n
  if f.captureOn then newest f else none

/-- A label offer judged against the code with which the link is LOCKED (R148). -/
def labelOffer (n : Ix) (code : Std) (seq : Nat) (ws : List Byte) (p : Part) : Part :=
  match parseLabel code ws with
  | some l => modNewest n (fun e => { e with label := some l }) p
  | none =>
    forEach
      (fun m q =>
        if sources q n m && isRunning (q.lanes.get m).state then
          q |> report (.ll m) .invalidLabel (.sequence seq)
            |> bumpCarry m (fun c => { c with labelsInvalid := bump c.labelsInvalid })
        else q) p

end Sys2Proof.Machine
end

