-- ==== Sys2Proof/Machine/Replies.lean ====
section
/-! DEFINITION. Reply places and pending operations (R170, R172, R174): reservations, the posting of replies, and
the DONE that ends a time-taking operation. -/

namespace Sys2Proof.Machine

/-- The status words of DONE (Table 50). -/
inductive DoneStatus where
  | complete
  | timeout
  | halted
  | faulted
deriving DecidableEq, Repr

/-- DONE status as a word (Table 50). -/
def doneWord (s : DoneStatus) : Byte :=
  match s with
  | .complete => 0
  | .timeout => 1
  | .halted => 2
  | .faulted => 3

/-- The status words of REFUSED (Table 50). -/
inductive Refused where
  | badCode
  | badTarget
  | badLength
  | badValue
  | wrongState
  | busy
  | stale
  | crcMismatch
  | tableInvalid
  | nothingPending
deriving DecidableEq, Repr

/-- REFUSED status as a word (Table 50). -/
def refusedWord (s : Refused) : Byte :=
  match s with
  | .badCode => 1
  | .badTarget => 2
  | .badLength => 3
  | .badValue => 4
  | .wrongState => 5
  | .busy => 6
  | .stale => 7
  | .crcMismatch => 8
  | .tableInvalid => 9
  | .nothingPending => 10

/-- Reply kind as a word (Table 49). -/
def replyKindWord (k : ReplyKind) : Byte :=
  match k with
  | .accepted => 1
  | .done => 2
  | .refused => 3

/-- Room of a reply queue: "16 less the blocks held, less the places reserved" (R169). -/
def room (p : Part) (n : Ix) : Nat :=
  Config.replyMax - (p.outs.get n).replies.length - (p.outs.get n).reserved

/-- Reserve places in the reply queue of OUTn (R170). -/
def reservePlaces (n : Ix) (k : Nat) (p : Part) : Part :=
  modOut n (fun o => { o with reserved := o.reserved + k }) p

/-- Release one reserved place unused (R170). -/
def unreserve (n : Ix) (p : Part) : Part :=
  modOut n (fun o => { o with reserved := o.reserved - 1 }) p

/-- A reply posted into a reserved place joins the tail of the reply queue and consumes the reservation (R170). -/
def postReply (n : Ix) (r : Reply) (p : Part) : Part :=
  modOut n (fun o => { o with replies := o.replies ++ [r], reserved := o.reserved - 1 }) p

/-- The DONE of a pending operation: "its tag, code and restart flag, the status of the ending event, and the OUTn
queue whose reservation it consumes" (R174). -/
def postDone (q : PendingOp) (s : DoneStatus) (p : Part) : Part :=
  postReply q.origin ⟨q.tag, q.code, .done, doneWord s, q.restart, []⟩ p

/-- The end of the operation pending on a lane, if there is one: the DONE is posted and the record emptied
(R174). -/
def endLaneOp (n : Ix) (s : DoneStatus) (p : Part) : Part :=
  match p.mgmt.laneOps.get n with
  | some q => p |> modMgmt (fun m => { m with laneOps := m.laneOps.set n none }) |> postDone q s
  | none => p

/-- The end of the operation pending on an output, if there is one (R174). -/
def endOutOp (n : Ix) (s : DoneStatus) (p : Part) : Part :=
  match p.mgmt.outOps.get n with
  | some q => p |> modMgmt (fun m => { m with outOps := m.outOps.set n none }) |> postDone q s
  | none => p

/-- The kind of operation pending on a lane. -/
def laneOpKind (p : Part) (n : Ix) : Option PendingKind := (p.mgmt.laneOps.get n).map PendingOp.op

/-- The end of a pending RELOCK: the flag is cleared and its DONE posted (R113). -/
def endRelock (n : Ix) (s : DoneStatus) (p : Part) : Part :=
  p |> modOut n (fun o => { o with relockPending := false }) |> endOutOp n s

end Sys2Proof.Machine
end

