-- ==== Sys2Proof/Machine/LaneOps.lean ====
section
/-! DEFINITION. The lane's own transitions (chapter 7) with what they carry along: the swap and the end of a
COMMIT (R163, R164), the carry-queue flush (R146), the abandonment of a job (R82), entries to HOLDING, SLATE,
STOPPED and FAULTED (R129 to R135), and device fatal (R135, R189). -/

namespace Sys2Proof.Machine

/-! ### Tables -/

/-- The banks of one table of a lane. -/
def getTable (t : Table) (ts : Tables) : TableBanks :=
  match t with
  | .tt => ts.tt
  | .hc => ts.hc
  | .vc => ts.vc

/-- The tables of a lane with the banks of one table changed. -/
def modTable (t : Table) (f : TableBanks → TableBanks) (ts : Tables) : Tables :=
  match t with
  | .tt => { ts with tt := f ts.tt }
  | .hc => { ts with hc := f ts.hc }
  | .vc => { ts with vc := f ts.vc }

/-- The swap of one table: both banks take the shadow contents with fresh parity, and the active CRC becomes the
one the COMMIT carried (R163). -/
def swapTable (crc : Option (BitVec 16)) (b : TableBanks) : TableBanks :=
  match crc with
  | some c =>
    let rows := b.shadow.map (fun r => { r with parityOk := true })
    ⟨rows, rows, c⟩
  | none => b

/-- The tables after the swap of a commit record (R163). -/
def swapTables (c : CommitRec) (ts : Tables) : Tables :=
  ⟨swapTable c.tt ts.tt, swapTable c.hc ts.hc, swapTable c.vc ts.vc⟩

/-- The rows that jobs read (R77, R94). -/
def activeRows (ts : Tables) : ActiveRows := ⟨ts.tt.active, ts.hc.active, ts.vc.active⟩

/-- The job record of a lane as a swap leaves it: a job in flight keeps the rows it started with (R77, R163). -/
def keepRows (l : Lane) : JobRec :=
  if l.job.inFlight && l.job.kept.isNone then { l.job with kept := some (activeRows l.tables) } else l.job

/-- The swap of a pending COMMIT, which ends it with DONE COMPLETE (R163); nothing where none is pending. -/
def commitSwap (n : Ix) (p : Part) : Part :=
  match (p.lanes.get n).commit with
  | some c =>
    p |> modLane n (fun l => { l with tables := swapTables c l.tables, commit := none, job := keepRows l })
      |> endLaneOp n .complete
  | none => p

/-! ### Carry queue, jobs, timecode -/

/-- The flush of a carry queue (R146). -/
def flushCarry (n : Ix) (p : Part) : Part :=
  p |> bumpCarry n (fun c => { c with itemsFlushed := bumpBy (p.lanes.get n).carry.length c.itemsFlushed })
    |> modLane n (fun l => { l with carry := [] })

/-- The lane unpins every slot it pinned at its job's start, in the order the pins were taken (R53, R71). -/
def unpinJob (n : Ix) (p : Part) : Part :=
  let held := (p.lanes.get n).job.pinned
  p |> modLane n (fun l => { l with job := { l.job with pinned := [] } }) |> forAll held unpinSlot

/-- A job record with its job no longer in flight (R81, R82). -/
def closeJob (j : JobRec) : JobRec := { j with inFlight := false, kept := none }

/-- The abandonment of the job in flight, if any (R82): slots unpinned, "in flight" becomes no, counted. The rest of
the output picture is slate, since no job of it is in flight (R79). -/
def abandonJob (n : Ix) (p : Part) : Part :=
  if (p.lanes.get n).job.inFlight then
    p |> unpinJob n
      |> modLane n (fun l => { l with job := closeJob l.job })
      |> bumpJob n (fun c => { c with jobsAbandoned := bump c.jobsAbandoned })
  else p

/-- The timecode counter set to 0, with the fresh flag (R151). -/
def resetTimecode (n : Ix) (p : Part) : Part := modLane n (fun l => { l with tcCount := 0, fresh := true }) p

/-! ### Entering and leaving the running states -/

/-- A lane leaves the running states for `s` and reports it to its source feed's capture (R124): where no lane stays
running on the feed, the history is flushed (R22, R37); capture is re-evaluated (R21). -/
def leaveRunning (n : Ix) (s : LaneState) (p : Part) : Part :=
  let f := (p.lanes.get n).profile.source
  let q := modLane n (fun l => { l with state := s }) p
  let q := if runningCount q f = 0 then flushFeed f q else q
  recapture f q

/-- Entry to SLATE (R130, R163). -/
def enterSlate (n : Ix) (p : Part) : Part :=
  p |> modLane n (fun l => { l with state := .slate })
    |> latchSet (.slate n)
    |> bumpLane n (fun c => { c with slateEntries := bump c.slateEntries })
    |> commitSwap n

/-- Entry to HOLDING (R129); a hold limit of 0 takes the lane on to SLATE in the same event (R130). -/
def enterHolding (n : Ix) (p : Part) : Part :=
  let q := p |> modLane n (fun l => { l with state := .holding, holdCount := 0 })
             |> latchSet (.inputLost n)
             |> bumpLane n (fun c => { c with holdEntries := bump c.holdEntries })
  if (q.lanes.get n).profile.holdLimit = 0 then enterSlate n q else q

/-- The lane acts on its input becoming not usable (R129). -/
def inputLoss (n : Ix) (p : Part) : Part :=
  match (p.lanes.get n).state with
  | .acquiring => enterHolding n p
  | .converting => enterHolding n p
  | .holding => p
  | .slate => p
  | .stopped => p
  | .faulted => p

/-- The lane acts on its input becoming usable (R131). The hold count stands: R121 gives it the length of the current
stay in HOLDING and R130 keeps it through SLATE, but R131 does not say whether a return to ACQUIRING sets it to 0
(DESIGN CHOICE, log entry 45). -/
def inputReturn (n : Ix) (p : Part) : Part :=
  match (p.lanes.get n).state with
  | .holding => modLane n (fun l => { l with state := .acquiring }) p
  | .slate => modLane n (fun l => { l with state := .acquiring }) p
  | .acquiring => p
  | .converting => p
  | .stopped => p
  | .faulted => p

/-- Whether a lane's input is usable (R122). -/
def inputUsable (p : Part) (n : Ix) : Bool :=
  let l := p.lanes.get n
  decide (lockedCode p l.profile.source = some l.profile.input)

/-- Re-evaluation of a lane's input usable indication; a lane in a running state acts on a change in the same event
(R122). -/
def evalUsable (n : Ix) (p : Part) : Part :=
  let was := (p.lanes.get n).usable
  let now := inputUsable p n
  let q := modLane n (fun l => { l with usable := now }) p
  if was && !now then inputLoss n q else if !was && now then inputReturn n q else q

/-- A running lane whose source is LOCKED with a code that differs from its input standard latches STD_MISMATCH
(R123). -/
def checkMismatch (n : Ix) (p : Part) : Part :=
  if causePresent p (.stdMismatch n) then latchSet (.stdMismatch n) p else p

/-- Steps 1, 2 and 3 of a fault or a stop up to the lane's own clearing: the job abandoned, the carry queue flushed
(R132, R134). -/
def clearLane (n : Ix) (p : Part) : Part := p |> abandonJob n |> flushCarry n

/-- The commit record and the acquire timer cleared with the operation they belong to. -/
def clearPending (n : Ix) (p : Part) : Part :=
  modLane n (fun l => { l with commit := none, acquireAt := none }) p

/-- A lane in a running state goes FAULTED: steps 1 to 7 of R134. -/
def laneFatal (n : Ix) (p : Part) : Part :=
  p |> clearLane n
    |> endLaneOp n .faulted
    |> clearPending n
    |> modLane n (fun l => { l with holdCount := 0 })
    |> leaveRunning n .faulted
    |> latchSet (.faulted n)
    |> bumpLane n (fun c => { c with faults := bump c.faults })

/-- What device fatal does to one lane (R135). -/
def deviceFatalLane (n : Ix) (p : Part) : Part :=
  match (p.lanes.get n).state with
  | .faulted => p
  | .stopped =>
    p |> modLane n (fun l => { l with state := .faulted })
      |> latchSet (.faulted n)
      |> bumpLane n (fun c => { c with faults := bump c.faults })
  | .acquiring => laneFatal n p
  | .converting => laneFatal n p
  | .holding => laneFatal n p
  | .slate => laneFatal n p

/-- Entry to device fatal (R58, R135, R189). -/
def enterDeviceFatal (p : Part) : Part :=
  p |> modFault (fun u => { u with deviceFatal := true })
    |> latchSet .deviceFatal
    |> forEach deviceFatalLane

/-- The end of every step: an integrity error found in it has its effects "in that same event", after the step's own
remaining effects (R58). Errors found in device fatal do not enter it again (R189). -/
def settle (p : Part) : Part :=
  if p.fault.fatalDue then
    let q := if p.fault.deviceFatal then p else enterDeviceFatal p
    modFault (fun u => { u with fatalDue := false }) q
  else p

end Sys2Proof.Machine
end

