-- ==== Sys2Proof/Machine/Jobs.lean ====
section
/-! DEFINITION. The job start of a lane (R61 to R74, R83, R128, R130) with the delivery of carried packets (R145,
R146) and the timecode of the picture (R151, R152, R153), and the job end (R81). -/

namespace Sys2Proof.Machine

/-! ### Snapshot and bracket search -/

/-- The snapshot of a job (R64): empty unless the source feed's last identified code is the lane's input standard. -/
def snapshot (p : Part) (n : Ix) : List Entry :=
  let pr := (p.lanes.get n).profile
  if (p.links.get pr.source).lastCode = some pr.input then (p.feeds.get pr.source).history else []

/-- Whether an entry of the snapshot is usable (R64). -/
def usableEntry (p : Part) (e : Entry) : Bool :=
  e.complete &&
    (match e.kind with
     | .picture k _ => !(slotOf p k).poisoned
     | .hole _ => true)

/-- What the bracket search finds: the case, the anchor, the phase, and U, the usable list of the anchor's segment. -/
structure Found where
  kase : JobCase
  anchor : Option Entry
  phase : Option Nat
  list : List Entry
deriving DecidableEq, Repr

/-- The adjacent members e_k, e_{k+1} with n_k ≤ t < n_{k+1} (R67). -/
def bracketPair (t : Int) : List Entry → Option (Entry × Entry)
  | a :: b :: rest => if a.stamp ≤ t ∧ t < b.stamp then some (a, b) else bracketPair t (b :: rest)
  | _ => none

/-- The phase in case BRACKET (R69). -/
def bracketPhase (t nk nk1 : Int) : Nat := ((64 * (t - nk)) / (nk1 - nk)).toNat

/-- The bracket search over a snapshot and its usable entries, both oldest first (R65 to R69). -/
def bracketSearch (snap usable : List Entry) (t : Int) : Found :=
  match snap.getLast?, usable with
  | none, _ => ⟨.slate, none, none, []⟩
  | some _, [] => ⟨.slate, none, none, []⟩
  | some last, u :: us =>
    let current := (u :: us).filter (fun e => e.segment == last.segment)
    let older := (u :: us).filter (fun e => e.segment != last.segment)
    let third : Found :=
      match older.getLast? with
      | some e => ⟨.frozen, some e, some 0, (u :: us).filter (fun x => x.segment == e.segment)⟩
      | none => ⟨.lateClamp, current.head?, some 0, current⟩
    match current.head? with
    | none => third
    | some oldest =>
      if oldest.stamp ≤ t then
        match bracketPair t current with
        | some (a, b) => ⟨.bracket, some a, some (bracketPhase t a.stamp b.stamp), current⟩
        | none => ⟨.earlyClamp, current.getLast?, some 0, current⟩
      else third

/-! ### Taps -/

/-- The entry is a PICTURE. -/
def isPicture (e : Entry) : Bool := (entrySlot e).isSome

/-- A tap over an entry: PRESENT when it holds an entry and that entry is a PICTURE (R70). -/
def tapOf (e : Option Entry) : Tap :=
  ⟨e, if e.any isPicture then .present else .absent, none⟩

/-- The taps T−1, T0, T1, T2 drawn from U around the anchor (R70). -/
def tapsOf (list : List Entry) (anchor : Entry) : Tap × Tap × Tap × Tap :=
  let i := list.findIdx (fun e => e.seq == anchor.seq)
  (tapOf (if i = 0 then none else list[i - 1]?), tapOf (some anchor), tapOf list[i + 1]?, tapOf list[i + 2]?)

/-- A tap is PRESENT. -/
def Tap.isPresent (t : Tap) : Bool := t.state == .present

/-- The fallback: "the newest usable PICTURE of the snapshot that lies before T0 in history order, in any segment"
(R73). -/
def fallbackOf (p : Part) (snap : List Entry) (anchor : Entry) : Option Entry :=
  ((snap.takeWhile (fun e => e.seq != anchor.seq)).filter (fun e => usableEntry p e && isPicture e)).getLast?

/-- Motion is valid for the job when both compared taps are PRESENT and, for an interlaced input, carry the same
parity (R74). -/
def motionAtStart (input : Std) (tm1 t0 t1 : Tap) : Bool :=
  if (stdRow input).interlaced then
    tm1.isPresent && t1.isPresent && decide (tm1.entry.bind Entry.parity = t1.entry.bind Entry.parity)
  else t0.isPresent && t1.isPresent

/-- The job record that a job start sets (R62 to R74), its pins not yet taken. -/
def jobAtStart (p : Part) (n : Ix) (instant : Int) (parity : Option Parity) : JobRec :=
  let pr := (p.lanes.get n).profile
  let t := instant - pr.latency
  let snap := snapshot p n
  let found := bracketSearch snap (snap.filter (usableEntry p)) t
  let taps := match found.anchor with
    | some a => tapsOf found.list a
    | none => (emptyTap, emptyTap, emptyTap, emptyTap)
  let tm1 := taps.1
  let t0 := taps.2.1
  let t1 := taps.2.2.1
  let t2 := taps.2.2.2
  let anyPresent := tm1.isPresent || t0.isPresent || t1.isPresent || t2.isPresent
  let fb := match found.anchor with
    | some a => if anyPresent then none else fallbackOf p snap a
    | none => none
  { inFlight := true
    kase := found.kase
    boundary := some instant
    target := some t
    picStd := some pr.output
    picParity := parity
    phase := found.phase
    tm1 := tm1
    t0 := t0
    t1 := t1
    t2 := t2
    fallback := fb.map (fun e => ⟨e, none⟩)
    motionValid := motionAtStart pr.input tm1 t0 t1
    motionLostFrom := none
    pinned := []
    blocks := []
    kept := none }

/-- The slots a job pins, in order: each PRESENT tap T−1, T0, T1, T2, then the fallback (R71). -/
def slotsToPin (j : JobRec) : List SlotIx :=
  ([j.tm1, j.t0, j.t1, j.t2].filter Tap.isPresent).filterMap (fun t => t.entry.bind entrySlot)
    ++ (j.fallback.bind (fun f => entrySlot f.entry)).toList

/-- Take the pins of a job in order; a pin that was not applied counts as not taken (R52, R58). -/
def pinAll (n source : Ix) : List SlotIx → Part → Part
  | [], p => p
  | k :: rest, p =>
    let r := pinSlot source k p
    let q := if r.2 then modLane n (fun l => { l with job := { l.job with pinned := l.job.pinned ++ [k] } }) r.1
             else r.1
    pinAll n source rest q

/-- The job emits slate for its whole picture: case SLATE, or no tap PRESENT and no fallback (R66, R73). -/
def jobIsSlate (j : JobRec) : Bool :=
  !(j.tm1.isPresent || j.t0.isPresent || j.t1.isPresent || j.t2.isPresent) && j.fallback.isNone

/-- At least one tap is ABSENT at job start. -/
def jobSubstitutes (j : JobRec) : Bool :=
  !(j.tm1.isPresent && j.t0.isPresent && j.t1.isPresent && j.t2.isPresent)

/-- Whether a case is case 2 of the search (R67). -/
def isCaseTwo (c : JobCase) : Bool := c == .bracket || c == .earlyClamp

/-- The job counters raised at a job start, for the lane state in which it starts (R83). R67 and R129 say that an
EARLY_CLAMP job started outside CONVERTING is counted "in JOBS_STARTED only", beside the case counters; SUBSTITUTED_JOBS
and FALLBACK_JOBS, which R83 and Table 24 give to every job start with an absent tap or a fallback, count it here too
(DEDUCED, log entry 40). -/
def countJob (s : LaneState) (j : JobRec) (c : JobCounters) : JobCounters :=
  { c with
    jobsStarted := bump c.jobsStarted
    bracketJobs := if j.kase = .bracket then bump c.bracketJobs else c.bracketJobs
    earlyClamps := if j.kase = .earlyClamp ∧ s = .converting then bump c.earlyClamps else c.earlyClamps
    lateClamps := if j.kase = .lateClamp then bump c.lateClamps else c.lateClamps
    frozenJobs := if j.kase = .frozen then bump c.frozenJobs else c.frozenJobs
    slateJobs := if jobIsSlate j then bump c.slateJobs else c.slateJobs
    substitutedJobs := if !jobIsSlate j && jobSubstitutes j then bump c.substitutedJobs else c.substitutedJobs
    fallbackJobs := if j.fallback.isSome then bump c.fallbackJobs else c.fallbackJobs }

/-! ### What a job start does to the lane's state -/

/-- An ACQUIRING lane's case-2 job takes it to CONVERTING, ending a pending START (R128). -/
def acquire (n : Ix) (p : Part) : Part :=
  let q := p |> modLane n (fun l => { l with state := .converting })
             |> bumpLane n (fun c => { c with acquisitions := bump c.acquisitions })
  if laneOpKind q n = some .start then
    q |> endLaneOp n .complete |> modLane n (fun l => { l with acquireAt := none })
  else q

/-- A job started in HOLDING counts toward the hold count, and at the hold limit takes the lane to SLATE (R130). -/
def holdJob (n : Ix) (p : Part) : Part :=
  let q := p |> modLane n (fun l => { l with holdCount := l.holdCount + 1 })
             |> bumpLane n (fun c => { c with heldJobs := bump c.heldJobs })
  if (q.lanes.get n).holdCount = (q.lanes.get n).profile.holdLimit then enterSlate n q else q

/-- The change of lane state that belongs to a job start (R128, R130). -/
def jobStateChange (n : Ix) (p : Part) : Part :=
  match (p.lanes.get n).state with
  | .acquiring => if isCaseTwo (p.lanes.get n).job.kase then acquire n p else p
  | .holding => holdJob n p
  | .converting => p
  | .slate => p
  | .stopped => p
  | .faulted => p

/-! ### Carried packets and timecode -/

/-- The items a job start takes from the head of the queue: stamps at or before the target, at most 7 (R145). -/
def dueItems (t : Int) (items : List CarryItem) : List CarryItem :=
  (items.takeWhile (fun i => decide (i.stamp ≤ t))).take Config.deliverMax

/-- The delivery of carried packets at a job start (R145). A parity failure of an item read makes the lane FATAL, and
nothing is handed on (R146): then the answer is none. The items read are those taken; the item whose stamp ends the
taking is compared and not tested (DESIGN CHOICE, log entry 41). -/
def deliver (n : Ix) (t : Int) (p : Part) : Part × Option (List Packet) :=
  let taken := dueItems t (p.lanes.get n).carry
  match taken.find? (fun i => !i.parityOk) with
  | some bad =>
    let detail := match bad.source with
      | some q => Detail.sequence q
      | none => Detail.none
    (p |> report (.ll n) .carryParity detail |> laneFatal n, none)
  | none =>
    (p |> modLane n (fun l => { l with carry := l.carry.drop taken.length })
       |> bumpCarry n (fun c => { c with packetsDelivered := bumpBy taken.length c.packetsDelivered }),
     some (taken.map CarryItem.packet))

/-- The job's label position q_out (R151). -/
def labelPosition (output : Std) (parity : Option Parity) (j : Nat) : Nat :=
  let r := stdRow output
  if r.interlaced then (parity.map parityNumber).getD 0
  else if r.perLabel = 2 then j % 2 else 0

/-- F_out of R153: the output count that the target names on the input's labelled timeline. -/
def followCount (input output : Std) (l : Label) (t nk : Int) : Nat :=
  let r := stdRow input
  let fIn := labelToCount r.rate l
  let pos : Int := (fIn * labelPeriod input : Nat) + ((if l.second then r.period else 0 : Nat) : Int) + (t - nk)
  ((pos / (labelPeriod output : Int)) % (labelsPerDay (stdRow output).rate : Int)).toNat

/-- Circular distance of two counts in a day (R153). -/
def circularDistance (a b day : Nat) : Nat :=
  min ((a + day - b % day) % day) ((b + day - a % day) % day)

/-- C and the fresh flag after the advance of R152 step 1. -/
def tcAdvance (day c : Nat) (fresh : Bool) (q : Nat) : Nat × Bool :=
  if q = 0 then (if fresh then (c, false) else ((c + 1) % day, false)) else (c, fresh)

/-- The re-seed of R153: the count that C becomes, if it is re-seeded. -/
def tcReseed (l : Lane) (c : Nat) : Option Nat :=
  match l.job.t0.entry, l.job.target with
  | some e, some t =>
    match e.label with
    | some lab =>
      let day := labelsPerDay (stdRow l.profile.output).rate
      let f := followCount l.profile.input l.profile.output lab t e.stamp
      if 1 < circularDistance c f day then some f else none
    | none => none
  | _, _ => none

/-- The timecode of a job start (R152): the packet handed to OUTn, if the mode is not OFF. `j` is the job's number. -/
def timecode (n : Ix) (j : Nat) (p : Part) : Part × Option Packet :=
  let l := p.lanes.get n
  if l.profile.tcMode = .off then (p, none)
  else
    let row := stdRow l.profile.output
    let q := labelPosition l.profile.output l.job.picParity j
    let (c1, fresh) := tcAdvance (labelsPerDay row.rate) l.tcCount l.fresh q
    let seed := if l.profile.tcMode = .follow ∧ q = 0 then tcReseed l c1 else none
    let c2 := seed.getD c1
    let label := { countToLabel row.rate c2 with second := decide (q = 1) }
    let s := (p.links.get l.profile.source).settings
    (p |> modLane n (fun l => { l with tcCount := c2, fresh := fresh, lastLabel := some label })
       |> bumpCarry n (fun c =>
            { c with
              tcEmitted := bump c.tcEmitted
              tcReseeds := if seed.isSome then bump c.tcReseeds else c.tcReseeds }),
     some ⟨s.tcKind, s.tcSubkind, labelWords label⟩)

/-! ### Job start and job end -/

/-- What a lane hands its output for one picture (R116): its timecode packet and its carried packets. -/
structure Handover where
  timecode : Option Packet
  carried : List Packet
deriving DecidableEq, Repr

/-- A job start at a boundary of OUTn (R61 to R74, R145, R152, R163), in the order the rules give: the swap of a
pending COMMIT, the snapshot with taps and pins, the counters, the change of lane state, the carried packets, the
timecode. -/
def startJob (n : Ix) (instant : Int) (parity : Option Parity) (p : Part) : Part × Handover :=
  let p := commitSwap n p
  let job := jobAtStart p n instant parity
  let l := p.lanes.get n
  let j := l.jobNumber
  let p := p |> modLane n (fun l => { l with job := job, jobNumber := l.jobNumber + 1 })
             |> pinAll n l.profile.source (slotsToPin job)
             |> bumpJob n (countJob l.state job)
             |> jobStateChange n
  match deliver n (instant - l.profile.latency) p with
  | (p, none) => (p, ⟨none, []⟩)
  | (p, some carried) =>
    let r := timecode n j p
    (r.1, ⟨r.2, carried⟩)

/-- A boundary reaches lane Ln (R61): a job starts in a job-running state; otherwise nothing is handed on (R145). -/
def laneBoundary (n : Ix) (instant : Int) (parity : Option Parity) (p : Part) : Part × Handover :=
  if runsJobs (p.lanes.get n).state then startJob n instant parity p else (p, ⟨none, []⟩)

/-- The end of the job in flight, if any (R81). -/
def endJob (n : Ix) (p : Part) : Part :=
  if (p.lanes.get n).job.inFlight then
    p |> modLane n (fun l => { l with job := closeJob l.job }) |> unpinJob n
  else p

end Sys2Proof.Machine
end

