-- ==== Sys2Proof/Machine/Lines.lean ====
section
/-! DEFINITION. The computation of one output line: substitution (R72), motion classification (R74 to R76), the
blend (R77, R78), slate and black (R79), the spatial value and the reads it makes (R86 to R100), and what a failed
read or a failed row does to the job (R80, R165). -/

namespace Sys2Proof.Machine

/-! ### Weights -/

/-- The four weights of a TT row, one per tap (R157). -/
structure Weights where
  wm1 : Int
  w0 : Int
  w1 : Int
  w2 : Int
deriving DecidableEq, Repr

/-- Which taps are PRESENT. -/
structure Presence where
  pm1 : Bool
  p0 : Bool
  p1 : Bool
  p2 : Bool
deriving DecidableEq, Repr

/-- At least one tap is PRESENT. -/
def Presence.some (p : Presence) : Bool := p.pm1 || p.p0 || p.p1 || p.p2

/-- The weight of an absent T0 goes "to T1 if present, else T−1, else T2" (Table 23). -/
def substituteT0 (p : Presence) (w : Weights) : Weights :=
  if p.p0 then w
  else if p.p1 then { w with w0 := 0, w1 := w.w1 + w.w0 }
  else if p.pm1 then { w with w0 := 0, wm1 := w.wm1 + w.w0 }
  else if p.p2 then { w with w0 := 0, w2 := w.w2 + w.w0 }
  else w

/-- The weight of an absent T1 goes "to T0 if present, else T2, else T−1" (Table 23). -/
def substituteT1 (p : Presence) (w : Weights) : Weights :=
  if p.p1 then w
  else if p.p0 then { w with w1 := 0, w0 := w.w0 + w.w1 }
  else if p.p2 then { w with w1 := 0, w2 := w.w2 + w.w1 }
  else if p.pm1 then { w with w1 := 0, wm1 := w.wm1 + w.w1 }
  else w

/-- The weight of an absent T−1 goes "to T0 if present, else T1, else T2" (Table 23). -/
def substituteTm1 (p : Presence) (w : Weights) : Weights :=
  if p.pm1 then w
  else if p.p0 then { w with wm1 := 0, w0 := w.w0 + w.wm1 }
  else if p.p1 then { w with wm1 := 0, w1 := w.w1 + w.wm1 }
  else if p.p2 then { w with wm1 := 0, w2 := w.w2 + w.wm1 }
  else w

/-- The weight of an absent T2 goes "to T1 if present, else T0, else T−1" (Table 23). -/
def substituteT2 (p : Presence) (w : Weights) : Weights :=
  if p.p2 then w
  else if p.p1 then { w with w2 := 0, w1 := w.w1 + w.w2 }
  else if p.p0 then { w with w2 := 0, w0 := w.w0 + w.w2 }
  else if p.pm1 then { w with w2 := 0, wm1 := w.wm1 + w.w2 }
  else w

/-- The substituted row: "The absent taps are taken in the order T0, T1, T−1, T2" (R72). -/
def substitute (p : Presence) (w : Weights) : Weights :=
  substituteT2 p (substituteTm1 p (substituteT1 p (substituteT0 p w)))

/-- A TT row as weights. -/
def rowWeights (r : TRow) : Weights := ⟨r.k0.toInt, r.k1.toInt, r.k2.toInt, r.k3.toInt⟩

/-- The four coefficients of a row. -/
def rowCoefs (r : TRow) : List Int := [r.k0.toInt, r.k1.toInt, r.k2.toInt, r.k3.toInt]

/-- Steps 3 and 4 of the blend: floor((sum + 512) / 1024), clamped to 4..1019 (R78). -/
def blendOut (sum : Int) : Nat := (clampInt 4 1019 ((sum + 512) / 1024)).toNat

/-- Steps 3 and 4 of the spatial value: floor((Σ + 32768) / 65536), clamped to 0..1023 (R93). -/
def spatialOut (sum : Int) : Int := clampInt 0 1023 ((sum + 32768) / 65536)

/-- The class of a motion measure (R76). -/
def motionClass (th1 th2 th3 d : Nat) : Nat :=
  if d < th1 then 0 else if d < th2 then 1 else if d < th3 then 2 else 3

/-! ### Reading -/

/-- Whose slot a read addresses: one of the four taps, or the fallback. -/
inductive Src where
  | tm1
  | t0
  | t1
  | t2
  | fallback
deriving DecidableEq, Repr

/-- A picture to be read: whose it is, its slot, and its parity. -/
structure Picture where
  src : Src
  slot : SlotIx
  parity : Parity
deriving DecidableEq, Repr

/-- Why the computation of a line is cut short: a sample that could not be corrected (R80), or a table row whose
parity fails (R165). -/
inductive Halt where
  | badSample (src : Src) (slot : SlotIx)
  | badRow (table : Table) (row : Nat)
deriving DecidableEq, Repr

/-- What the computation leaves behind, whether or not it is cut short: the corrected reads in the order made, and
the blocks measured (R54, R75). -/
structure Trace where
  corrected : List SlotIx
  blocks : List BlockMeasure
deriving DecidableEq, Repr

/-- A computation that reads slots and table rows. -/
abbrev Rd (α : Type) := ExceptT Halt (StateM Trace) α

/-- What the computation of a line depends on (R97): the samples and errors of the memory, the active banks, and the
job record with what the profile fixes for the job. -/
structure LineCtx where
  mem : List (Nat × Sample)
  ecc : List (Nat × EccFault)
  tt : List TRow
  hc : List TRow
  vc : List TRow
  source : Std
  output : Std
  parity : Option Parity
  line : Nat
  phase : Nat
  theta1 : Nat
  theta2 : Nat
  theta3 : Nat
  presence : Presence
  tm1 : Option Picture
  t0 : Option Picture
  t1 : Option Picture
  t2 : Option Picture
  fallback : Option Picture
  motion : Option (Picture × Picture)
deriving DecidableEq, Repr

/-- One checked read of a slot (R95). -/
def readSample (c : LineCtx) (pic : Picture) (comp : Component) (line col : Nat) : Rd Nat := do
  let a := sampleAddress pic.slot comp line col
  match cellsGet a c.ecc with
  | some .uncorrectable => throw (.badSample pic.src pic.slot)
  | some .correctable =>
    modify (fun t => { t with corrected := t.corrected ++ [pic.slot] })
    pure (memoryRead c.mem a).toNat
  | none => pure (memoryRead c.mem a).toNat

/-- One read of an active bank row, tested for parity (R165). -/
def readRow (c : LineCtx) (t : Table) (row : Nat) : Rd TRow := do
  let rows := match t with
    | .tt => c.tt
    | .hc => c.hc
    | .vc => c.vc
  let r := rows.getD row (defaultRow t row)
  if r.parityOk then pure r else throw (.badRow t row)

/-- The vertical position of an output line on the grid of a tap picture: V16 for a progressive source (R90), W16 for
an interlaced one, by the picture's parity (R91). -/
def verticalPosition (c : LineCtx) (parity : Parity) : Int :=
  let v := sixteenths (frameRow c.parity c.line) (stdRow c.source).height (stdRow c.output).height
  if (stdRow c.source).interlaced then fieldSixteenths v parity else v

/-- Samples per line of one component (Table 26). -/
def componentWidth (s : Std) (comp : Component) : Nat :=
  match comp with
  | .y => (stdRow s).width
  | .cb => (stdRow s).width / 2
  | .cr => (stdRow s).width / 2

/-- The positions that a spatial value reads: those whose coefficient is not 0, each once (R95). -/
def readPositions (positions : List Nat) (coefs : List Int) : List Nat :=
  (((positions.zip coefs).filter (fun x => x.2 != 0)).map Prod.fst).eraseDups

/-- The value of a position that has been read; a position that is not read takes no part in the sum (R95). -/
def valueAt (vals : List ((Nat × Nat) × Nat)) (line col : Nat) : Int :=
  match vals.find? (fun x => x.1 == (line, col)) with
  | some x => (x.2 : Int)
  | none => 0

/-- Σ of R93 from the values read, the four lines and columns, and the two filter rows. -/
def filterSum (vals : List ((Nat × Nat) × Nat)) (lines cols : List Nat) (vc hc : List Int) : Int :=
  ((lines.zip vc).map (fun lv =>
    lv.2 * ((cols.zip hc).map (fun ch => ch.2 * valueAt vals lv.1 ch.1)).sum)).sum

/-- The spatial value S_t of one picture for one output sample (R88 to R95, R99). -/
def spatialValue (c : LineCtx) (pic : Picture) (comp : Component) (x : Nat) : Rd Int := do
  let ws := componentWidth c.source comp
  let u := sixteenths x ws (componentWidth c.output comp)
  let v := verticalPosition c pic.parity
  let hrow ← readRow c .hc (phasePart u)
  let vrow ← readRow c .vc (phasePart v)
  let cols := neighbourhood (wholePart u) ws
  let lines := neighbourhood (wholePart v) (linesPerPicture c.source)
  let todo := (readPositions lines (rowCoefs vrow)).flatMap
    (fun r => (readPositions cols (rowCoefs hrow)).map (fun i => (r, i)))
  let vals ← todo.mapM (fun ri => do
    let s ← readSample c pic comp ri.1 ri.2
    pure (ri, s))
  pure (spatialOut (filterSum vals lines cols (rowCoefs vrow) (rowCoefs hrow)))

/-! ### Motion -/

/-- The samples of one block that lie within the compared pictures' raster, line by line (R75). -/
def blockSamples (s : Std) (col row : Nat) : List (Nat × Nat) :=
  ((List.range 16).map (fun k => 16 * row + k)).filter (fun r => decide (r < linesPerPicture s)) |>.flatMap
    (fun r => (((List.range 16).map (fun k => 16 * col + k)).filter (fun i => decide (i < (stdRow s).width))).map
      (fun i => (r, i)))

/-- Measure one block over the two compared pictures: D = floor(SAD / n) (R75). The samples are read line by line, at each
the first compared picture before T1; R75 and R95 leave the order open (DESIGN CHOICE, log entry 12). -/
def measureBlock (c : LineCtx) (a b : Picture) (col row : Nat) : Rd Nat := do
  let at16 := blockSamples c.source col row
  let diffs ← at16.mapM (fun ri => do
    let x ← readSample c a .y ri.1 ri.2
    let y ← readSample c b .y ri.1 ri.2
    pure ((x : Int) - (y : Int)).natAbs)
  pure (diffs.sum / at16.length)

/-- The class of output luma sample x (R74, R76, R92): 3 where motion is not valid. A block is measured the first
time a line needs its class, and its D then holds for the rest of the job (R75). -/
def classOf (c : LineCtx) (x : Nat) : Rd Nat := do
  match c.motion with
  | none => pure 3
  | some (a, b) =>
    let ws := (stdRow c.source).width
    let i := (clampInt 0 ((ws : Int) - 1) (wholePart (sixteenths x ws (stdRow c.output).width))).toNat
    let r := (clampInt 0 ((linesPerPicture c.source : Int) - 1) (wholePart (verticalPosition c a.parity))).toNat
    let t ← get
    match t.blocks.find? (fun m => m.col == i / 16 && m.row == r / 16) with
    | some m => pure (motionClass c.theta1 c.theta2 c.theta3 m.d)
    | none =>
      let d ← measureBlock c a b (i / 16) (r / 16)
      modify (fun t => { t with blocks := t.blocks ++ [⟨i / 16, r / 16, d⟩] })
      pure (motionClass c.theta1 c.theta2 c.theta3 d)

/-! ### The line -/

/-- One output sample of one component from a substituted row: the blend over the taps with a non-zero weight (R78). -/
def blendSample (c : LineCtx) (w : Weights) (comp : Component) (x : Nat) : Rd Nat := do
  let parts ← [(w.wm1, c.tm1), (w.w0, c.t0), (w.w1, c.t1), (w.w2, c.t2)].mapM (fun wp => do
    match wp with
    | (wt, some pic) => if wt = 0 then pure 0 else (do let s ← spatialValue c pic comp x; pure (wt * s))
    | (_, none) => pure 0)
  pure (blendOut parts.sum)

/-- One output sample from the fallback alone, with the whole weight (R73). -/
def fallbackSample (c : LineCtx) (pic : Picture) (comp : Component) (x : Nat) : Rd Nat := do
  let s ← spatialValue c pic comp x
  pure (blendOut (1024 * s))

/-- The computation of one whole line (R97): the motion class of every luma sample, the substituted row of every
sample, then Y of every luma sample and Cb and Cr of every chroma sample. A chroma sample at c takes the class of
luma sample 2c (R76). -/
def computeOnce (c : LineCtx) : Rd EmittedLine := do
  let wo := (stdRow c.output).width
  match c.fallback with
  | some pic =>
    let y ← (List.range wo).mapM (fallbackSample c pic .y)
    let cb ← (List.range (wo / 2)).mapM (fallbackSample c pic .cb)
    let cr ← (List.range (wo / 2)).mapM (fallbackSample c pic .cr)
    pure ⟨c.line, y, cb, cr⟩
  | none =>
    let classes ← (List.range wo).mapM (classOf c)
    let rows ← classes.mapM (fun k => do
      let r ← readRow c .tt (4 * c.phase + k)
      pure (substitute c.presence (rowWeights r)))
    let evens := (List.range (wo / 2)).filterMap (fun k => (rows[2 * k]?).map (fun w => (w, k)))
    let y ← (rows.zipIdx).mapM (fun wx => blendSample c wx.1 .y wx.2)
    let cb ← evens.mapM (fun wx => blendSample c wx.1 .cb wx.2)
    let cr ← evens.mapM (fun wx => blendSample c wx.1 .cr wx.2)
    pure ⟨c.line, y, cb, cr⟩

/-- The picture that a PRESENT tap gives to read. -/
def tapPicture (src : Src) (t : Tap) : Option Picture :=
  if t.isPresent then
    t.entry.bind (fun e => (entrySlot e).map (fun k => ⟨src, k, e.parity.getD .top⟩))
  else none

/-- The picture that an unpoisoned fallback gives to read (R73, R80). -/
def fallbackPicture (f : Option Fallback) : Option Picture :=
  f.bind (fun f =>
    if f.poisonedFrom.isSome then none
    else (entrySlot f.entry).map (fun k => ⟨.fallback, k, f.entry.parity.getD .top⟩))

/-- The taps of a job that are PRESENT as the job stands. -/
def jobPresence (j : JobRec) : Presence := ⟨j.tm1.isPresent, j.t0.isPresent, j.t1.isPresent, j.t2.isPresent⟩

/-- The compared pictures of a job whose motion is valid (R74). -/
def comparedPictures (input : Std) (j : JobRec) : Option (Picture × Picture) :=
  if j.motionValid then
    if (stdRow input).interlaced then
      match tapPicture .tm1 j.tm1, tapPicture .t1 j.t1 with
      | some a, some b => some (a, b)
      | _, _ => none
    else
      match tapPicture .t0 j.t0, tapPicture .t1 j.t1 with
      | some a, some b => some (a, b)
      | _, _ => none
  else none

/-- What the computation of line `l` of lane `n`'s job depends on, as it stands (R97). The rows are those of the active
banks, or those the job started with where a swap has been taken since (R77, R94, R163). -/
def lineCtx (p : Part) (n : Ix) (l : Nat) : LineCtx :=
  let lane := p.lanes.get n
  let j := lane.job
  let rows := j.kept.getD (activeRows lane.tables)
  { mem := p.store.mem
    ecc := p.store.ecc
    tt := rows.tt
    hc := rows.hc
    vc := rows.vc
    source := lane.profile.input
    output := j.picStd.getD lane.profile.output
    parity := j.picParity
    line := l
    phase := j.phase.getD 0
    theta1 := lane.profile.theta1
    theta2 := lane.profile.theta2
    theta3 := lane.profile.theta3
    presence := jobPresence j
    tm1 := tapPicture .tm1 j.tm1
    t0 := tapPicture .t0 j.t0
    t1 := tapPicture .t1 j.t1
    t2 := tapPicture .t2 j.t2
    fallback := fallbackPicture j.fallback
    motion := comparedPictures lane.profile.input j }

/-- The job has something to show: a PRESENT tap, or an unpoisoned fallback (R79, R80). -/
def jobShows (j : JobRec) : Bool := (jobPresence j).some || (fallbackPicture j.fallback).isSome

/-- What a trace leaves in the part: each corrected read reported to the store (R54), the blocks kept for the rest of
the job (R75). -/
def applyTrace (n : Ix) (t : Trace) (p : Part) : Part :=
  p |> forAll t.corrected correctedRead
    |> modLane n (fun l => { l with job := { l.job with blocks := t.blocks } })

/-- A tap made POISONED from line `l` (R80). -/
def poisonTap (l : Nat) (t : Tap) : Tap := { t with state := .poisoned, poisonedFrom := some l }

/-- The source is one of the compared pictures (R74). -/
def isCompared (input : Std) (s : Src) : Bool :=
  match s with
  | .t1 => true
  | .tm1 => (stdRow input).interlaced
  | .t0 => !(stdRow input).interlaced
  | .t2 => false
  | .fallback => false

/-- The job's record of an uncorrectable read while line `l` is computed (R80). -/
def poisonJob (input : Std) (s : Src) (l : Nat) (j : JobRec) : JobRec :=
  let lost := j.motionValid && isCompared input s
  let j := { j with
    motionValid := j.motionValid && !lost
    motionLostFrom := if lost then some l else j.motionLostFrom }
  match s with
  | .tm1 => { j with tm1 := poisonTap l j.tm1 }
  | .t0 => { j with t0 := poisonTap l j.t0 }
  | .t1 => { j with t1 := poisonTap l j.t1 }
  | .t2 => { j with t2 := poisonTap l j.t2 }
  | .fallback => { j with fallback := j.fallback.map (fun f => { f with poisonedFrom := some l }) }

/-- The lane marks the tap or fallback POISONED and counts it (R80). -/
def markPoisoned (n : Ix) (s : Src) (l : Nat) (p : Part) : Part :=
  p |> modLane n (fun x => { x with job := poisonJob x.profile.input s l x.job })
    |> bumpJob n (fun c => { c with poisonedTaps := bump c.poisonedTaps })

/-- The error code of a table whose row failed (R165). -/
def parityCode (t : Table) : ErrCode :=
  match t with
  | .tt => .ttParity
  | .hc => .hcParity
  | .vc => .vcParity

/-- The computation of line `l`, once more after each read that failed (R80, R97): the line, or none where it is
slate. A job has at most five pictures to lose, one at each failure; `fuel` counts them. -/
def computeLine (n : Ix) (l : Nat) : Nat → Part → Part × Option EmittedLine
  | 0, p => (p, none)
  | fuel + 1, p =>
    if jobShows (p.lanes.get n).job then
      match (computeOnce (lineCtx p n l)).run ⟨[], (p.lanes.get n).job.blocks⟩ with
      | (.ok line, t) => (applyTrace n t p, some line)
      | (.error (.badSample s k), t) =>
        computeLine n l fuel (p |> applyTrace n t |> uncorrectableRead k |> markPoisoned n s l)
      | (.error (.badRow tab row), t) =>
        (p |> applyTrace n t |> report (.ll n) (parityCode tab) (.row row) |> laneFatal n, none)
    else (p, none)

/-! ### Slate, black and the emission -/

/-- A line of one colour. -/
def flatLine (s : Std) (l y cb cr : Nat) : EmittedLine :=
  ⟨l, List.replicate (stdRow s).width y, List.replicate ((stdRow s).width / 2) cb,
   List.replicate ((stdRow s).width / 2) cr⟩

/-- A slate line: the lane's slate colour as the profile holds it (R79, R119). -/
def slateLine (p : Part) (n : Ix) (l : Nat) : EmittedLine :=
  let pr := (p.lanes.get n).profile
  flatLine (p.outs.get n).standard l pr.slateY pr.slateCb pr.slateCr

/-- A black line: Y 64, Cb 512, Cr 512 (R79, R137). -/
def blackLine (p : Part) (n : Ix) (l : Nat) : EmittedLine :=
  flatLine (p.outs.get n).standard l 64 512 512

/-- The line as it is emitted: black while the part is muted, slate where the job gives none (R79, R97, R137). -/
def emitted (p : Part) (n : Ix) (l : Nat) (line : Option EmittedLine) : EmittedLine :=
  if p.mute then blackLine p n l else line.getD (slateLine p n l)

/-- The lane computes the next active line of the output picture, if it runs a job, and OUTn emits it (R97). Where a read
report of this very line meets a slot record that fails its check, the line is emitted as computed and the job abandoned
at the end of the step: R58 has an event complete its own steps first, while R82 and R97 have the line being computed
discarded (DESIGN CHOICE, log entry 44). -/
def emitLine (n : Ix) (p : Part) : Part :=
  let o := p.outs.get n
  if o.lineNext < linesPerPicture o.standard then
    let l := o.lineNext
    let r := if (p.lanes.get n).job.inFlight then computeLine n l 6 p else (p, none)
    modOut n (fun o => { o with lineNext := l + 1, lineOut := some (emitted r.1 n l r.2) }) r.1
  else p

end Sys2Proof.Machine
end

