-- ==== Sys2Proof/Machine/Ops.lean ====
section
/-! DEFINITION. What every command shares: the instant at which it is taken (R20), the physical failures that came
about before it (log entry 5), and the end of the step (R58). -/

namespace Sys2Proof.Machine

/-! ### Physical failures -/

/-- A row of a table bank whose parity no longer holds. -/
def spoilRow (row : Nat) (rows : List TRow) : List TRow := rows.modify row (fun r => { r with parityOk := false })

/-- A row of one bank of a table whose parity no longer holds. -/
def spoilBank (b : Bank) (row : Nat) (t : TableBanks) : TableBanks :=
  match b with
  | .active => { t with active := spoilRow row t.active }
  | .shadow => { t with shadow := spoilRow row t.shadow }

/-- A slot record whose check no longer holds (R42, R58). -/
def spoilSlot (k : SlotIx) (st : Store) : Store :=
  { st with slots := st.slots.set k.val { st.slots[k.val] with intact := false } }

/-- One physical failure comes about. Nothing of the part notices it before it next reads the item (R54, R55, R58,
R146, R165, R166). -/
def applyUpset (u : Upset) (p : Part) : Part :=
  match u with
  | .slotRecord k => modStore (spoilSlot k) p
  | .storedSample k comp line col fault =>
    modStore (fun st => { st with ecc := cellsPut (sampleAddress k comp line col) fault st.ecc }) p
  | .tableRow n t b row => modLane n (fun l => { l with tables := modTable t (spoilBank b row) l.tables }) p
  | .carryItem n i =>
    modLane n (fun l => { l with carry := l.carry.modify i (fun c => { c with parityOk := false }) }) p

/-! ### The instant of an event -/

/-- The timebase at an instant; it never goes back (R20, log entry 3). -/
def advance (t : Nat) (p : Part) : Part := { p with timebase := max p.timebase t }

/-- The part as an event finds it: the failures that came about, and the timebase at the event's instant. -/
def begin (t : Nat) (upsets : List Upset) (p : Part) : Part := p |> forAll upsets applyUpset |> advance t

/-- One event of the part, whole and indivisible: `f` is what it does, and the step ends with the effects of an
integrity error found in it (R58). The queue of waiting commands is not touched. -/
def event (env : Env) (f : Part → Part) (s : State) : Host.Outcome State Fault Refusal :=
  .next { s with part := settle (f (begin env.time env.upsets s.part)) }

end Sys2Proof.Machine
end

