-- ==== Sys2Proof/Machine/Schedule.lean ====
section
/-! DEFINITION. The operations of the reference inputs and the output timing units (chapter 6): qualification (R102,
R103), loss (R104, R111), compatibility (R105), aligned instants (R109), the schedules (R108, R109, R112), parity
(R110), change of standard (R115) and the packets of a picture (R116, R117). -/

namespace Sys2Proof.Machine

/-! ### Intervals -/

/-- "An interval is in range when it lies in 200,000..5,000,000 TU" (R101). -/
def inRange (i : Nat) : Bool := decide (200000 ≤ i ∧ i ≤ 5000000)

/-- Pr: floor(sum of the intervals / number of intervals) (R101). -/
def meanPeriod (xs : List Nat) : Nat := xs.sum / xs.length

/-- |a − b| ≤ floor(b × 300 / 1,000,000) (R102, R103). -/
def agrees (a b : Nat) : Bool := decide (((a : Int) - (b : Int)).natAbs ≤ b * 300 / 1000000)

/-- The last 8 intervals: "If the list then holds 9 intervals, the oldest leaves" (R103). -/
def joinInterval (xs : List Nat) (i : Nat) : List Nat :=
  if 8 ≤ xs.length then xs.drop 1 ++ [i] else xs ++ [i]

/-- The interval list kept by an ABSENT reference after an interval that does not qualify it (R102, R103). -/
def freshList (i : Nat) : List Nat := if inRange i then [i] else []

/-- A marker taken at `t` while the reference is ABSENT (R102). -/
def qualify (t : Nat) (r : RefInput) : RefInput :=
  match r.last with
  | none => { r with last := some t }
  | some prev =>
    let i := t - prev
    match r.intervals with
    | [q] =>
      if inRange i && agrees i q then
        { present := true, last := some t, intervals := [q, i], pr := some (meanPeriod [q, i]) }
      else { r with last := some t, intervals := freshList i }
    | _ => { r with last := some t, intervals := freshList i }

/-! ### Compatibility -/

/-- One relation of Table 27 holds, with its k. -/
def relationHolds (faster : Bool) (k po pr : Nat) : Bool :=
  if faster then decide ((((k * pr : Nat) : Int) - (po : Int)).natAbs ≤ po / 2000)
  else decide (((pr : Int) - ((k * po : Nat) : Int)).natAbs ≤ k * po / 2000)

/-- Pm, "the reference period expressed per output picture" (Table 27). -/
def measuredPeriod (faster : Bool) (k pr : Nat) : Nat := if faster then k * pr else pr / k

/-- The relation that a measured period allows: faster or not, and k (Table 27). -/
def compatible (po pr : Nat) : Option (Bool × Nat) :=
  [(false, 1), (false, 2), (false, 3), (false, 4), (true, 2)].find? (fun r => relationHolds r.1 r.2 po pr)

/-! ### Aligned instants -/

/-- The index of the first aligned instant base + i × Po, i ≥ 0, at or after `x` (R108, R109). -/
def firstIndex (base : Int) (po : Nat) (x : Int) : Nat := ((x - base + po - 1) / po).toNat

/-- The aligned instant of an index (R109). -/
def alignedInstant (base : Int) (po i : Nat) : Int := base + ((i * po : Nat) : Int)

/-- The index of the aligned instant nearest to `x`: "Where two are equally near, it takes the later" (R109). -/
def nearestIndex (base : Int) (po : Nat) (x : Int) : Nat :=
  let i := firstIndex base po x
  if 0 < i ∧ x - alignedInstant base po (i - 1) < alignedInstant base po i - x then i - 1 else i

/-- The parity that the even-k rule gives a boundary placed at index `i` (R110). -/
def placedParity (interlaced faster : Bool) (k i : Nat) : Option Parity :=
  if interlaced && !faster && (k == 2 || k == 4) then some (if i % 2 = 0 then .top else .bottom) else none

/-! ### Outputs -/

/-- Po, the picture period of the running standard. -/
def outPeriod (o : OutUnit) : Nat := periodOf o.standard

/-- Ph: Pm clamped to Po ± floor(Po × 300 / 1,000,000) (R111). -/
def holdoverPeriod (po : Nat) (pm : Int) : Int :=
  let w : Int := ((po * 300 / 1000000 : Nat) : Int)
  clampInt ((po : Int) - w) ((po : Int) + w) pm

/-- Entry to HOLDOVER from an alignment (R111). -/
def enterHoldover (n : Ix) (pm : Nat) (p : Part) : Part :=
  p |> modOut n (fun o => { o with lock := .holdover (holdoverPeriod (outPeriod o) pm) })
    |> latchSet (.refLost n)
    |> report .dl .refLost (.output n.val)
    |> bumpOut n (fun c => { c with holdoverEntries := bump c.holdoverEntries })

/-- An output is told that a reference has gone ABSENT (R104): locked to it, it enters HOLDOVER (R111). -/
def loseReference (r : RefId) (n : Ix) (p : Part) : Part :=
  let o := p.outs.get n
  match o.lock with
  | .locked al => if o.select = some r then enterHoldover n al.pm p else p
  | .free => p
  | .holdover _ => p

/-- A reference goes ABSENT (R104): list and Pr emptied, the last marker time kept, the outputs that select it told, in
ascending output number. Which of several outputs locked to it latches and reports REF_LOST first is left open by R111
and R181; the order is the model's (DESIGN CHOICE, log entry 29). -/
def refAbsent (r : RefId) (p : Part) : Part :=
  p |> setRef r { getRef p r with present := false, intervals := [], pr := none }
    |> forEach (loseReference r)

/-- The alignment after a marker of the locked reference at `t` (R109): M moves at each marker, or for the faster
relation at every second. -/
def alignMarker (t pr : Nat) (al : Alignment) : Alignment :=
  let al := { al with pm := measuredPeriod al.faster al.k pr }
  if al.faster then
    if al.count + 1 = 2 then { al with m := t, count := 0 } else { al with count := al.count + 1 }
  else { al with m := t }

/-- An output is told of a marker and the new Pr (R103, R109): a Pr that no longer holds its relation takes a locked
output to HOLDOVER with Pm as it stood (R111). -/
def followMarker (r : RefId) (t pr : Nat) (n : Ix) (p : Part) : Part :=
  let o := p.outs.get n
  match o.lock with
  | .locked al =>
    if o.select = some r then
      if relationHolds al.faster al.k (outPeriod o) pr then
        modOut n (fun o => { o with lock := .locked (alignMarker t pr al) }) p
      else enterHoldover n al.pm p
    else p
  | .free => p
  | .holdover _ => p

/-- A marker on a reference input at the timebase's instant (R102, R103). -/
def takeRefMarker (r : RefId) (p : Part) : Part :=
  let t := p.timebase
  let v := getRef p r
  match v.pr, v.last with
  | some pr, some prev =>
    if v.present then
      let i := t - prev
      if agrees i pr then
        let xs := joinInterval v.intervals i
        p |> setRef r { v with last := some t, intervals := xs, pr := some (meanPeriod xs) }
          |> forEach (followMarker r t (meanPeriod xs))
      else
        let q := refAbsent r p
        setRef r { getRef q r with last := some t, intervals := freshList i } q
    else setRef r (qualify t v) p
  | _, _ => setRef r (qualify t v) p

/-- The instant at which a PRESENT reference expires: last marker time plus floor(3 × Pr / 2) (R104). -/
def expiryOf (v : RefInput) : Option Nat :=
  match v.present, v.last, v.pr with
  | true, some t, some pr => some (t + 3 * pr / 2)
  | _, _, _ => none

/-! ### The boundary -/

/-- Change of standard at step 1 of a boundary (R115). -/
def changeStandard (n : Ix) (s : Std) (p : Part) : Part :=
  p |> modOut n (fun o =>
        { o with standard := s, lock := .free, offset := if o.offset < periodOf s then o.offset else 0 })
    |> endRelock n .complete
    |> bumpOut n (fun c => { c with standardChanges := bump c.standardChanges })

/-- The parity of a boundary (R110). `fresh`: that of a change of standard. -/
def boundaryParity (fresh : Bool) (o : OutUnit) : Option Parity :=
  if (stdRow o.standard).interlaced then
    if fresh then some .top
    else match o.nextParity, o.last.parity with
      | some q, _ => some q
      | none, some q => some (oppositeParity q)
      | none, none => some .top
  else none

/-- A management packet: kind 61h (chapter 10). -/
def managementPacket (subkind : Byte) (ws : List Byte) : Packet := ⟨0x61#8, subkind, ws⟩

/-- The reply block as it is placed, with the lost count of its input filled in (Table 49, R172). -/
def replyPacket (p : Part) (n : Ix) (r : Reply) : Packet :=
  managementPacket 0x0C#8
    ([word p.straps.address.val, r.tag, r.code, replyKindWord r.kind, r.status, flagWord r.restart,
      word (p.mgmt.lost.get n)] ++ r.payload)

/-- The reply at the head of the queue leaves it into the picture; the lost count of INn is then 0 (R117, R172). -/
def placeReply (n : Ix) (p : Part) : Part :=
  match (p.outs.get n).replies with
  | [] => p
  | r :: rest =>
    let k := replyPacket p n r
    p |> modOut n (fun o => { o with replies := rest, packets := o.packets ++ [sendPacket k] })
      |> modMgmt (fun m => { m with lost := m.lost.set n 0 })
      |> bumpOut n (fun c => { c with repliesSent := bump c.repliesSent })

/-- The owner and kind words of a condition (Table 51). -/
def pairWords (c : Cond) : List Byte := [condOwner c, word (condKind c)]

/-- The notice block that holds every pair of a set (R117, Table 51). -/
def noticePacket (p : Part) (cs : List Cond) : Packet :=
  managementPacket 0x0D#8
    ([word p.straps.address.val, 0, 255, word cs.length] ++ cs.flatMap pairWords)

/-- The notice of a picture: one if fewer than 2 replies were placed and the set is not empty (R116, R117). -/
def placeNotice (n : Ix) (replies : Nat) (p : Part) : Part :=
  let cs := (p.outs.get n).notices
  if replies < Config.repliesPerPicture ∧ cs ≠ [] then
    let k := noticePacket p cs
    p |> modOut n (fun o => { o with notices := [], packets := o.packets ++ [sendPacket k] })
      |> bumpOut n (fun c => { c with noticesSent := bump c.noticesSent })
  else p

/-- The packets of the new picture, in the order of R116. -/
def placePackets (n : Ix) (h : Handover) (p : Part) : Part :=
  let replies := min Config.repliesPerPicture (p.outs.get n).replies.length
  p |> modOut n (fun o => { o with packets := [] })
    |> placeReply n
    |> placeReply n
    |> placeNotice n replies
    |> modOut n (fun o => { o with packets := o.packets ++ (h.timecode.toList ++ h.carried).map sendPacket })

/-- The selected reference of an output, if it is PRESENT and compatible: its relation, k, Pr and last marker time. -/
def lockable (p : Part) (o : OutUnit) : Option (Bool × Nat × Nat × Nat) :=
  match o.select with
  | none => none
  | some r =>
    let v := getRef p r
    match v.present, v.pr, v.last with
    | true, some pr, some t => (compatible (outPeriod o) pr).map (fun rel => (rel.1, rel.2, pr, t))
    | _, _, _ => none

/-- The next boundary fixed on the timebase alone. -/
def placeFree (n : Ix) (next : Int) (p : Part) : Part := modOut n (fun o => { o with next := next, nextParity := none }) p

/-- The next boundary fixed at the aligned instant of an index, with the parity of the even-k rule (R109, R110). -/
def placeAligned (n : Ix) (al : Alignment) (i : Nat) (p : Part) : Part :=
  modOut n (fun o =>
    { o with
      next := alignedInstant (al.m + (o.offset : Int)) (outPeriod o) i
      nextParity := placedParity (stdRow o.standard).interlaced al.faster al.k i }) p

/-- The alignment of R108 at a boundary at `instant`. -/
def alignAt (n : Ix) (instant : Int) (faster : Bool) (k pr m : Nat) (p : Part) : Part :=
  let al : Alignment := ⟨faster, k, measuredPeriod faster k pr, (m : Int), 0⟩
  let o := p.outs.get n
  p |> modOut n (fun o => { o with lock := .locked al })
    |> placeAligned n al (firstIndex (al.m + (o.offset : Int)) (outPeriod o) (instant + (outPeriod o : Nat)))
    |> bumpOut n (fun c => { c with alignments := bump c.alignments })

/-- Step 5 of a boundary in LOCKED: a pull-in, or a phase step (R109). -/
def scheduleLocked (n : Ix) (instant : Int) (al : Alignment) (p : Part) : Part :=
  let o := p.outs.get n
  let po := outPeriod o
  let base := al.m + (o.offset : Int)
  let candidate := instant + (po : Int)
  let i := nearestIndex base po candidate
  if (alignedInstant base po i - candidate).natAbs ≤ po / 1024 then placeAligned n al i p
  else
    p |> placeAligned n al (firstIndex base po candidate)
      |> bumpOut n (fun c => { c with phaseSteps := bump c.phaseSteps })

/-- Step 5 of a boundary at `instant`: FREE (R108), LOCKED (R109) or HOLDOVER (R112). -/
def schedule (n : Ix) (instant : Int) (p : Part) : Part :=
  let o := p.outs.get n
  match o.lock with
  | .free =>
    match lockable p o with
    | some (faster, k, pr, m) => alignAt n instant faster k pr m p
    | none => placeFree n (instant + (outPeriod o : Nat)) p
  | .locked al => scheduleLocked n instant al p
  | .holdover ph =>
    match lockable p o with
    | some (faster, k, pr, m) =>
      if o.policy = .auto ∨ o.relockPending = true then
        p |> alignAt n instant faster k pr m |> endRelock n .complete
      else placeFree n (instant + ph) p
    | none => placeFree n (instant + ph) p

/-- Step 6 of a boundary (R107): counted, and recorded as the last boundary. The picture's lines begin. -/
def recordBoundary (n : Ix) (instant : Int) (parity : Option Parity) (p : Part) : Part :=
  p |> bumpOut n (fun c => { c with boundaries := bump c.boundaries })
    |> modOut n (fun o => { o with last := ⟨instant, parity⟩, lineNext := 0 })

/-- A boundary of OUTn at its next boundary instant, in the order of R107. A job of the picture before, if its end
has not been taken, ends here (log entry 20). -/
def takeBoundary (n : Ix) (p : Part) : Part :=
  let p := endJob n p
  let o := p.outs.get n
  let instant := o.next
  let target := (p.lanes.get n).profile.output
  let changed := decide (target ≠ o.standard)
  let p := if changed then changeStandard n target p else p
  let parity := boundaryParity changed (p.outs.get n)
  let r := laneBoundary n instant parity p
  r.1 |> placePackets n r.2 |> schedule n instant |> recordBoundary n instant parity

end Sys2Proof.Machine
end

