-- ==== Sys2Proof/Machine/LinkOps.lean ====
section
/-! DEFINITION. The link receiver's own operations (chapter 1): the structure search (R6), the structure check (R7),
the measurement window (R8, R9, R10), leaving LOCKED (R11), and the dispatch of packets (R14 to R17) with the arrival
of a command block (R168) and the routing offer (R141, R144). -/

namespace Sys2Proof.Machine

/-- What the line interfaces report (R4). -/
def activityOf (p : Part) : Four Bool := Four.make (fun n => (p.links.get n).activity)

/-! ### Recorded pictures and the structure search -/

/-- A sample count as it is compared: 0 where the picture has no active line, or active lines that differ (R1, R6). -/
def sampleCount (c : Current) : Nat := c.samples.getD 0

/-- The four properties of the picture that a marker ends (R1). -/
def measuredOf (c : Current) : Measured := ⟨c.total, c.active, sampleCount c, c.parity⟩

/-- Two consecutive recorded pictures are consistent (R6). -/
def consistent (a b : Measured) : Bool :=
  a.active == b.active && a.active != 0 && a.samples == b.samples && a.samples != 0 &&
    ((a.parity == .top && b.parity == .top && a.total == b.total) ||
      (a.parity != b.parity && decide (((a.total : Int) - (b.total : Int)).natAbs ≤ 1)))

/-- The established structure set from two consistent pictures (R6). -/
def establish (a b : Measured) : Established :=
  let total (q : Parity) : Option Nat :=
    if b.parity = q then some b.total else if a.parity = q then some a.total else none
  { active := b.active
    samples := b.samples
    pattern := if a.parity = b.parity then .allTop else .alternating
    totalTop := total .top
    totalBottom := total .bottom }

/-- The parity expected of the next marker (R7). -/
def expectedParity (e : Established) (lastParity : Parity) : Parity :=
  match e.pattern with
  | .allTop => .top
  | .alternating => oppositeParity lastParity

/-- The last total line count seen for a parity (R6, R7). -/
def totalFor (e : Established) (q : Parity) : Option Nat :=
  match q with
  | .top => e.totalTop
  | .bottom => e.totalBottom

/-- The picture is a structure break (R7). -/
def breaks (e : Established) (c : Current) : Bool :=
  c.active != e.active || sampleCount c != e.samples || c.parity != c.expected
    || (match totalFor e c.parity with
        | some t => c.total != t
        | none => false)

/-- A line number out of sequence: "neither the previous line number plus 1, nor 1 with the marker flag set" (R6). -/
def outOfSequence (last : Option Nat) (number : Nat) (marker : Bool) : Bool :=
  match last with
  | some k => !(number == k + 1 || (marker && number == 1))
  | none => false

/-- The picture that begins at a line start: its first line counted (R1). -/
def beginPicture (parity expected : Parity) (blank checked : Bool) : Current :=
  { total := 1
    active := if blank then 0 else 1
    samples := none
    parity := parity
    expected := expected
    checked := checked
    handed := false }

/-- A further line of the picture (R1). -/
def countLine (blank : Bool) (c : Current) : Current :=
  { c with total := c.total + 1, active := if blank then c.active else c.active + 1 }

/-- The sample count of an active line joined to those of the picture (R1): 0 once two of them differ. -/
def countSamples (k : Nat) (c : Current) : Current :=
  { c with samples := match c.samples with
      | none => some k
      | some m => if m = k then some m else some 0 }

/-- A line start seen: its number, and whether its line is an active line (R1). -/
def seeLine (n : Ix) (number : Nat) (blank : Bool) (p : Part) : Part :=
  modLink n (fun l => { l with lastNumber := some number, line := some (!blank) }) p

/-! ### Leaving LOCKED -/

/-- Apply an operation to every lane whose source feed is Fn, in ascending order. -/
def forSourcing (n : Ix) (f : Ix → Part → Part) (p : Part) : Part :=
  forEach (fun m q => if sources q n m then f m q else q) p

/-- What a link does when it leaves LOCKED, in the order of R11. -/
def lockLost (n : Ix) (p : Part) : Part :=
  p |> recapture n
    |> forSourcing n evalUsable
    |> abandonNewest n false
    |> latchSet (.linkLost n)
    |> report (.fl n) .linkLost .none
    |> bumpLink n (fun c => { c with lockLosses := bump c.lockLosses })
    |> modLink n (fun l => { l with lineErrors := 0 })

/-- The link is LOCKED. -/
def isLocked (s : LinkState) : Bool :=
  match s with
  | .locked _ => true
  | .dark => false
  | .seeking => false
  | .measuring => false

/-- Packets are extracted in this state (R14, Table 7). -/
def extracts (s : LinkState) : Bool :=
  match s with
  | .measuring => true
  | .locked _ => true
  | .dark => false
  | .seeking => false

/-- The link goes to SEEKING (R7, R10): the established structure, the window and the records are emptied, the search
goes on from `cur`, and a link that was LOCKED takes the effects of R11. -/
def toSeeking (n : Ix) (cur : Option Current) (p : Part) : Part :=
  let q := modLink n (fun l =>
    { l with state := .seeking, est := none, window := none, recorded := none, cur := cur }) p
  if isLocked (p.links.get n).state then lockLost n q else q

/-- A packet fails (R3): counted, and reported as a NOTE to FLn. -/
def packetFailed (n : Ix) (p : Part) : Part :=
  p |> bumpLink n (fun c => { c with packetErrors := bump c.packetErrors }) |> report (.fl n) .badPacket .none

/-- A packet whose words were in progress at a line start or at the loss of activity is truncated (R3, R5). -/
def truncated (n : Ix) (cut : Bool) (p : Part) : Part :=
  if cut && extracts (p.links.get n).state then packetFailed n p else p

/-! ### Markers -/

/-- A marker in SEEKING (R6). `number` is its line number. -/
def markerSeeking (n : Ix) (number : Nat) (parity : Parity) (blank : Bool) (p : Part) : Part :=
  let l := p.links.get n
  let restart := modLink n (fun l => { l with cur := none, recorded := none }) p
  if outOfSequence l.lastNumber number true then restart
  else
    match l.cur with
    | none => modLink n (fun l => { l with cur := some (beginPicture parity parity blank true), recorded := none }) p
    | some c =>
      let m := measuredOf c
      match l.recorded with
      | none =>
        modLink n (fun l => { l with cur := some (beginPicture parity parity blank true), recorded := some m }) p
      | some r =>
        if consistent r m then
          let e := establish r m
          modLink n
            (fun l => { l with
              state := .measuring
              est := some e
              window := some ⟨p.timebase, 0⟩
              missedRun := 0
              recorded := none
              cur := some (beginPicture parity (expectedParity e m.parity) blank true) }) p
        else restart

/-- The receiver hands the marker to feed capture as a picture start (R12), and the line-error count starts at 0. -/
def handMarker (n : Ix) (code : Std) (parity : Parity) (p : Part) : Part :=
  p |> modLink n (fun l => { l with lineErrors := 0, cur := l.cur.map (fun c => { c with handed := true }) })
    |> handPicture n code p.timebase parity

/-- The marker that completes a matching window, in the order of R9. -/
def identified (n : Ix) (code : Std) (parity : Parity) (p : Part) : Part :=
  let before := (p.links.get n).lastCode
  let q := bumpLink n (fun c => { c with identified := bump c.identified }) p
  let q := if before.any (fun c => c != code) then flushFeed n q else q
  q |> modLink n (fun l => { l with lastCode := some code, state := .locked code, window := some ⟨p.timebase, 0⟩ })
    |> recapture n
    |> forSourcing n evalUsable
    |> forSourcing n checkMismatch
    |> handMarker n code parity

/-- The window sum at this marker: its arrival less the arrival that began the window (R8). -/
def windowSum (p : Part) (w : Window) : Nat := p.timebase - w.start

/-- A marker in MEASURING that passed the check advances the window (R8). -/
def markerMeasuring (n : Ix) (e : Established) (parity : Parity) (p : Part) : Part :=
  match (p.links.get n).window with
  | none => modLink n (fun l => { l with window := some ⟨p.timebase, 0⟩ }) p
  | some w =>
    if w.count + 1 < 8 then modLink n (fun l => { l with window := some { w with count := w.count + 1 } }) p
    else
      match identifyWindow e (windowSum p w) with
      | some code => identified n code parity p
      | none =>
        p |> bumpLink n (fun c => { c with unidentified := bump c.unidentified })
          |> modLink n (fun l => { l with window := some ⟨p.timebase, 0⟩ })

/-- A marker in LOCKED that passed the check advances the rate check, and is handed on unless the check fails (R10,
R12). -/
def markerLocked (n : Ix) (code : Std) (parity : Parity) (p : Part) : Part :=
  match (p.links.get n).window with
  | none => p |> modLink n (fun l => { l with window := some ⟨p.timebase, 0⟩ }) |> handMarker n code parity
  | some w =>
    if w.count + 1 < 8 then
      p |> modLink n (fun l => { l with window := some { w with count := w.count + 1 } }) |> handMarker n code parity
    else if windowMatches (periodOf code) (windowSum p w) then
      p |> modLink n (fun l => { l with window := some ⟨p.timebase, 0⟩ }) |> handMarker n code parity
    else toSeeking n none p

/-- A marker in MEASURING or LOCKED (R7): the picture it ends is checked; a structure break begins the new search at
this marker, otherwise the run of missed markers is 0 again and the window advances. The total line counts recorded on
entry to MEASURING stand: a checked picture has them, and whether one begun by a missed marker changes that of its
parity is left open by R7 (DESIGN CHOICE, log entry 43). -/
def markerChecked (n : Ix) (number : Nat) (parity : Parity) (blank : Bool) (p : Part) : Part :=
  let l := p.links.get n
  match l.est, l.cur with
  | some e, some c =>
    if outOfSequence l.lastNumber number true || (c.checked && breaks e c) then
      toSeeking n (some (beginPicture parity parity blank true)) p
    else
      let q := modLink n
        (fun l => { l with
          missedRun := 0
          cur := some (beginPicture parity (expectedParity e c.parity) blank true) }) p
      match l.state with
      | .measuring => markerMeasuring n e parity q
      | .locked code => markerLocked n code parity q
      | .dark => q
      | .seeking => q
  | _, _ => toSeeking n (some (beginPicture parity parity blank true)) p

/-- A line start with the marker flag set (R1, R6, R7). In DARK it is ignored. -/
def takeMarker (n : Ix) (number : Nat) (parity : Parity) (blank cut : Bool) (p : Part) : Part :=
  let p := truncated n cut p
  match (p.links.get n).state with
  | .dark => p
  | .seeking => p |> markerSeeking n number parity blank |> seeLine n number blank
  | .measuring => p |> markerChecked n number parity blank |> seeLine n number blank
  | .locked _ => p |> markerChecked n number parity blank |> seeLine n number blank

/-! ### Line starts without the marker flag -/

/-- A line start in SEEKING (R6): a break of the sequence, or line number 1 without the flag, discards the records. -/
def lineSeeking (n : Ix) (number : Nat) (blank : Bool) (p : Part) : Part :=
  let l := p.links.get n
  if number == 1 || outOfSequence l.lastNumber number false then
    modLink n (fun l => { l with cur := none, recorded := none }) p
  else modLink n (fun l => { l with cur := l.cur.map (countLine blank) }) p

/-- A missed marker (R7). -/
def missedMarker (n : Ix) (blank : Bool) (p : Part) : Part :=
  let l := p.links.get n
  let q := bumpLink n (fun c => { c with missedMarkers := bump c.missedMarkers }) p
  let run := l.missedRun + 1
  let q := modLink n (fun l => { l with missedRun := run, window := none }) q
  if 3 ≤ run then toSeeking n none q
  else
    match l.est, l.cur with
    | some e, some c =>
      let par := expectedParity e c.parity
      modLink n (fun l => { l with cur := some (beginPicture par par blank false) }) q
    | _, _ => q

/-- A line start in MEASURING or LOCKED (R7). -/
def lineChecked (n : Ix) (number : Nat) (blank : Bool) (p : Part) : Part :=
  if number = 1 then missedMarker n blank p
  else if outOfSequence (p.links.get n).lastNumber number false then toSeeking n none p
  else modLink n (fun l => { l with cur := l.cur.map (countLine blank) }) p

/-- A line start with the marker flag clear (R1). In DARK it is ignored. -/
def takeLine (n : Ix) (number : Nat) (blank cut : Bool) (p : Part) : Part :=
  let p := truncated n cut p
  match (p.links.get n).state with
  | .dark => p
  | .seeking => p |> lineSeeking n number blank |> seeLine n number blank
  | .measuring => p |> lineChecked n number blank |> seeLine n number blank
  | .locked _ => p |> lineChecked n number blank |> seeLine n number blank

/-! ### Line ends -/

/-- The line check of R2: whether the line is a line error, and what that counts. `captured`: the line is an active
line of the picture now being captured. -/
def checkLine (n : Ix) (captured : Bool) (samples : List LinkSample) (check : BitVec 16) (p : Part) : Part :=
  if check = lineCheck samples then p
  else
    let q := bumpLink n (fun c => { c with lineErrors := bump c.lineErrors }) p
    if captured then modLink n (fun l => { l with lineErrors := saturate 65535 l.lineErrors }) q else q

/-- The line belongs to a picture handed on in LOCKED (R2, R12, R13). -/
def capturesLine (l : LinkRx) (active : Bool) : Bool := active && isLocked l.state && l.cur.any Current.handed

/-- The end of the picture's last active line (R13). -/
def completesPicture (l : LinkRx) (active : Bool) : Bool :=
  capturesLine l active && decide (l.cur.map Current.active = l.est.map Established.active)

/-- The active samples of a line: none on a blanking line (R1, R2). -/
def activeSamples (active : Bool) (samples : List LinkSample) : List LinkSample := if active then samples else []

/-- The end of a line (R1, R2, R13, R33). -/
def takeLineEnd (n : Ix) (samples : List LinkSample) (check : BitVec 16) (p : Part) : Part :=
  let l := p.links.get n
  match l.line with
  | none => p
  | some active =>
    let samples := activeSamples active samples
    let q := modLink n
      (fun l => { l with
        line := none
        cur := if active then l.cur.map (countSamples (lumaCount samples)) else l.cur }) p
    let q := if extracts l.state then checkLine n (capturesLine l active) samples check q else q
    let q := if capturesLine l active then captureLine n ((l.cur.map Current.active).getD 0 - 1) samples q else q
    if completesPicture l active then handCompletion n (q.links.get n).lineErrors q else q

/-! ### Packets -/

/-- The command block that user words spell (Table 47): none with fewer than 4. -/
def blockOf (ws : List Byte) : Option Block :=
  match ws with
  | _ :: tag :: code :: target :: payload => some ⟨tag, code, target, payload⟩
  | _ => none

/-- A lost count raised by one, "saturating at 255" (R168). -/
def countLost (n : Ix) (p : Part) : Part :=
  modMgmt (fun m => { m with lost := m.lost.modify n (saturate 255) }) p

/-- The arrival of a command block at the command queue of INn (R168). A block of fewer than 4 user words at a queue that
holds 8 meets both of R168's discards and both rows of Table 56, which R168 does not say are tested in order: the length is
tested first, and the block counts in SHORT_BLOCKS alone (DESIGN CHOICE, log entry 46). -/
def arrive (n : Ix) (ws : List Byte) (p : Part) : Part :=
  match blockOf ws with
  | none => p |> countLost n |> bumpMgmt (fun c => { c with shortBlocks := bump c.shortBlocks })
  | some b =>
    if Config.commandMax ≤ (p.mgmt.queues.get n).length then
      p |> countLost n |> bumpMgmt (fun c => { c with commandsLost := bump c.commandsLost })
    else modMgmt (fun m => { m with queues := m.queues.modify n (fun bs => bs ++ [b]) }) p

/-- A timecode packet (R16, R148): offered to the current entry of the feed, or counted. -/
def takeTimecode (n : Ix) (ws : List Byte) (p : Part) : Part :=
  match currentEntry p n, lockedCode p n with
  | some e, some code => labelOffer n code e.seq ws p
  | _, _ => bumpLink n (fun c => { c with tcUnattached := bump c.tcUnattached }) p

/-- The action of a routing table for a packet (R140, R141). -/
def routeOf (t : RouteTable) (k : Packet) : RouteAction :=
  match t.entries.find? (fun e => e.kind == k.kind && (e.subkind.isNone || decide (e.subkind = some k.subkind))) with
  | some e => e.action
  | none => t.default

/-- At a full queue the head item is discarded and reported (R144 step 2). -/
def carryRoom (m : Ix) (p : Part) : Part :=
  match (p.lanes.get m).carry with
  | [] => p
  | i :: rest =>
    if Config.carryMax ≤ (i :: rest).length then
      p |> modLane m (fun l => { l with carry := rest })
        |> bumpCarry m (fun c => { c with carryOverflows := bump c.carryOverflows })
        |> report (.ll m) .carryDrop (match i.source with
            | some q => .sequence q
            | none => .none)
    else p

/-- A packet that lane `m` carries joins its queue (R144). -/
def carryPacket (n m : Ix) (k : Packet) (p : Part) : Part :=
  let item : CarryItem := match currentEntry p n with
    | some e => ⟨k, e.stamp, some e.seq, true⟩
    | none => ⟨k, p.timebase, none, true⟩
  p |> carryRoom m
    |> modLane m (fun l => { l with carry := l.carry ++ [item] })
    |> bumpCarry m (fun c => { c with packetsCarried := bump c.packetsCarried })

/-- One lane takes a routing offer of feed `n` (R141). -/
def takeOffer (n : Ix) (k : Packet) (m : Ix) (p : Part) : Part :=
  if isRunning (p.lanes.get m).state then
    match routeOf (p.lanes.get m).route k with
    | .carry => carryPacket n m k p
    | .drop => bumpCarry m (fun c => { c with routeDrops := bump c.routeDrops }) p
  else p

/-- A command block for this device: the first test of R14, of which R15 gives the address. -/
def isCommand (p : Part) (n : Ix) (k : Packet) : Bool :=
  k.kind == 0x61#8 && k.subkind == 0x0B#8 && (p.links.get n).settings.listen
    && (match k.user with
        | a :: _ => a.toNat == p.straps.address.val
        | [] => false)

/-- A packet of the feed's timecode kind: the second test of R14. -/
def isTimecode (p : Part) (n : Ix) (k : Packet) : Bool :=
  k.kind == (p.links.get n).settings.tcKind && k.subkind == (p.links.get n).settings.tcSubkind

/-- The dispatch of an accepted packet: the first of three paths whose test it meets (R14). -/
def dispatch (n : Ix) (k : Packet) (p : Part) : Part :=
  if isCommand p n k then arrive n k.user p
  else if isTimecode p n k then takeTimecode n k.user p
  else forSourcing n (takeOffer n k) p

/-- The words of a packet (R3, R14). -/
def takePacket (n : Ix) (words : List (BitVec 10)) (p : Part) : Part :=
  if extracts (p.links.get n).state then
    match acceptPacket words with
    | some k => dispatch n k p
    | none => packetFailed n p
  else p

end Sys2Proof.Machine
end

