-- ==== Sys2Proof/Machine/Takes.lean ====
section
/-! DEFINITION. The take of a command (R169 to R173): the arbiter, the places reserved, the restart flag, the reply
and the management counters. Each command's own rule is given to it as a function. -/

namespace Sys2Proof.Machine

/-! ### The arbiter -/

/-- The need of a code: 2 for START, COMMIT and RELOCK, "and 1 for every other code, unknown codes included"
(R169). -/
def need (code : Byte) : Nat := if code = 9 ∨ code = 15 ∨ code = 17 then 2 else 1

/-- The block at the head of the command queue of INn. -/
def headBlock (p : Part) (n : Ix) : Option Block := (p.mgmt.queues.get n).head?

/-- Queue n is eligible: not empty, and the reply queue of OUTn has room for the head's need (R169). -/
def eligible (p : Part) (n : Ix) : Bool :=
  match headBlock p n with
  | some b => decide (need b.code ≤ room p n)
  | none => false

/-- The queue that the processor takes from next: the first eligible one, "starting with the one after last-served
and going on cyclically" (R169). -/
def arbiter (p : Part) : Option Ix :=
  let l := p.mgmt.lastServed
  [l + 1, l + 2, l + 3, l].find? (eligible p)

/-- The block that a command spells. -/
def blockOfCommand (code : Byte) (cmd : Command) : Block := ⟨cmd.tag, code, cmd.target, cmd.payload⟩

/-- The user words of a command block to this device (Table 47, R15). -/
def commandWords (p : Part) (code : Byte) (cmd : Command) : List Byte :=
  word p.straps.address.val :: cmd.tag :: code :: cmd.target :: cmd.payload

/-- The packet that carries a command block to this device. -/
def commandPacket (p : Part) (code : Byte) (cmd : Command) : Packet := ⟨0x61#8, 0x0B#8, commandWords p code cmd⟩

/-- A command is sent: its packet arrives whole on its link and is dispatched as any packet is (R14, R15, R168). On a
link that is not in MEASURING or LOCKED it is not extracted, and not counted as lost (R14, R179). -/
def present (code : Byte) (cmd : Command) (p : Part) : Part :=
  if extracts (p.links.get cmd.link).state then dispatch cmd.link (commandPacket p code cmd) p else p

/-- The processor takes this command now: it is the head of the queue that the arbiter serves (R169). -/
def isTaken (code : Byte) (cmd : Command) (p : Part) : Bool :=
  decide (arbiter p = some cmd.link) && decide (headBlock p cmd.link = some (blockOfCommand code cmd))

/-- Steps 1 to 3 of a take (R169): the block leaves the queue, the need is reserved, the restart flag is read by the
caller and cleared. -/
def openTake (code : Byte) (n : Ix) (p : Part) : Part :=
  p |> modMgmt (fun m =>
        { m with queues := m.queues.modify n (fun bs => bs.drop 1), lastServed := n, restart := false })
    |> reservePlaces n (need code)

/-- Step 5 of a take (R169). -/
def countTake (refused : Bool) (p : Part) : Part :=
  bumpMgmt (fun c =>
    { c with
      commandsTaken := bump c.commandsTaken
      commandsRefused := if refused then bump c.commandsRefused else c.commandsRefused }) p

/-! ### Answers -/

/-- Why a command is refused, and the payload of the refusal: empty but for that of Table 45 (R171). -/
structure Denied where
  status : Refused
  payload : List Byte
deriving DecidableEq, Repr

/-- A refusal with an empty payload. -/
def deny {α : Type} (s : Refused) : Except Denied α := .error ⟨s, []⟩

/-- What the rule of an immediate command gives: a refusal, or the part as the command leaves it with the payload of
its DONE COMPLETE (R171). -/
abbrev Verdict := Except Denied (Part × List Byte)

/-- The reply of an immediate command carried out. -/
def doneReply (cmd : Command) (code : Byte) (restart : Bool) (payload : List Byte) : Reply :=
  ⟨cmd.tag, code, .done, doneWord .complete, restart, payload⟩

/-- The reply of a command refused. -/
def refusedReply (cmd : Command) (code : Byte) (restart : Bool) (d : Denied) : Reply :=
  ⟨cmd.tag, code, .refused, refusedWord d.status, restart, d.payload⟩

/-- The first reply of a time-taking command accepted. -/
def acceptedReply (cmd : Command) (code : Byte) (restart : Bool) : Reply := ⟨cmd.tag, code, .accepted, 0, restart, []⟩

/-- Step 4 and 5 of the take of an immediate command, and its reply (R170, R171). `restart` is the flag read at the
take. A refusal leaves the part as it stood. -/
def answerNow (code : Byte) (cmd : Command) (restart : Bool) (rule : Part → Verdict) (p : Part) : Part :=
  match rule p with
  | .ok (q, payload) => q |> postReply cmd.link (doneReply cmd code restart payload) |> countTake false
  | .error d => p |> postReply cmd.link (refusedReply cmd code restart d) |> countTake true

/-- The take of an immediate command. -/
def takeImmediate (code : Byte) (cmd : Command) (rule : Part → Verdict) (p : Part) : Part :=
  answerNow code cmd p.mgmt.restart rule (openTake code cmd.link p)

/-- The target of a pending-operation record (R174). -/
inductive OpTarget where
  | lane (n : Ix)
  | output (n : Ix)
deriving DecidableEq, Repr

/-- The record of a target filled: "in the event of its take, after the ACCEPTED is posted" (R174). -/
def fillRecord (t : OpTarget) (op : PendingOp) (p : Part) : Part :=
  match t with
  | .lane n => modMgmt (fun m => { m with laneOps := m.laneOps.set n (some op) }) p
  | .output n => modMgmt (fun m => { m with outOps := m.outOps.set n (some op) }) p

/-- Step 4 and 5 of the take of a time-taking command (R170, R174): refused, one place is used and the other released;
accepted, ACCEPTED is posted, the record filled, and the operation begun. -/
def answerTimed (code : Byte) (kind : PendingKind) (cmd : Command) (restart : Bool)
    (test : Part → Except Denied OpTarget) (start : OpTarget → Part → Part) (p : Part) : Part :=
  match test p with
  | .ok t =>
    p |> postReply cmd.link (acceptedReply cmd code restart)
      |> fillRecord t ⟨kind, cmd.link, cmd.tag, code, restart⟩
      |> start t
      |> countTake false
  | .error d =>
    p |> postReply cmd.link (refusedReply cmd code restart d) |> unreserve cmd.link |> countTake true

/-- The take of a time-taking command. -/
def takeTimed (code : Byte) (kind : PendingKind) (cmd : Command) (test : Part → Except Denied OpTarget)
    (start : OpTarget → Part → Part) (p : Part) : Part :=
  answerTimed code kind cmd p.mgmt.restart test start (openTake code cmd.link p)

/-! ### Tests that many owners make -/

/-- The target is the device and the payload empty (R176, R177, R57, R137, R186). -/
def deviceEmpty (cmd : Command) (k : Verdict) : Verdict :=
  if targetOf cmd.target ≠ .device then deny .badTarget
  else if cmd.payload ≠ [] then deny .badLength
  else k

/-- The feed that a command targets. -/
def feedTarget (cmd : Command) : Option Ix :=
  match targetOf cmd.target with
  | .feed n => some n
  | _ => none

/-- The lane that a command targets. -/
def laneTarget (cmd : Command) : Option Ix :=
  match targetOf cmd.target with
  | .lane n => some n
  | _ => none

/-- The output that a command targets. -/
def outTarget (cmd : Command) : Option Ix :=
  match targetOf cmd.target with
  | .output n => some n
  | _ => none

/-- The log that a command targets. -/
def logTarget (cmd : Command) : Option LogId :=
  match targetOf cmd.target with
  | .log l => some l
  | _ => none

end Sys2Proof.Machine
end

