-- ==== Sys2Proof/Machine/Status.lean ====
section
/-! DEFINITION. The payloads of QUERY STATUS and QUERY COUNTERS (Tables 11, 12, 15, 16, 19, 20, 24, 25, 29, 30, 35,
36, 40, 41, 46, 55, 56 and 61), each word at its value at the take (R19, R40, R41, R59, R60, R83, R84, R118, R138,
R139, R155, R156, R167, R177, R178, R186). -/

namespace Sys2Proof.Machine

/-- A counter as four words. -/
def counterWords (cs : List Nat) : List Byte := cs.flatMap (beWords 4)

/-! ### Feeds -/

/-- Table 12. -/
def linkStatus (l : LinkRx) : List Byte :=
  [word (linkStateWord l.state), word (linkCodeWord l.state), word ((l.lastCode.map stdNumber).getD 0), word l.missedRun]
    ++ settingsWords l.settings

/-- Table 16. -/
def captureStatus (f : Feed) : List Byte :=
  [flagWord f.captureOn, word f.history.length, flagWord f.lastStamp.isSome] ++ beWordsInt 8 (f.lastStamp.getD 0)
    ++ beWordsInt 4 f.dPrev ++ beWords 2 f.segment ++ beWords 4 f.nextSeq

/-- The status of a feed: 31 words (R177). -/
def feedStatus (p : Part) (n : Ix) : List Byte := linkStatus (p.links.get n) ++ captureStatus (p.feeds.get n)

/-- Table 11. -/
def linkCounters (c : LinkCounters) : List Nat :=
  [c.lineErrors, c.packetErrors, c.missedMarkers, c.unidentified, c.identified, c.lockLosses, c.tcUnattached]

/-- Table 15. -/
def feedCounters (c : FeedCounters) : List Nat :=
  [c.picturesStamped, c.picturesCompleted, c.holesMissed, c.holesNoBuffer, c.holesDiscarded, c.holesAbandoned,
   c.reanchors, c.flushes]

/-! ### Lanes -/

/-- The fallback word of Table 25. -/
def fallbackWord (f : Option Fallback) : Nat :=
  match f with
  | none => 0
  | some f => if f.poisonedFrom.isSome then 2 else 1

/-- Table 25. -/
def jobStatus (j : JobRec) : List Byte :=
  [flagWord j.inFlight, word (caseWord j.kase), word (j.phase.getD 0), word (tapWord j.tm1.state),
   word (tapWord j.t0.state), word (tapWord j.t1.state), word (tapWord j.t2.state), word (fallbackWord j.fallback),
   flagWord j.motionValid]
    ++ beWords 4 ((j.t0.entry.map Entry.seq).getD 0) ++ beWordsInt 8 (j.target.getD 0)

/-- Table 36. -/
def controlStatus (p : Part) (n : Ix) : List Byte :=
  let l := p.lanes.get n
  [word (laneStateWord l.state), flagWord (laneOpKind p n == some .start), flagWord l.usable, flagWord p.mute]
    ++ beWords 2 l.holdCount ++ beWords 8 (l.acquireAt.getD 0) ++ profileWords l.profile

/-- Table 41. -/
def carriageStatus (l : Lane) : List Byte :=
  [word (tcModeWord l.profile.tcMode)] ++ beWords 3 l.tcCount ++ [flagWord l.fresh]
    ++ (match l.lastLabel with
        | some lab => labelWords lab
        | none => [0, 0, 0, 0, 0])
    ++ [word l.carry.length, word l.route.entries.length,
        word (match l.route.default with | .carry => 0 | .drop => 1)]
    ++ (match l.carry with
        | [] => [0] ++ beWords 4 0 ++ beWords 8 0
        | i :: _ => [if i.source.isSome then 1 else 2] ++ beWords 4 (i.source.getD 0) ++ beWordsInt 8 i.stamp)

/-- The table mask of a commit record (Table 46). -/
def commitMask (c : Option CommitRec) : Nat :=
  match c with
  | none => 0
  | some c => (if c.tt.isSome then 1 else 0) + (if c.hc.isSome then 2 else 0) + (if c.vc.isSome then 4 else 0)

/-- Table 46. -/
def tableStatus (l : Lane) : List Byte :=
  [flagWord l.commit.isSome, word (commitMask l.commit)]
    ++ beWords 2 l.tables.tt.crc.toNat ++ beWords 2 l.tables.hc.crc.toNat ++ beWords 2 l.tables.vc.crc.toNat

/-- The status of a lane: 93 words (R177). -/
def laneStatus (p : Part) (n : Ix) : List Byte :=
  let l := p.lanes.get n
  jobStatus l.job ++ controlStatus p n ++ carriageStatus l ++ tableStatus l

/-- Table 24. -/
def jobCounters (c : JobCounters) : List Nat :=
  [c.jobsStarted, c.bracketJobs, c.earlyClamps, c.lateClamps, c.frozenJobs, c.slateJobs, c.substitutedJobs,
   c.fallbackJobs, c.poisonedTaps, c.jobsAbandoned]

/-- Table 35. -/
def laneCounters (c : LaneCounters) : List Nat :=
  [c.startsAccepted, c.acquisitions, c.acquireTimeouts, c.holdEntries, c.heldJobs, c.slateEntries, c.stops, c.faults]

/-- Table 40. -/
def carryCounters (c : CarryCounters) : List Nat :=
  [c.packetsCarried, c.routeDrops, c.carryOverflows, c.packetsDelivered, c.itemsFlushed, c.tcEmitted, c.tcReseeds,
   c.labelsInvalid]

/-! ### Outputs -/

/-- The words 25..29 and 30..34 of Table 30 for one reference input. -/
def refStatus (v : RefInput) : List Byte := [flagWord v.present] ++ beWords 4 (v.pr.getD 0)

/-- The words of Table 30 that follow from the lock state: its number, Pm or Ph, and k. -/
def lockWords (l : Lock) : Nat × Int × Nat :=
  match l with
  | .free => (0, 0, 0)
  | .locked al => (1, (al.pm : Int), al.k + (if al.faster then 128 else 0))
  | .holdover ph => (2, ph, 0)

/-- The parity word of Table 30. -/
def parityWord (b : Boundary) : Nat :=
  match b.parity with
  | some q => parityNumber q
  | none => 2

/-- The status of an output: Table 30, 35 words (R118, R177). -/
def outStatus (p : Part) (n : Ix) : List Byte :=
  let o := p.outs.get n
  let w := lockWords o.lock
  [word w.1, word (selectWord o.select)] ++ beWords 3 o.offset
    ++ [word (match o.policy with | .auto => 0 | .latched => 1), word (stdNumber o.standard), word (parityWord o.last)]
    ++ beWordsInt 8 o.last.instant ++ beWordsInt 4 w.2.1
    ++ [word w.2.2, flagWord o.relockPending, word o.replies.length, word o.reserved, word o.notices.length]
    ++ refStatus p.refA ++ refStatus p.refB

/-- Table 29. -/
def outCounters (c : OutCounters) : List Nat :=
  [c.boundaries, c.alignments, c.phaseSteps, c.holdoverEntries, c.standardChanges, c.repliesSent, c.noticesSent]

/-! ### The device -/

/-- Slots in a state. -/
def countSlots (p : Part) (s : SlotState) : Nat := p.store.slots.toList.countP (fun r => r.state == s)

/-- The highest correctable-error count of any slot. -/
def worstCount (p : Part) : Nat := p.store.slots.toList.foldl (fun m r => max m r.corrected) 0

/-- The lowest-numbered slot that holds the highest count; 0 when that count is 0 (Table 20). -/
def worstSlot (p : Part) : Nat :=
  if worstCount p = 0 then 0 else p.store.slots.toList.findIdx (fun r => r.corrected == worstCount p)

/-- Table 20. -/
def storeStatus (p : Part) : List Byte :=
  [flagWord (!p.store.initRunning), word p.store.initNext, word (countSlots p .uninitialized),
   word (countSlots p .free), word (countSlots p .filling), word (countSlots p .history),
   word (countSlots p .retiring), word (countSlots p .quarantined)]
    ++ allIx.map (fun n => word (heldBy p n))
    ++ [word (p.store.slots.toList.countP SlotRec.poisoned), word (worstCount p), word (worstSlot p),
        flagWord p.fault.deviceFatal]

/-- Table 55; `restart` is the flag as read at this command's take. -/
def managementStatus (p : Part) (restart : Bool) : List Byte :=
  [flagWord restart] ++ allIx.map (fun n => word (p.mgmt.queues.get n).length)
    ++ allIx.map (fun n => word (p.mgmt.lost.get n)) ++ [word p.mgmt.lastServed.val]
    ++ allIx.map (fun n => word (pendingWord (p.mgmt.laneOps.get n)))
    ++ allIx.map (fun n => word (pendingWord (p.mgmt.outOps.get n)))
    ++ [word p.straps.address.val, word (stdNumber (strapStd p.straps))]

/-- The log word of Table 61. -/
def logWord (l : Option LogRec) : Byte := word ((l.map (fun r => severityWord r.severity)).getD 0)

/-- The nine logs in the order of Table 61. -/
def allLogs : List LogId := allIx.map LogId.fl ++ allIx.map LogId.ll ++ [.dl]

/-- Table 61. -/
def faultStatus (p : Part) : List Byte :=
  [flagWord p.fault.alarm] ++ beWords 2 p.fault.mask.toNat ++ [word p.fault.latches.length]
    ++ allLogs.map (fun l => logWord (getLog l p))

/-- The status of the device: the store, management and fault parts (R177). -/
def deviceStatus (p : Part) (restart : Bool) : List Byte :=
  storeStatus p ++ managementStatus p restart ++ faultStatus p

/-- Table 19. -/
def storeCounters (c : StoreCounters) : List Nat :=
  [c.allocations, c.refusedCeiling, c.refusedEmpty, c.correctedReads, c.uncorrectableReads, c.quarantineEntries,
   c.quarantineReleases]

/-- Table 56. -/
def mgmtCounters (c : MgmtCounters) : List Nat :=
  [c.commandsTaken, c.commandsRefused, c.commandsLost, c.shortBlocks, c.badCodes]

/-! ### By target -/

/-- The counters of a target, in the order of R178; none for a log or an unused value. -/
def countersOf (t : Target) (p : Part) : Option (List Nat) :=
  match t with
  | .device => some (storeCounters p.store.ctr ++ mgmtCounters p.mgmt.ctr)
  | .feed n => some (linkCounters (p.links.get n).ctr ++ feedCounters (p.feeds.get n).ctr)
  | .lane n =>
    let l := p.lanes.get n
    some (jobCounters l.jobCtr ++ laneCounters l.laneCtr ++ carryCounters l.carryCtr)
  | .output n => some (outCounters (p.outs.get n).ctr)
  | .log _ => none
  | .unused => none

/-- Every counter of a target set to 0 (R19, R40, R59, R83, R118, R138, R155, R178). -/
def clearCounters (t : Target) (p : Part) : Part :=
  match t with
  | .device =>
    p |> modStore (fun st => { st with ctr := ⟨0, 0, 0, 0, 0, 0, 0⟩ }) |> modMgmt (fun m => { m with ctr := ⟨0, 0, 0, 0, 0⟩ })
  | .feed n =>
    p |> modLink n (fun l => { l with ctr := ⟨0, 0, 0, 0, 0, 0, 0⟩ })
      |> modFeed n (fun f => { f with ctr := ⟨0, 0, 0, 0, 0, 0, 0, 0⟩ })
  | .lane n =>
    modLane n (fun l => { l with
      jobCtr := ⟨0, 0, 0, 0, 0, 0, 0, 0, 0, 0⟩
      laneCtr := ⟨0, 0, 0, 0, 0, 0, 0, 0⟩
      carryCtr := ⟨0, 0, 0, 0, 0, 0, 0, 0⟩ }) p
  | .output n => modOut n (fun o => { o with ctr := ⟨0, 0, 0, 0, 0, 0, 0⟩ }) p
  | .log _ => p
  | .unused => p

/-- The status of a target (R177); none for a log or an unused value. -/
def statusOf (t : Target) (p : Part) (restart : Bool) : Option (List Byte) :=
  match t with
  | .device => some (deviceStatus p restart)
  | .feed n => some (feedStatus p n)
  | .lane n => some (laneStatus p n)
  | .output n => some (outStatus p n)
  | .log _ => none
  | .unused => none

end Sys2Proof.Machine
end

