-- ==== Sys2Proof/Machine/DeviceCommands.lean ====
section
/-! DEFINITION. The commands that the management unit and the store own: IDENTIFY, QUERY_STATUS, QUERY_COUNTERS,
DEVICE_RESET, RELEASE_QUARANTINE, MUTE, UNMUTE and BAD_CODE (R57, R137, R171, R176 to R179). -/

namespace Sys2Proof.Machine

/-- Table 54. -/
def identifyPayload (p : Part) : List Byte :=
  [72, 75, 17, 68, 1, 64, 4, word p.straps.address.val, word (stdNumber (strapStd p.straps))]

/-- The rule of IDENTIFY (R176). -/
def ruleIdentify (cmd : Command) (p : Part) : Verdict := deviceEmpty cmd (.ok (p, identifyPayload p))

/-- The take of IDENTIFY (R176). -/
def takeIdentify (cmd : Command) : Part → Part := takeImmediate 1 cmd (ruleIdentify cmd)

/-- The rule of QUERY STATUS (R177); `restart` is the flag as read at the take. -/
def ruleQueryStatus (restart : Bool) (cmd : Command) (p : Part) : Verdict :=
  match statusOf (targetOf cmd.target) p restart with
  | none => deny .badTarget
  | some ws => if cmd.payload ≠ [] then deny .badLength else .ok (p, ws)

/-- The take of QUERY STATUS (R177, R19, R41, R60, R84, R118, R139, R156, R167, R186). -/
def takeQueryStatus (cmd : Command) (p : Part) : Part :=
  takeImmediate 2 cmd (ruleQueryStatus p.mgmt.restart cmd) p

/-- The rule of QUERY COUNTERS (R178). -/
def ruleQueryCounters (cmd : Command) (p : Part) : Verdict :=
  match countersOf (targetOf cmd.target) p with
  | none => deny .badTarget
  | some cs =>
    match cmd.payload with
    | [w] =>
      if w.toNat = 0 then .ok (p, counterWords cs)
      else if w.toNat = 1 then .ok (clearCounters (targetOf cmd.target) p, counterWords cs)
      else deny .badValue
    | _ => deny .badLength

/-- The take of QUERY COUNTERS (R178, R19, R40, R59, R83, R118, R138, R155). -/
def takeQueryCounters (cmd : Command) : Part → Part := takeImmediate 3 cmd (ruleQueryCounters cmd)

/-! ### DEVICE RESET -/

/-- The store after DEVICE RESET: QUARANTINED records that pass their check are kept, the rest reset (R45). -/
def deviceResetStore (st : Store) : Store := beginInit (st.slots.map deviceResetSlot) st.mem st.ecc

/-- 16 or more slots kept by DEVICE RESET latch and report POOL_DEGRADED (R56). The notice of it goes out in the picture
that each output's first boundary begins "at the instant the reset ends" (R106, R116; log entry 8). -/
def degradeAtReset (p : Part) : Part :=
  if 16 ≤ p.store.quarantine then p |> poolDegrade |> forEach (fun n => placeNotice n 0) else p

/-- The part after DEVICE RESET (R179): as pin reset leaves it, with the straps not sampled again and the slots kept
that R45 keeps. -/
def deviceReset (p : Part) : Part :=
  degradeAtReset (resetPart p.straps (activityOf p) (deviceResetStore p.store))

/-- The take of DEVICE RESET: refused like any other command, or the reset with no reply (R170, R179). The reset is step
4 of the take, and step 5 counts the command in COMMANDS_TAKEN after it (R169; log entry 9). -/
def takeDeviceReset (cmd : Command) (p : Part) : Part :=
  if targetOf cmd.target ≠ .device then takeImmediate 4 cmd (fun _ => deny .badTarget) p
  else if cmd.payload ≠ [] then takeImmediate 4 cmd (fun _ => deny .badLength) p
  else p |> openTake 4 cmd.link |> deviceReset |> countTake false

/-! ### RELEASE QUARANTINE -/

/-- Every QUARANTINED slot released, in ascending slot number (R57). -/
def releaseAll (p : Part) : Part := forAll allSlots releaseQuarantined p

/-- The rule of RELEASE QUARANTINE (R57). -/
def ruleReleaseQuarantine (cmd : Command) (p : Part) : Verdict :=
  deviceEmpty cmd
    (if p.fault.deviceFatal then deny .wrongState
     else if p.store.initRunning then deny .wrongState
     else
       let q := releaseAll p
       .ok (q, [word (p.store.quarantine - q.store.quarantine)]))

/-- The take of RELEASE QUARANTINE (R57, R58). -/
def takeReleaseQuarantine (cmd : Command) : Part → Part := takeImmediate 7 cmd (ruleReleaseQuarantine cmd)

/-! ### Muting -/

/-- The rule of MUTE (R137). -/
def ruleMute (cmd : Command) (p : Part) : Verdict := deviceEmpty cmd (.ok ({ p with mute := true }, []))

/-- The take of MUTE (R137). -/
def takeMute (cmd : Command) : Part → Part := takeImmediate 12 cmd (ruleMute cmd)

/-- The rule of UNMUTE (R137). -/
def ruleUnmute (cmd : Command) (p : Part) : Verdict := deviceEmpty cmd (.ok ({ p with mute := false }, []))

/-- The take of UNMUTE (R137). -/
def takeUnmute (cmd : Command) : Part → Part := takeImmediate 13 cmd (ruleUnmute cmd)

/-! ### Unknown codes -/

/-- A code of Table 52. -/
def isTableCode (code : Byte) : Bool := decide (1 ≤ code.toNat ∧ code.toNat ≤ 25)

/-- The take of a command whose code is not in Table 52 (R171). -/
def takeBadCode (code : Byte) (cmd : Command) (p : Part) : Part :=
  openTake code cmd.link p
    |> report .dl .badCode .none
    |> bumpMgmt (fun c => { c with badCodes := bump c.badCodes })
    |> postReply cmd.link (refusedReply cmd code p.mgmt.restart ⟨.badCode, []⟩)
    |> countTake true

end Sys2Proof.Machine
end

