-- ==== Sys2Proof/Machine/FaultCommands.lean ====
section
/-! DEFINITION. The commands that the fault unit owns: QUERY_LOG, CLEAR_LOG, QUERY_CONDITIONS, ACK_CONDITIONS and
SET_ALARM_MASK (R182, R183, R185, R186, R187). -/

namespace Sys2Proof.Machine

/-! ### Logs -/

/-- Table 58. -/
def logWords (l : Option LogRec) : List Byte :=
  match l with
  | none => List.replicate 19 0
  | some r =>
    [1, word (errNumber r.code), word (severityWord r.severity)] ++ beWords 8 r.time ++ detailWords r.detail
      ++ [flagWord r.overflow, word r.later, flagWord r.read]

/-- The record of a log returned: its read flag is set (R182). -/
def markRead (l : Option LogRec) : Option LogRec := l.map (fun r => { r with read := true })

/-- The rule of QUERY LOG (R182). -/
def ruleQueryLog (cmd : Command) (p : Part) : Verdict :=
  match logTarget cmd with
  | none => deny .badTarget
  | some l => if cmd.payload ≠ [] then deny .badLength else .ok (modLog l markRead p, logWords (getLog l p))

/-- The take of QUERY LOG (R182). -/
def takeQueryLog (cmd : Command) : Part → Part := takeImmediate 21 cmd (ruleQueryLog cmd)

/-- The rule of CLEAR LOG (R183). -/
def ruleClearLog (cmd : Command) (p : Part) : Verdict :=
  match logTarget cmd with
  | none => deny .badTarget
  | some l =>
    if cmd.payload ≠ [] then deny .badLength
    else match getLog l p with
      | none => .ok (p, [])
      | some r => if r.read then .ok (modLog l (fun _ => none) p, []) else deny .stale

/-- The take of CLEAR LOG (R183). -/
def takeClearLog (cmd : Command) : Part → Part := takeImmediate 22 cmd (ruleClearLog cmd)

/-! ### Conditions -/

/-- The three words of a set latch in Table 60. -/
def latchWords (p : Part) (c : Cond) : List Byte := [condOwner c, word (condKind c), flagWord (causePresent p c)]

/-- Table 60. -/
def conditionWords (p : Part) : List Byte :=
  [flagWord p.fault.alarm] ++ beWords 2 p.fault.mask.toNat ++ [word p.fault.latches.length]
    ++ p.fault.latches.flatMap (latchWords p)

/-- The rule of QUERY CONDITIONS (R186). -/
def ruleQueryConditions (cmd : Command) (p : Part) : Verdict := deviceEmpty cmd (.ok (p, conditionWords p))

/-- The take of QUERY CONDITIONS (R186). -/
def takeQueryConditions (cmd : Command) : Part → Part := takeImmediate 23 cmd (ruleQueryConditions cmd)

/-- The conditions that a payload names; none where a pair names no latch (R185). -/
def parsePairs : List Byte → Option (List Cond)
  | [] => some []
  | owner :: kind :: rest =>
    match condOf owner kind, parsePairs rest with
    | some c, some cs => some (c :: cs)
    | _, _ => none
  | _ => none

/-- One pair of an acknowledgement: a set latch whose cause is not present is cleared (R185). -/
def ackOne (c : Cond) (p : Part) : Part := if causePresent p c then p else latchClear c p

/-- The latches that are set, as ACK CONDITIONS lists them (R185). -/
def latchList (p : Part) : List Byte :=
  word p.fault.latches.length :: p.fault.latches.flatMap (fun c => [condOwner c, word (condKind c)])

/-- The pairs taken in payload order, then the alarm line (R185). -/
def ackAll (cs : List Cond) (p : Part) : Part := p |> forAll cs ackOne |> alarmEval

/-- The payload length of ACK CONDITIONS: even, and in 2..60 (R185). -/
def ackLength (ws : List Byte) : Bool :=
  decide (ws.length % 2 = 0) && decide (2 ≤ ws.length) && decide (ws.length ≤ 60)

/-- The rule of ACK CONDITIONS (R185). -/
def ruleAckConditions (cmd : Command) (p : Part) : Verdict :=
  if targetOf cmd.target ≠ .device then deny .badTarget
  else if ackLength cmd.payload = false then deny .badLength
  else match parsePairs cmd.payload with
    | none => deny .badValue
    | some cs => .ok (ackAll cs p, latchList (ackAll cs p))

/-- The take of ACK CONDITIONS (R185). -/
def takeAckConditions (cmd : Command) : Part → Part := takeImmediate 24 cmd (ruleAckConditions cmd)

/-! ### Alarm mask -/

/-- The mask replaced and the alarm line re-evaluated (R187). -/
def storeMask (v : Nat) (p : Part) : Part := p |> modFault (fun u => { u with mask := BitVec.ofNat 9 v }) |> alarmEval

/-- The rule of SET ALARM MASK (R187). -/
def ruleSetAlarmMask (cmd : Command) (p : Part) : Verdict :=
  if targetOf cmd.target ≠ .device then deny .badTarget
  else match cmd.payload with
    | [hi, lo] =>
      let v := hi.toNat * 256 + lo.toNat
      if 511 < v then deny .badValue else .ok (storeMask v p, [])
    | _ => deny .badLength

/-- The take of SET ALARM MASK (R187). -/
def takeSetAlarmMask (cmd : Command) : Part → Part := takeImmediate 25 cmd (ruleSetAlarmMask cmd)

end Sys2Proof.Machine
end

