-- ==== Sys2Proof/Machine/FeedCommands.lean ====
section
/-! DEFINITION. The commands that act on a feed: SET_FEED and FEED_RESET (R18, R38). -/

namespace Sys2Proof.Machine

/-- The policy of a policy word (Table 9). -/
def policyOf (w : Byte) : Option Policy :=
  if w.toNat = 0 then some .contain else if w.toNat = 1 then some .pass else none

/-- A packet kind and subkind that the management forms use (chapter 10). -/
def isManagementForm (kind subkind : Byte) : Bool :=
  kind == 0x61#8 && (subkind == 0x0B#8 || subkind == 0x0C#8 || subkind == 0x0D#8)

/-- The settings of a SET FEED payload of six words (Table 9); none where a word is out of range, or the timecode
form is a management form (R18). -/
def parseSettings (listen policy div threshold kind subkind : Byte) : Option Settings :=
  match policyOf policy with
  | none => none
  | some pol =>
    if listen.toNat ≤ 1 ∧ div.toNat ∈ [4, 8, 16, 32, 64] ∧ 1 ≤ threshold.toNat
        ∧ isManagementForm kind subkind = false then
      some ⟨decide (listen.toNat = 1), pol, div.toNat, threshold.toNat, kind, subkind⟩
    else none

/-- The rule of SET FEED (R18). -/
def ruleSetFeed (cmd : Command) (p : Part) : Verdict :=
  match feedTarget cmd with
  | none => deny .badTarget
  | some n =>
    match cmd.payload with
    | [listen, policy, div, threshold, kind, subkind] =>
      match parseSettings listen policy div threshold kind subkind with
      | none => deny .badValue
      | some v => .ok (modLink n (fun l => { l with settings := v }) p, [])
    | _ => deny .badLength

/-- The take of SET FEED (R18). -/
def takeSetFeed (cmd : Command) : Part → Part := takeImmediate 5 cmd (ruleSetFeed cmd)

/-- The rule of FEED RESET (R38). -/
def ruleFeedReset (cmd : Command) (p : Part) : Verdict :=
  match feedTarget cmd with
  | none => deny .badTarget
  | some n => if cmd.payload ≠ [] then deny .badLength else .ok (flushFeed n p, [])

/-- The take of FEED RESET (R37, R38). -/
def takeFeedReset (cmd : Command) : Part → Part := takeImmediate 6 cmd (ruleFeedReset cmd)

end Sys2Proof.Machine
end

