-- ==== Sys2Proof/Machine/OutputCommands.lean ====
section
/-! DEFINITION. The commands that act on an output: SET_OUTPUT and RELOCK (R113, R114). -/

namespace Sys2Proof.Machine

/-- The reference select of a select word (Table 28). -/
def selectOf (w : Byte) : Option (Option RefId) :=
  if w.toNat = 0 then some none
  else if w.toNat = 1 then some (some .a)
  else if w.toNat = 2 then some (some .b)
  else none

/-- The relock policy of a policy word (Table 28). -/
def relockPolicyOf (w : Byte) : Option RelockPolicy :=
  if w.toNat = 0 then some .auto else if w.toNat = 1 then some .latched else none

/-- The three output settings replaced; a changed select sets the output FREE (R114). -/
def storeOutput (select : Option RefId) (offset : Nat) (policy : RelockPolicy) (o : OutUnit) : OutUnit :=
  { o with
    select := select
    offset := offset
    policy := policy
    lock := if select = o.select then o.lock else .free }

/-- The rule of SET OUTPUT (R114). -/
def ruleSetOutput (cmd : Command) (p : Part) : Verdict :=
  match outTarget cmd with
  | none => deny .badTarget
  | some n =>
    match cmd.payload with
    | [sel, a, b, c, pol] =>
      match selectOf sel, relockPolicyOf pol with
      | some select, some policy =>
        let offset := wordsValue [a, b, c]
        if outPeriod (p.outs.get n) ≤ offset then deny .badValue
        else if (p.outs.get n).relockPending then deny .busy
        else .ok (modOut n (storeOutput select offset policy) p, [])
      | _, _ => deny .badValue
    | _ => deny .badLength

/-- The take of SET OUTPUT (R114). -/
def takeSetOutput (cmd : Command) : Part → Part := takeImmediate 16 cmd (ruleSetOutput cmd)

/-- The tests of RELOCK (R113). -/
def testRelock (cmd : Command) (p : Part) : Except Denied OpTarget :=
  match outTarget cmd with
  | none => deny .badTarget
  | some n =>
    if cmd.payload ≠ [] then deny .badLength
    else if (p.outs.get n).relockPending then deny .busy
    else .ok (.output n)

/-- An accepted RELOCK: it ends at once outside HOLDOVER, and waits there (R113). -/
def relockOutput (n : Ix) (p : Part) : Part :=
  match (p.outs.get n).lock with
  | .free => endOutOp n .complete p
  | .locked _ => endOutOp n .complete p
  | .holdover _ => modOut n (fun o => { o with relockPending := true }) p

/-- The RELOCK of an operation's target is begun. -/
def beginRelock (_cmd : Command) (t : OpTarget) (p : Part) : Part :=
  match t with
  | .lane _ => p
  | .output n => relockOutput n p

/-- The take of RELOCK (R113). -/
def takeRelock (cmd : Command) : Part → Part := takeTimed 17 .relock cmd (testRelock cmd) (beginRelock cmd)

end Sys2Proof.Machine
end

