-- ==== Sys2Proof/Machine/LaneCommands.lean ====
section
/-! DEFINITION. The commands that act on a lane: SET_LANE, START, STOP, RESUME, SET_ROUTE, SEED_TIMECODE, and HALT,
which acts on a lane or an output (R113, R120, R125, R126, R132, R133, R136, R142, R154, R164, R175). -/

namespace Sys2Proof.Machine

/-! ### SET LANE -/

/-- The value of two payload words, most significant first. -/
def pairValue (hi lo : Byte) : Nat := hi.toNat * 256 + lo.toNat

/-- A slate component as it is stored: "clamped to 4..1019" (R120). -/
def clampSlate (v : Nat) : Nat := if v < 4 then 4 else if 1019 < v then 1019 else v

/-- The timecode mode of a mode word (Table 32). -/
def tcModeOf (w : Byte) : Option TcMode :=
  if w.toNat = 0 then some .off else if w.toNat = 1 then some .free else if w.toNat = 2 then some .follow else none

/-- The source feed of a payload word (Table 32). -/
def sourceOf (w : Byte) : Option Ix := if h : w.toNat < 4 then some ⟨w.toNat, h⟩ else none

/-- Every field but the slate colour lies in its range of Table 31. -/
def profileInRange (p : Profile) : Bool :=
  decide (p.latency ≤ 21600000) && decide (p.theta1 ≤ p.theta2) && decide (p.theta2 ≤ p.theta3)
    && decide (p.theta3 ≤ 1023) && decide (p.holdLimit ≤ 1500)
    && decide (1 ≤ p.acquireTimeout) && decide (p.acquireTimeout ≤ 600)

/-- The payload words from `i` on as a value of `k` words. -/
def fieldAt (ws : List Byte) (i k : Nat) : Nat := wordsValue ((ws.drop i).take k)

/-- The profile of a SET LANE payload of 24 words (Table 32); none where a field is out of range (R120). -/
def parseProfile (ws : List Byte) : Option Profile :=
  match sourceOf (ws.getD 0 0), stdOfNumber (ws.getD 1 0).toNat, stdOfNumber (ws.getD 2 0).toNat,
      tcModeOf (ws.getD 23 0) with
  | some source, some input, some output, some mode =>
    let v : Profile :=
      { source := source
        input := input
        output := output
        latency := fieldAt ws 3 4
        theta1 := fieldAt ws 7 2
        theta2 := fieldAt ws 9 2
        theta3 := fieldAt ws 11 2
        holdLimit := fieldAt ws 13 2
        slateY := clampSlate (fieldAt ws 15 2)
        slateCb := clampSlate (fieldAt ws 17 2)
        slateCr := clampSlate (fieldAt ws 19 2)
        acquireTimeout := fieldAt ws 21 2
        tcMode := mode }
    if profileInRange v then some v else none
  | _, _, _, _ => none

/-- Label rate of a standard (Table 2). -/
def rateOf (s : Std) : LabelRate := (stdRow s).rate

/-- The lane with its profile replaced (R120): an output standard of another label rate sets C to 0 and the fresh flag
(R151). -/
def storeProfile (v : Profile) (l : Lane) : Lane :=
  if rateOf v.output = rateOf l.profile.output then { l with profile := v }
  else { l with profile := v, tcCount := 0, fresh := true }

/-- The rule of SET LANE (R120). -/
def ruleSetLane (cmd : Command) (p : Part) : Verdict :=
  match laneTarget cmd with
  | none => deny .badTarget
  | some n =>
    if cmd.payload.length ≠ 24 then deny .badLength
    else if (p.lanes.get n).state ≠ .stopped then deny .wrongState
    else match parseProfile cmd.payload with
      | none => deny .badValue
      | some v => .ok (modLane n (storeProfile v) p, [])

/-- The take of SET LANE (R119, R120). -/
def takeSetLane (cmd : Command) : Part → Part := takeImmediate 8 cmd (ruleSetLane cmd)

/-! ### START -/

/-- The tests of START (R125). -/
def testStart (cmd : Command) (p : Part) : Except Denied OpTarget :=
  match laneTarget cmd with
  | none => deny .badTarget
  | some n =>
    if cmd.payload ≠ [] then deny .badLength
    else if (p.mgmt.laneOps.get n).isSome then deny .busy
    else if (p.lanes.get n).state ≠ .stopped then deny .wrongState
    else .ok (.lane n)

/-- The six steps of an accepted START (R126). -/
def startLane (n : Ix) (p : Part) : Part :=
  let l := p.lanes.get n
  let q := p |> modLane n (fun l =>
        { l with
          acquireAt := some (p.timebase + l.profile.acquireTimeout * Config.tenthSecond)
          jobNumber := 0
          holdCount := 0
          state := .acquiring })
    |> recapture l.profile.source
    |> bumpLane n (fun c => { c with startsAccepted := bump c.startsAccepted })
  let usable := inputUsable q n
  let q := q |> modLane n (fun l => { l with usable := usable }) |> checkMismatch n
  if usable then q else inputLoss n q

/-- The lane of an operation's target is started. -/
def beginStart (_cmd : Command) (t : OpTarget) (p : Part) : Part :=
  match t with
  | .lane n => startLane n p
  | .output _ => p

/-- The take of START (R125, R126). -/
def takeStart (cmd : Command) : Part → Part := takeTimed 9 .start cmd (testStart cmd) (beginStart cmd)

/-! ### STOP -/

/-- A pending START ended with DONE HALTED, and the acquire timer cleared (R132 step 4). -/
def haltStart (n : Ix) (p : Part) : Part :=
  if laneOpKind p n = some .start then
    p |> endLaneOp n .halted |> modLane n (fun l => { l with acquireAt := none })
  else p

/-- The hold count set to 0 (R132 step 6). -/
def clearHold (n : Ix) (p : Part) : Part := modLane n (fun l => { l with holdCount := 0 }) p

/-- The eight steps of a STOP to a lane in a running state (R132). -/
def stopLane (n : Ix) (p : Part) : Part :=
  p |> clearLane n
    |> resetTimecode n
    |> haltStart n
    |> commitSwap n
    |> clearHold n
    |> leaveRunning n .stopped
    |> bumpLane n (fun c => { c with stops := bump c.stops })

/-- The rule of STOP (R132). -/
def ruleStop (cmd : Command) (p : Part) : Verdict :=
  match laneTarget cmd with
  | none => deny .badTarget
  | some n =>
    if cmd.payload ≠ [] then deny .badLength
    else if (p.lanes.get n).state = .faulted then deny .wrongState
    else if (p.lanes.get n).state = .stopped then .ok (p, [])
    else .ok (stopLane n p, [])

/-- The take of STOP (R132). -/
def takeStop (cmd : Command) : Part → Part := takeImmediate 10 cmd (ruleStop cmd)

/-! ### RESUME -/

/-- What RESUME does to the lane (R136). -/
def resumeLane (n : Ix) (p : Part) : Part :=
  p |> resetTimecode n |> clearHold n |> modLane n (fun l => { l with state := .stopped })

/-- The rule of RESUME (R136). -/
def ruleResume (cmd : Command) (p : Part) : Verdict :=
  match laneTarget cmd with
  | none => deny .badTarget
  | some n =>
    if cmd.payload ≠ [] then deny .badLength
    else if (p.lanes.get n).state ≠ .faulted then deny .wrongState
    else if p.fault.deviceFatal then deny .wrongState
    else if (getLog (.ll n) p).isSome then deny .wrongState
    else .ok (resumeLane n p, [])

/-- The take of RESUME (R136). -/
def takeResume (cmd : Command) : Part → Part := takeImmediate 11 cmd (ruleResume cmd)

/-! ### SET ROUTE -/

/-- The action of an action word (Table 37). -/
def actionOf (w : Byte) : Option RouteAction :=
  if w.toNat = 0 then some .carry else if w.toNat = 1 then some .drop else none

/-- The entries of a SET ROUTE payload, four words each; none where a match or action word exceeds 1 (R142). -/
def parseEntries : List Byte → Option (List RouteEntry)
  | [] => some []
  | kind :: subkind :: m :: a :: rest =>
    match actionOf a, parseEntries rest with
    | some act, some es =>
      if m.toNat = 0 then some (⟨kind, some subkind, act⟩ :: es)
      else if m.toNat = 1 then some (⟨kind, none, act⟩ :: es)
      else none
    | _, _ => none
  | _ => none

/-- The routing table of a SET ROUTE payload: the length test, then the value test (R142). -/
def parseRoute (ws : List Byte) : Except Denied RouteTable :=
  match ws with
  | d :: count :: rest =>
    if rest.length ≠ 4 * count.toNat then deny .badLength
    else if 32 < count.toNat then deny .badValue
    else match actionOf d, parseEntries rest with
      | some act, some es => .ok ⟨act, es⟩
      | _, _ => deny .badValue
  | _ => deny .badLength

/-- The rule of SET ROUTE (R142). -/
def ruleSetRoute (cmd : Command) (p : Part) : Verdict :=
  match laneTarget cmd with
  | none => deny .badTarget
  | some n =>
    match parseRoute cmd.payload with
    | .error d => .error d
    | .ok t => .ok (modLane n (fun l => { l with route := t }) p, [])

/-- The take of SET ROUTE (R142). -/
def takeSetRoute (cmd : Command) : Part → Part := takeImmediate 18 cmd (ruleSetRoute cmd)

/-! ### SEED TIMECODE -/

/-- The seed of a payload for an output standard: a valid label whose second-picture flag is clear (R154). -/
def parseSeed (output : Std) (ws : List Byte) : Option Label :=
  match parseLabel output ws with
  | some l => if l.second then none else some l
  | none => none

/-- The rule of SEED TIMECODE (R154). -/
def ruleSeedTimecode (cmd : Command) (p : Part) : Verdict :=
  match laneTarget cmd with
  | none => deny .badTarget
  | some n =>
    let l := p.lanes.get n
    if cmd.payload.length ≠ 5 then deny .badLength
    else if l.state = .faulted then deny .wrongState
    else match parseSeed l.profile.output cmd.payload with
      | none => deny .badValue
      | some lab =>
        .ok (modLane n (fun l => { l with tcCount := labelToCount (rateOf l.profile.output) lab, fresh := true }) p, [])

/-- The take of SEED TIMECODE (R154). -/
def takeSeedTimecode (cmd : Command) : Part → Part := takeImmediate 19 cmd (ruleSeedTimecode cmd)

/-! ### HALT -/

/-- HALT to a lane with a START pending: steps 1, 2, 3, 6 and 7 of R132, then DONE HALTED and the timer (R133). -/
def haltLaneStart (n : Ix) (p : Part) : Part :=
  p |> clearLane n
    |> resetTimecode n
    |> clearHold n
    |> leaveRunning n .stopped
    |> haltStart n

/-- HALT to a lane with a COMMIT pending: no swap, the record cleared (R164). -/
def haltLaneCommit (n : Ix) (p : Part) : Part :=
  p |> endLaneOp n .halted |> modLane n (fun l => { l with commit := none })

/-- HALT to a lane, by the operation pending on it (R175). -/
def haltLane (n : Ix) (p : Part) : Verdict :=
  match laneOpKind p n with
  | none => deny .nothingPending
  | some .start => .ok (haltLaneStart n p, [])
  | some .commit => .ok (haltLaneCommit n p, [])
  | some .relock => .ok (endLaneOp n .halted p, [])

/-- HALT to an output: its RELOCK ends, and it stays in HOLDOVER (R113, R175). -/
def haltOutput (n : Ix) (p : Part) : Verdict :=
  if (p.mgmt.outOps.get n).isSome then .ok (endRelock n .halted p, []) else deny .nothingPending

/-- The rule of HALT (R175). -/
def ruleHalt (cmd : Command) (p : Part) : Verdict :=
  match laneTarget cmd, outTarget cmd with
  | some n, _ => if cmd.payload ≠ [] then deny .badLength else haltLane n p
  | none, some n => if cmd.payload ≠ [] then deny .badLength else haltOutput n p
  | none, none => deny .badTarget

/-- The take of HALT (R113, R133, R164, R175). -/
def takeHalt (cmd : Command) : Part → Part := takeImmediate 20 cmd (ruleHalt cmd)

end Sys2Proof.Machine
end

