-- ==== Sys2Proof/Machine/TableCommands.lean ====
section
/-! DEFINITION. The commands that act on a lane's coefficient tables: LOAD_SEGMENT and COMMIT (R160 to R163). -/

namespace Sys2Proof.Machine

/-! ### LOAD SEGMENT -/

/-- The table of a table word (Table 43). -/
def tableOf (w : Byte) : Option Table :=
  if w.toNat = 0 then some .tt else if w.toNat = 1 then some .hc else if w.toNat = 2 then some .vc else none

/-- A coefficient from its two words, most significant first. -/
def coefOf (hi lo : Byte) : BitVec 16 := hi ++ lo

/-- The rows of a segment, eight words each, "with fresh parity" (R160). -/
def parseRows : List Byte → List TRow
  | a :: b :: c :: d :: e :: f :: g :: h :: rest =>
    ⟨coefOf a b, coefOf c d, coefOf e f, coefOf g h, true⟩ :: parseRows rest
  | _ => []

/-- Consecutive rows written from `first` on. -/
def writeRows : Nat → List TRow → List TRow → List TRow
  | _, [], bank => bank
  | first, r :: rs, bank => writeRows (first + 1) rs (bank.set first r)

/-- The shadow bank of a table with rows written. -/
def loadShadow (t : Table) (first : Nat) (rows : List TRow) (ts : Tables) : Tables :=
  modTable t (fun b => { b with shadow := writeRows first rows b.shadow }) ts

/-- The length of a LOAD SEGMENT payload: 2 + 8 × N for some N in 1..31 (R160). -/
def segmentLength (ws : List Byte) : Bool := (List.range 31).any (fun k => ws.length == 2 + 8 * (k + 1))

/-- The table, first row and rows of a segment payload; none where a value is out of range (R160). -/
def parseSegment (ws : List Byte) : Option (Table × Nat × List TRow) :=
  match ws with
  | t :: first :: rest =>
    match tableOf t with
    | some tab =>
      let rows := parseRows rest
      if first.toNat + rows.length ≤ tableRows tab then some (tab, first.toNat, rows) else none
    | none => none
  | _ => none

/-- The rule of LOAD SEGMENT (R160). -/
def ruleLoadSegment (cmd : Command) (p : Part) : Verdict :=
  match laneTarget cmd with
  | none => deny .badTarget
  | some n =>
    if segmentLength cmd.payload = false then deny .badLength
    else match parseSegment cmd.payload with
      | none => deny .badValue
      | some (t, first, rows) =>
        if (p.lanes.get n).commit.isSome then deny .busy
        else .ok (modLane n (fun l => { l with tables := loadShadow t first rows l.tables }) p, [])

/-- The take of LOAD SEGMENT (R160). -/
def takeLoadSegment (cmd : Command) : Part → Part := takeImmediate 14 cmd (ruleLoadSegment cmd)

/-! ### COMMIT -/

/-- The coefficient range of a table (Table 42). -/
def coefRange (t : Table) : Int × Int :=
  match t with
  | .tt => (-512, 1536)
  | .hc => (-128, 383)
  | .vc => (-128, 383)

/-- The row sum of a table (Table 42). -/
def rowSum (t : Table) : Int :=
  match t with
  | .tt => 1024
  | .hc => 256
  | .vc => 256

/-- Every coefficient of a row lies in its table's range. -/
def coefsInRange (t : Table) (r : TRow) : Bool :=
  (rowCoefs r).all (fun k => decide ((coefRange t).1 ≤ k) && decide (k ≤ (coefRange t).2))

/-- Why a row fails, by the reason numbers of Table 45: parity first, then range, then sum (Table 45 note A). -/
def rowFailure (t : Table) (r : TRow) : Option Nat :=
  if !r.parityOk then some 3
  else if !coefsInRange t r then some 1
  else if (rowCoefs r).sum ≠ rowSum t then some 2
  else none

/-- The first row that fails, from row number `i` on, and its reason (R161). -/
def firstFailure (t : Table) : Nat → List TRow → Option (Nat × Nat)
  | _, [] => none
  | i, r :: rs =>
    match rowFailure t r with
    | some reason => some (i, reason)
    | none => firstFailure t (i + 1) rs

/-- The number of a table (Table 43). -/
def tableNumber (t : Table) : Nat :=
  match t with
  | .tt => 0
  | .hc => 1
  | .vc => 2

/-- The check of one named table's shadow bank (R161, Table 45). -/
def checkTable (t : Table) (given : Option (BitVec 16)) (shadow : List TRow) : Option Denied :=
  match given with
  | none => none
  | some crc =>
    match firstFailure t 0 shadow with
    | some (row, reason) => some ⟨.tableInvalid, [word (tableNumber t), word row, word reason, 0, 0]⟩
    | none =>
      if rowsCrc shadow = crc then none
      else some ⟨.crcMismatch, [word (tableNumber t), 0, 0] ++ beWords 2 (rowsCrc shadow).toNat⟩

/-- The checks of test 6, "in the order TT, HC, VC" (R161). -/
def checkTables (c : CommitRec) (ts : Tables) : Option Denied :=
  match checkTable .tt c.tt ts.tt.shadow with
  | some d => some d
  | none =>
    match checkTable .hc c.hc ts.hc.shadow with
    | some d => some d
    | none => checkTable .vc c.vc ts.vc.shadow

/-- The number of tables a mask names. -/
def namedTables (mask : Nat) : Nat := mask % 2 + mask / 2 % 2 + mask / 4 % 2

/-- The CRC of the i-th named table of a COMMIT payload (Table 44). -/
def crcAt (ws : List Byte) (i : Nat) : BitVec 16 := coefOf (ws.getD (1 + 2 * i) 0) (ws.getD (2 + 2 * i) 0)

/-- The commit record that a payload asks for: the CRCs "follow in the order TT, HC, VC of the tables the mask names"
(Table 44 note A). -/
def commitRecOf (mask : Nat) (ws : List Byte) : CommitRec :=
  { tt := if mask % 2 = 1 then some (crcAt ws 0) else none
    hc := if mask / 2 % 2 = 1 then some (crcAt ws (mask % 2)) else none
    vc := if mask / 4 % 2 = 1 then some (crcAt ws (mask % 2 + mask / 2 % 2)) else none }

/-- The record that a COMMIT payload asks for, tests 2 to 4 of R161. -/
def parseCommit (ws : List Byte) : Except Denied CommitRec :=
  match ws with
  | [] => deny .badLength
  | m :: rest =>
    if m.toNat < 1 ∨ 7 < m.toNat then deny .badValue
    else if rest.length ≠ 2 * namedTables m.toNat then deny .badLength
    else .ok (commitRecOf m.toNat (m :: rest))

/-- The tests of COMMIT (R161). -/
def testCommit (cmd : Command) (p : Part) : Except Denied OpTarget :=
  match laneTarget cmd with
  | none => deny .badTarget
  | some n =>
    match parseCommit cmd.payload with
    | .error d => .error d
    | .ok c =>
      if (p.mgmt.laneOps.get n).isSome then deny .busy
      else match checkTables c (p.lanes.get n).tables with
        | some d => .error d
        | none => .ok (.lane n)

/-- An accepted COMMIT: the record holds it as pending, and a lane that starts no jobs swaps at once (R161, R163). -/
def acceptCommit (n : Ix) (c : CommitRec) (p : Part) : Part :=
  let q := modLane n (fun l => { l with commit := some c }) p
  if runsJobs (p.lanes.get n).state then q else commitSwap n q

/-- The COMMIT of an operation's target is begun. -/
def beginCommit (cmd : Command) (t : OpTarget) (p : Part) : Part :=
  match t, parseCommit cmd.payload with
  | .lane n, .ok c => acceptCommit n c p
  | _, _ => p

/-- The take of COMMIT (R161 to R163). -/
def takeCommit (cmd : Command) : Part → Part := takeTimed 15 .commit cmd (testCommit cmd) (beginCommit cmd)

end Sys2Proof.Machine
end

