-- ==== Sys2Proof/Machine/Queue.lean ====
section
/-! DEFINITION. The takes that the command processor makes by itself (R169), and how each row of the table begins with
those that are due: what an event, an event that the part times itself, and a command sent to the part do. -/

namespace Sys2Proof.Machine

/-- The take of a command by its code (Table 52). -/
def takeOf (code : Byte) (cmd : Command) : Part → Part :=
  match code.toNat with
  | 1 => takeIdentify cmd
  | 2 => takeQueryStatus cmd
  | 3 => takeQueryCounters cmd
  | 4 => takeDeviceReset cmd
  | 5 => takeSetFeed cmd
  | 6 => takeFeedReset cmd
  | 7 => takeReleaseQuarantine cmd
  | 8 => takeSetLane cmd
  | 9 => takeStart cmd
  | 10 => takeStop cmd
  | 11 => takeResume cmd
  | 12 => takeMute cmd
  | 13 => takeUnmute cmd
  | 14 => takeLoadSegment cmd
  | 15 => takeCommit cmd
  | 16 => takeSetOutput cmd
  | 17 => takeRelock cmd
  | 18 => takeSetRoute cmd
  | 19 => takeSeedTimecode cmd
  | 20 => takeHalt cmd
  | 21 => takeQueryLog cmd
  | 22 => takeClearLog cmd
  | 23 => takeQueryConditions cmd
  | 24 => takeAckConditions cmd
  | 25 => takeSetAlarmMask cmd
  | _ => takeBadCode code cmd

/-- The take of the head block of a queue, whole: "The take is one event" (R169), and ends as every event does (R58). -/
def takeHead (n : Ix) (b : Block) (p : Part) : Part :=
  settle (takeOf b.code ⟨n, b.tag, b.target, b.payload⟩ p)

/-- The take that is due: the head block of the queue that the arbiter serves, if any queue is eligible (R169). -/
def dueTake (p : Part) : Option (Ix × Block) := (arbiter p).bind (fun n => (headBlock p n).map (fun b => (n, b)))

/-- The takes that are due, one after another, at most `fuel` of them: "takes follow one another while any queue stays
eligible" (R169). -/
def takesDue : Nat → Part → Part
  | 0, p => p
  | fuel + 1, p =>
    match dueTake p with
    | some (n, b) => takesDue fuel (takeHead n b p)
    | none => p

/-- The blocks that wait in the four command queues. -/
def waiting (p : Part) : Nat := (allIx.map (fun n => (p.mgmt.queues.get n).length)).sum

/-- The state with every take made that is due: "A take follows at once on the event that makes a queue eligible"
(R169), so the takes come before whatever waits in `pending`, at the instant at which the part stands (log entry 2).
Each take removes a block and none adds one, so there are no more takes than blocks. -/
def afterTakes (s : State) : State := { s with part := takesDue (waiting s.part) s.part }

/-- An event of the outside: the takes that are due, then the event. -/
def happens (env : Env) (f : Part → Part) (s : State) : Host.Outcome State Fault Refusal := event env f (afterTakes s)

/-- An event that the part times itself: the takes that are due, then the event at the instant at which the part holds it
due. One that is not due changes nothing but for the failures given with it (log entry 22). -/
def fallsDue (due : Part → Option Nat) (upsets : List Upset) (f : Part → Part) (s : State) :
    Host.Outcome State Fault Refusal :=
  match due (afterTakes s).part with
  | some t => event ⟨t, upsets⟩ f (afterTakes s)
  | none => event ⟨(afterTakes s).part.timebase, upsets⟩ id (afterTakes s)

/-- A command of the table: the takes that are due, then its packet is sent, and it is taken if the processor takes it
now; otherwise it waits in its queue (R168, R169; log entry 6). -/
def command (code : Byte) (env : Env) (cmd : Command) (take : Part → Part) (s : State) :
    Host.Outcome State Fault Refusal :=
  happens env (fun p =>
    let q := present code cmd p
    if isTaken code cmd q then take q else q) s

end Sys2Proof.Machine
end

