-- ==== Sys2Proof/Machine/Commands.lean ====
section
/-! DEFINITION. The meanings of the 26 management rows: each sends its command, which is taken where the processor takes
it now. What the take does stands with the owner's rule. -/

namespace Sys2Proof.Machine

/-- IDENTIFY, code 1 (R176). -/
def execIdentify (env : Env) (cmd : Command) (s : State) : Host.Outcome State Fault Refusal :=
  command 1 env cmd (takeIdentify cmd) s

/-- QUERY_STATUS, code 2 (R177, R19, R41, R60, R84, R118, R139, R156, R167, R186). -/
def execQueryStatus (env : Env) (cmd : Command) (s : State) : Host.Outcome State Fault Refusal :=
  command 2 env cmd (takeQueryStatus cmd) s

/-- QUERY_COUNTERS, code 3 (R178, R19, R40, R59, R83, R118, R138, R155). -/
def execQueryCounters (env : Env) (cmd : Command) (s : State) : Host.Outcome State Fault Refusal :=
  command 3 env cmd (takeQueryCounters cmd) s

/-- DEVICE_RESET, code 4 (R179, R4, R23, R42, R45, R62, R106, R121, R158, R168, R180, R184). -/
def execDeviceReset (env : Env) (cmd : Command) (s : State) : Host.Outcome State Fault Refusal :=
  command 4 env cmd (takeDeviceReset cmd) s

/-- SET_FEED, code 5 (R18). -/
def execSetFeed (env : Env) (cmd : Command) (s : State) : Host.Outcome State Fault Refusal :=
  command 5 env cmd (takeSetFeed cmd) s

/-- FEED_RESET, code 6 (R37, R38). -/
def execFeedReset (env : Env) (cmd : Command) (s : State) : Host.Outcome State Fault Refusal :=
  command 6 env cmd (takeFeedReset cmd) s

/-- RELEASE_QUARANTINE, code 7 (R57, R58). -/
def execReleaseQuarantine (env : Env) (cmd : Command) (s : State) : Host.Outcome State Fault Refusal :=
  command 7 env cmd (takeReleaseQuarantine cmd) s

/-- SET_LANE, code 8 (R119, R120). -/
def execSetLane (env : Env) (cmd : Command) (s : State) : Host.Outcome State Fault Refusal :=
  command 8 env cmd (takeSetLane cmd) s

/-- START, code 9 (R125, R126). -/
def execStart (env : Env) (cmd : Command) (s : State) : Host.Outcome State Fault Refusal :=
  command 9 env cmd (takeStart cmd) s

/-- STOP, code 10 (R132). -/
def execStop (env : Env) (cmd : Command) (s : State) : Host.Outcome State Fault Refusal :=
  command 10 env cmd (takeStop cmd) s

/-- RESUME, code 11 (R136). -/
def execResume (env : Env) (cmd : Command) (s : State) : Host.Outcome State Fault Refusal :=
  command 11 env cmd (takeResume cmd) s

/-- MUTE, code 12 (R137). -/
def execMute (env : Env) (cmd : Command) (s : State) : Host.Outcome State Fault Refusal :=
  command 12 env cmd (takeMute cmd) s

/-- UNMUTE, code 13 (R137). -/
def execUnmute (env : Env) (cmd : Command) (s : State) : Host.Outcome State Fault Refusal :=
  command 13 env cmd (takeUnmute cmd) s

/-- LOAD_SEGMENT, code 14 (R160). -/
def execLoadSegment (env : Env) (cmd : Command) (s : State) : Host.Outcome State Fault Refusal :=
  command 14 env cmd (takeLoadSegment cmd) s

/-- COMMIT, code 15 (R161 to R163). -/
def execCommit (env : Env) (cmd : Command) (s : State) : Host.Outcome State Fault Refusal :=
  command 15 env cmd (takeCommit cmd) s

/-- SET_OUTPUT, code 16 (R114). -/
def execSetOutput (env : Env) (cmd : Command) (s : State) : Host.Outcome State Fault Refusal :=
  command 16 env cmd (takeSetOutput cmd) s

/-- RELOCK, code 17 (R113). -/
def execRelock (env : Env) (cmd : Command) (s : State) : Host.Outcome State Fault Refusal :=
  command 17 env cmd (takeRelock cmd) s

/-- SET_ROUTE, code 18 (R142). -/
def execSetRoute (env : Env) (cmd : Command) (s : State) : Host.Outcome State Fault Refusal :=
  command 18 env cmd (takeSetRoute cmd) s

/-- SEED_TIMECODE, code 19 (R154). -/
def execSeedTimecode (env : Env) (cmd : Command) (s : State) : Host.Outcome State Fault Refusal :=
  command 19 env cmd (takeSeedTimecode cmd) s

/-- HALT, code 20 (R113, R133, R164, R175). -/
def execHalt (env : Env) (cmd : Command) (s : State) : Host.Outcome State Fault Refusal :=
  command 20 env cmd (takeHalt cmd) s

/-- QUERY_LOG, code 21 (R182). -/
def execQueryLog (env : Env) (cmd : Command) (s : State) : Host.Outcome State Fault Refusal :=
  command 21 env cmd (takeQueryLog cmd) s

/-- CLEAR_LOG, code 22 (R183). -/
def execClearLog (env : Env) (cmd : Command) (s : State) : Host.Outcome State Fault Refusal :=
  command 22 env cmd (takeClearLog cmd) s

/-- QUERY_CONDITIONS, code 23 (R186). -/
def execQueryConditions (env : Env) (cmd : Command) (s : State) : Host.Outcome State Fault Refusal :=
  command 23 env cmd (takeQueryConditions cmd) s

/-- ACK_CONDITIONS, code 24 (R185). -/
def execAckConditions (env : Env) (cmd : Command) (s : State) : Host.Outcome State Fault Refusal :=
  command 24 env cmd (takeAckConditions cmd) s

/-- SET_ALARM_MASK, code 25 (R187). -/
def execSetAlarmMask (env : Env) (cmd : Command) (s : State) : Host.Outcome State Fault Refusal :=
  command 25 env cmd (takeSetAlarmMask cmd) s

/-- BAD_CODE: any code that is not in Table 52 (R171, Table 51 note B). A code of the table is not this row's, and
changes nothing here (log entry 36). -/
def execBadCode (env : Env) (cmd : Command) (code : Byte) (s : State) : Host.Outcome State Fault Refusal :=
  if isTableCode code then happens env id s else command code env cmd (takeBadCode code cmd) s

end Sys2Proof.Machine
end

