-- ==== Sys2Proof/Machine/Links.lean ====
section
/-! DEFINITION. The meanings of the pin and link events: PIN_RESET, ACTIVITY_GAINED, ACTIVITY_LOST, PICTURE_MARKER,
LINE_START, LINE_END and ANCILLARY_PACKET (chapter 1). -/

namespace Sys2Proof.Machine

/-- PIN_RESET: every block at its reset values with the straps sampled anew (Table 5, R4, R20, R45, R106, R168,
R173, R180); the line interfaces report what they reported, and the cells of the attached memory stand. -/
def execPinReset (address : Fin 16) (stdSel : Bool) (s : State) : Host.Outcome State Fault Refusal :=
  .next { s with
    part := resetPart ⟨address, stdSel⟩ (activityOf s.part) (pinResetStore s.part.store.mem s.part.store.ecc) }

/-- Activity gained: a DARK link goes to SEEKING with an empty structure search (R5). -/
def gainActivity (n : Ix) (p : Part) : Part :=
  modLink n
    (fun l =>
      if l.state = .dark then
        { l with activity := true, state := .seeking, cur := none, recorded := none, lastNumber := none, line := none }
      else { l with activity := true }) p

/-- ACTIVITY_GAINED (R5). -/
def execActivityGained (env : Env) (n : Ix) (s : State) : Host.Outcome State Fault Refusal :=
  happens env (gainActivity n) s

/-- Activity lost: a link in any state goes to DARK; leaving LOCKED has the effects of R11 (R5). -/
def loseActivity (n : Ix) (cut : Bool) (p : Part) : Part :=
  let p := truncated n cut p
  let q := modLink n
    (fun l => { l with
      activity := false
      state := .dark
      est := none
      window := none
      missedRun := 0
      cur := none
      recorded := none
      lastNumber := none
      line := none }) p
  if isLocked (p.links.get n).state then lockLost n q else q

/-- ACTIVITY_LOST (R5, R11). -/
def execActivityLost (env : Env) (n : Ix) (cut : Bool) (s : State) : Host.Outcome State Fault Refusal :=
  happens env (loseActivity n cut) s

/-- PICTURE_MARKER (R1, R3, R6 to R12). -/
def execPictureMarker (env : Env) (n : Ix) (number : Nat) (parity : Parity) (blank cut : Bool) (s : State) :
    Host.Outcome State Fault Refusal :=
  happens env (takeMarker n number parity blank cut) s

/-- LINE_START (R1, R3, R6, R7). The parity of a line start without the marker flag is taken and not used: the rules
read the parity at a marker only. -/
def execLineStart (env : Env) (n : Ix) (number : Nat) (_parity : Parity) (blank cut : Bool) (s : State) :
    Host.Outcome State Fault Refusal :=
  happens env (takeLine n number blank cut) s

/-- LINE_END (R2, R13, R33). -/
def execLineEnd (env : Env) (n : Ix) (samples : List LinkSample) (check : BitVec 16) (s : State) :
    Host.Outcome State Fault Refusal :=
  happens env (takeLineEnd n samples check) s

/-- ANCILLARY_PACKET (R3, R14 to R17). -/
def execAncillaryPacket (env : Env) (n : Ix) (words : List (BitVec 10)) (s : State) :
    Host.Outcome State Fault Refusal :=
  happens env (takePacket n words) s

end Sys2Proof.Machine
end

