-- ==== Sys2Proof/Machine/Timing.lean ====
section
/-! DEFINITION. The meanings of the timed events: REF_MARKER, REF_EXPIRY, OUTPUT_BOUNDARY, OUTPUT_LINE, JOB_END,
SLOT_INITIALISATION_END and ACQUIRE_TIMEOUT (chapters 3, 4, 5, 6 and 7). An event that the part has not due changes
nothing but for the physical failures given with it (log entry 22). -/

namespace Sys2Proof.Machine

/-- REF_MARKER (R102, R103, R109, R111). -/
def execRefMarker (env : Env) (ref : RefId) (s : State) : Host.Outcome State Fault Refusal :=
  happens env (takeRefMarker ref) s

/-- REF_EXPIRY at last marker time plus floor(3 × Pr / 2) (R104, R111). -/
def execRefExpiry (upsets : List Upset) (ref : RefId) (s : State) : Host.Outcome State Fault Refusal :=
  fallsDue (fun p => expiryOf (getRef p ref)) upsets (refAbsent ref) s

/-- OUTPUT_BOUNDARY at the next boundary instant of OUTn (R107 to R112, R115 to R117, R61 to R74, R145, R152). -/
def execOutputBoundary (upsets : List Upset) (n : Ix) (s : State) : Host.Outcome State Fault Refusal :=
  fallsDue (fun p => some (p.outs.get n).next.toNat) upsets (takeBoundary n) s

/-- OUTPUT_LINE: the next active line of the picture (R72 to R80, R86 to R100, R137, R165). -/
def execOutputLine (env : Env) (n : Ix) (s : State) : Host.Outcome State Fault Refusal :=
  happens env (emitLine n) s

/-- The end of the last active line of an output picture: its job ends (R81), and no further line of it follows. -/
def takeJobEnd (n : Ix) (p : Part) : Part :=
  if (p.lanes.get n).job.inFlight then
    p |> endJob n |> modOut n (fun o => { o with lineNext := linesPerPicture o.standard })
  else p

/-- JOB_END (R81, R53). -/
def execJobEnd (env : Env) (n : Ix) (s : State) : Host.Outcome State Fault Refusal :=
  happens env (takeJobEnd n) s

/-- The end of the black write in progress, if a run is RUNNING (R46). -/
def takeInitEnd (p : Part) : Part :=
  match initSlot p with
  | some k => initEnd k p
  | none => p

/-- SLOT_INITIALISATION_END: the black write in progress completes (R46, R58). -/
def execSlotInitialisationEnd (upsets : List Upset) (s : State) : Host.Outcome State Fault Refusal :=
  fallsDue (fun p => (initSlot p).map (fun _ => p.store.initDue)) upsets takeInitEnd s

/-- The expiry of the acquire timer with the START still pending (R127). -/
def takeTimeout (n : Ix) (p : Part) : Part :=
  if laneOpKind p n = some .start then
    p |> endLaneOp n .timeout
      |> modLane n (fun l => { l with acquireAt := none })
      |> bumpLane n (fun c => { c with acquireTimeouts := bump c.acquireTimeouts })
  else p

/-- ACQUIRE_TIMEOUT at the acquire timer's expiry instant (R127). -/
def execAcquireTimeout (upsets : List Upset) (n : Ix) (s : State) : Host.Outcome State Fault Refusal :=
  fallsDue (fun p => (p.lanes.get n).acquireAt) upsets (takeTimeout n) s

end Sys2Proof.Machine
end

