-- ==== Sys2Proof/Machine/Dispatch.lean ====
section
/-! DEFINITION. The command's effect on everything but the queue of waiting commands: one arm per row of the table. -/

namespace Sys2Proof.Machine

def exec (i : Instr) (s : State) : Host.Outcome State Fault Refusal :=
  match i with
  | .pinReset address stdSel => Sys2Proof.Machine.execPinReset address stdSel s
  | .activityGained env n => Sys2Proof.Machine.execActivityGained env n s
  | .activityLost env n cut => Sys2Proof.Machine.execActivityLost env n cut s
  | .pictureMarker env n number parity blank cut => Sys2Proof.Machine.execPictureMarker env n number parity blank cut s
  | .lineStart env n number parity blank cut => Sys2Proof.Machine.execLineStart env n number parity blank cut s
  | .lineEnd env n samples check => Sys2Proof.Machine.execLineEnd env n samples check s
  | .ancillaryPacket env n words => Sys2Proof.Machine.execAncillaryPacket env n words s
  | .refMarker env ref => Sys2Proof.Machine.execRefMarker env ref s
  | .refExpiry upsets ref => Sys2Proof.Machine.execRefExpiry upsets ref s
  | .outputBoundary upsets n => Sys2Proof.Machine.execOutputBoundary upsets n s
  | .outputLine env n => Sys2Proof.Machine.execOutputLine env n s
  | .jobEnd env n => Sys2Proof.Machine.execJobEnd env n s
  | .slotInitialisationEnd upsets => Sys2Proof.Machine.execSlotInitialisationEnd upsets s
  | .acquireTimeout upsets n => Sys2Proof.Machine.execAcquireTimeout upsets n s
  | .identify env cmd => Sys2Proof.Machine.execIdentify env cmd s
  | .queryStatus env cmd => Sys2Proof.Machine.execQueryStatus env cmd s
  | .queryCounters env cmd => Sys2Proof.Machine.execQueryCounters env cmd s
  | .deviceReset env cmd => Sys2Proof.Machine.execDeviceReset env cmd s
  | .setFeed env cmd => Sys2Proof.Machine.execSetFeed env cmd s
  | .feedReset env cmd => Sys2Proof.Machine.execFeedReset env cmd s
  | .releaseQuarantine env cmd => Sys2Proof.Machine.execReleaseQuarantine env cmd s
  | .setLane env cmd => Sys2Proof.Machine.execSetLane env cmd s
  | .start env cmd => Sys2Proof.Machine.execStart env cmd s
  | .stop env cmd => Sys2Proof.Machine.execStop env cmd s
  | .resume env cmd => Sys2Proof.Machine.execResume env cmd s
  | .mute env cmd => Sys2Proof.Machine.execMute env cmd s
  | .unmute env cmd => Sys2Proof.Machine.execUnmute env cmd s
  | .loadSegment env cmd => Sys2Proof.Machine.execLoadSegment env cmd s
  | .commit env cmd => Sys2Proof.Machine.execCommit env cmd s
  | .setOutput env cmd => Sys2Proof.Machine.execSetOutput env cmd s
  | .relock env cmd => Sys2Proof.Machine.execRelock env cmd s
  | .setRoute env cmd => Sys2Proof.Machine.execSetRoute env cmd s
  | .seedTimecode env cmd => Sys2Proof.Machine.execSeedTimecode env cmd s
  | .halt env cmd => Sys2Proof.Machine.execHalt env cmd s
  | .queryLog env cmd => Sys2Proof.Machine.execQueryLog env cmd s
  | .clearLog env cmd => Sys2Proof.Machine.execClearLog env cmd s
  | .queryConditions env cmd => Sys2Proof.Machine.execQueryConditions env cmd s
  | .ackConditions env cmd => Sys2Proof.Machine.execAckConditions env cmd s
  | .setAlarmMask env cmd => Sys2Proof.Machine.execSetAlarmMask env cmd s
  | .badCode env cmd code => Sys2Proof.Machine.execBadCode env cmd code s

end Sys2Proof.Machine
end

