-- ==== Sys2Proof/Safety.lean ====
section
/-! DEFINITION. The terms that claims about the part use: when a command is taken in a step and what its answer leaves
behind, and the laws of the device as predicates on the part. -/

namespace Sys2Proof.Machine

/-! ### The take of a command, as claims speak of it -/

/-- The part has nothing to do by itself: no integrity error waits to be acted on, as is so after every step (R58), and
no command block waits that the processor could take (R169). -/
def quiet (s : State) : Prop := s.part.fault.fatalDue = false ∧ arbiter s.part = none

/-- The part as an event finds it: its instant has come, and so have the physical failures given with it (R20). -/
def foundBy (env : Env) (s : State) : Part := begin env.time env.upsets s.part

/-- The part as the take of a command finds it: as an event finds it, with the block arrived at its queue (R168). -/
def partAt (code : Byte) (env : Env) (cmd : Command) (s : State) : Part :=
  arrive cmd.link (commandWords (foundBy env s) code cmd) (foundBy env s)

/-- The command is taken in this step: its link extracts packets with listen on (R14, R15), so that its block arrives,
and the block stands at the head of the queue that the arbiter serves (R169). -/
def takenNow (code : Byte) (env : Env) (cmd : Command) (s : State) : Prop :=
  quiet s ∧ extracts (s.part.links.get cmd.link).state = true
    ∧ (s.part.links.get cmd.link).settings.listen = true ∧ isTaken code cmd (partAt code env cmd s) = true

/-- The row of the table that a command code names (Table 52). -/
def rowOfCode (env : Env) (cmd : Command) (code : Byte) : Instr :=
  match code.toNat with
  | 1 => .identify env cmd
  | 2 => .queryStatus env cmd
  | 3 => .queryCounters env cmd
  | 4 => .deviceReset env cmd
  | 5 => .setFeed env cmd
  | 6 => .feedReset env cmd
  | 7 => .releaseQuarantine env cmd
  | 8 => .setLane env cmd
  | 9 => .start env cmd
  | 10 => .stop env cmd
  | 11 => .resume env cmd
  | 12 => .mute env cmd
  | 13 => .unmute env cmd
  | 14 => .loadSegment env cmd
  | 15 => .commit env cmd
  | 16 => .setOutput env cmd
  | 17 => .relock env cmd
  | 18 => .setRoute env cmd
  | 19 => .seedTimecode env cmd
  | 20 => .halt env cmd
  | 21 => .queryLog env cmd
  | 22 => .clearLog env cmd
  | 23 => .queryConditions env cmd
  | 24 => .ackConditions env cmd
  | 25 => .setAlarmMask env cmd
  | _ => .badCode env cmd code

/-- The management unit after the take of a command that arrived on `link` (R169): the block gone, the queue served,
the restart flag cleared, the take counted. -/
def servedMgmt (m : Mgmt) (link : Ix) (refused : Bool) : Mgmt :=
  { m with
    queues := m.queues.modify link (fun bs => bs.drop 1)
    lastServed := link
    restart := false
    ctr := { m.ctr with
      commandsTaken := bump m.ctr.commandsTaken
      commandsRefused := if refused then bump m.ctr.commandsRefused else m.ctr.commandsRefused } }

/-- The outputs with replies more at the tail of a reply queue (R117). -/
def withReplies (outs : Four OutUnit) (link : Ix) (rs : List Reply) : Four OutUnit :=
  outs.modify link (fun o => { o with replies := o.replies ++ rs })

/-- A part `q`, which a command's own effect has left, with the command answered by one reply and its take counted:
the reply and the management unit are all that differs. -/
def answered (link : Ix) (r : Reply) (refused : Bool) (q : Part) : Part :=
  { q with outs := withReplies q.outs link [r], mgmt := servedMgmt q.mgmt link refused }

/-- The DONE COMPLETE of an immediate command taken at `q` (R171, R172). -/
def completeReply (code : Byte) (cmd : Command) (q : Part) (payload : List Byte) : Reply :=
  ⟨cmd.tag, code, .done, 0, q.mgmt.restart, payload⟩

/-- The REFUSED of a command taken at `q` (R171, R172). -/
def refusalReply (code : Byte) (cmd : Command) (q : Part) (status : Refused) (payload : List Byte) : Reply :=
  ⟨cmd.tag, code, .refused, refusedWord status, q.mgmt.restart, payload⟩

/-- An immediate command carried out: DONE COMPLETE with its payload, over the part `q` that its effect leaves. -/
def doneNow (code : Byte) (env : Env) (cmd : Command) (s : State) (payload : List Byte) (q : Part) :
    Host.Outcome State Fault Refusal :=
  .next { s with part := answered cmd.link (completeReply code cmd (partAt code env cmd s) payload) false q }

/-- A command refused: REFUSED with its status and payload, and the part left as the take found it (R171). -/
def refusedWith (code : Byte) (env : Env) (cmd : Command) (s : State) (status : Refused) (payload : List Byte) :
    Host.Outcome State Fault Refusal :=
  .next { s with
    part := answered cmd.link (refusalReply code cmd (partAt code env cmd s) status payload) true (partAt code env cmd s) }

/-- A command refused with an empty payload (R171). -/
def refusedNow (code : Byte) (env : Env) (cmd : Command) (s : State) (status : Refused) :
    Host.Outcome State Fault Refusal :=
  refusedWith code env cmd s status []

/-- The pending-operation record that an accepted command fills (R174). -/
def recordOf (kind : PendingKind) (code : Byte) (cmd : Command) (q : Part) : PendingOp :=
  ⟨kind, cmd.link, cmd.tag, code, q.mgmt.restart⟩

/-- The part right after the ACCEPTED of a time-taking command taken at `q` (R170, R174): the reply posted, one place
kept reserved for the DONE, the take counted, the record of the lane filled. -/
def acceptedLane (n : Ix) (kind : PendingKind) (code : Byte) (cmd : Command) (q : Part) : Part :=
  { q with
    outs := q.outs.modify cmd.link (fun o =>
      { o with replies := o.replies ++ [acceptedReply cmd code q.mgmt.restart], reserved := o.reserved + 1 })
    mgmt := { servedMgmt q.mgmt cmd.link false with
      laneOps := q.mgmt.laneOps.set n (some (recordOf kind code cmd q)) } }

/-- The same with the record of an output filled. -/
def acceptedOutput (n : Ix) (kind : PendingKind) (code : Byte) (cmd : Command) (q : Part) : Part :=
  { q with
    outs := q.outs.modify cmd.link (fun o =>
      { o with replies := o.replies ++ [acceptedReply cmd code q.mgmt.restart], reserved := o.reserved + 1 })
    mgmt := { servedMgmt q.mgmt cmd.link false with
      outOps := q.mgmt.outOps.set n (some (recordOf kind code cmd q)) } }

/-- The part after a time-taking command that ends in its own take (R174): ACCEPTED and then DONE COMPLETE. -/
def acceptedAndDone (code : Byte) (cmd : Command) (q : Part) : Part :=
  { q with
    outs := withReplies q.outs cmd.link
      [acceptedReply cmd code q.mgmt.restart, completeReply code cmd q []]
    mgmt := servedMgmt q.mgmt cmd.link false }

/-- The operation of a pending record that a step ends: the record held it before and is empty after (R174). -/
def endedIn (before after : Option PendingOp) : Option PendingOp := if after = none then before else none

/-- What an operation that ends COMPLETE posts to the reply queue of OUTm: one DONE, where its command came from INm, with
the record's tag, code and restart flag (R174). -/
def doneTo (m : Ix) (ended : Option PendingOp) : List Reply :=
  match ended with
  | some q => if q.origin = m then [⟨q.tag, q.code, .done, 0, q.restart, []⟩] else []
  | none => []

/-- The packets of replies placed in one picture of OUTn (Table 49, R172): the first carries the lost count of INn, which
is then 0. -/
def placedReplies (p : Part) (n : Ix) (rs : List Reply) : List SentPacket :=
  rs.zipIdx.map (fun ri => sendPacket ⟨0x61#8, 0x0C#8,
    [BitVec.ofNat 8 p.straps.address.val, ri.1.tag, ri.1.code,
      (match ri.1.kind with | .accepted => 1 | .done => 2 | .refused => 3), ri.1.status,
      (if ri.1.restart then 1 else 0),
      (if ri.2 = 0 then BitVec.ofNat 8 (p.mgmt.lost.get n) else 0)] ++ ri.1.payload⟩)

/-! ### Other terms of claims -/

/-- The words of a packet as a link carries them (Table 6): the unused high bits are zero. -/
def packetWords (p : Packet) : List (BitVec 10) :=
  [p.kind.setWidth 10, p.subkind.setWidth 10, BitVec.ofNat 10 p.user.length] ++ p.user.map (fun w => w.setWidth 10)
    ++ [(packetChecksum p).setWidth 10]

/-- A label exists under a label rate (R147): the ranges of Table 38, the drop flag, the labels that drop-frame counting
leaves out. -/
def labelOk (r : LabelRate) (l : Label) : Prop :=
  l.hours < 24 ∧ l.minutes < 60 ∧ l.seconds < 60 ∧ l.frames < rateFrames r ∧ l.drop = (r == .df30)
    ∧ ¬(r = .df30 ∧ l.seconds = 0 ∧ l.frames < 2 ∧ l.minutes % 10 ≠ 0)

/-- User words that are no valid label for a standard: their number is not 5, or one of the tests of R147 fails. -/
def labelInvalid (std : Std) (ws : List Byte) : Prop :=
  match ws with
  | [h, m, s, f, g] =>
    24 ≤ h.toNat ∨ 60 ≤ m.toNat ∨ 60 ≤ s.toNat
      ∨ (match (stdRow std).rate with | .ndf24 => 24 | .ndf25 => 25 | .ndf30 => 30 | .df30 => 30) ≤ f.toNat
      ∨ 4 ≤ g.toNat ∨ ¬(g.toNat % 2 = 1 ↔ (stdRow std).rate = .df30)
      ∨ (2 ≤ g.toNat ∧ (stdRow std).perLabel = 1)
      ∨ ((stdRow std).rate = .df30 ∧ s.toNat = 0 ∧ f.toNat < 2 ∧ m.toNat % 10 ≠ 0)
  | _ => True

/-- A pair of an owner word and a kind word names a latch: the owner carries the kind (Table 48, Table 59, R185). -/
def namesLatch (owner kind : Byte) : Prop :=
  (1 ≤ kind.toNat ∧ kind.toNat ≤ 2 ∧ 16 ≤ owner.toNat ∧ owner.toNat ≤ 19)
    ∨ (3 ≤ kind.toNat ∧ kind.toNat ≤ 6 ∧ 32 ≤ owner.toNat ∧ owner.toNat ≤ 35)
    ∨ (kind.toNat = 7 ∧ 48 ≤ owner.toNat ∧ owner.toNat ≤ 51)
    ∨ (8 ≤ kind.toNat ∧ kind.toNat ≤ 9 ∧ owner.toNat = 0)

/-- A value of an active sample as it is emitted (R78, R79). -/
def inEmittedRange (v : Nat) : Prop := 4 ≤ v ∧ v ≤ 1019

/-- Every sample of an emitted line lies in 4..1019 (R69). -/
def lineInRange (l : EmittedLine) : Prop :=
  (∀ v ∈ l.y, inEmittedRange v) ∧ (∀ v ∈ l.cb, inEmittedRange v) ∧ (∀ v ∈ l.cr, inEmittedRange v)

/-- The input link of an event of a link receiver, with what the outside gives with it. -/
def linkEvent (i : Instr) : Option (Ix × Env) :=
  match i with
  | .activityGained env n => some (n, env)
  | .activityLost env n _ => some (n, env)
  | .pictureMarker env n _ _ _ _ => some (n, env)
  | .lineStart env n _ _ _ _ => some (n, env)
  | .lineEnd env n _ _ => some (n, env)
  | .ancillaryPacket env n _ => some (n, env)
  | _ => none

/-- A marker of a LOCKED link at `now` passes the check (R7) and, where it is the eighth of a window, the rate check
(R10), so that it is handed on as a picture start (R12). After a missed marker there is no window to end. -/
def handsOn (s : State) (n : Ix) (number : Nat) (code : Std) (e : Established) (c : Current) (now : Nat) : Prop :=
  (s.part.links.get n).state = .locked code ∧ (s.part.links.get n).est = some e ∧ (s.part.links.get n).cur = some c
    ∧ outOfSequence (s.part.links.get n).lastNumber number true = false ∧ (c.checked && breaks e c) = false
    ∧ (∀ w, (s.part.links.get n).window = some w →
        w.count < 7 ∨ (w.count = 7
          ∧ (((now - w.start : Nat) : Int) - ((8 * periodOf code : Nat) : Int)).natAbs
              ≤ 8 * periodOf code * 300 / 1000000))

/-- The window of a LOCKED link after a marker that is handed on: one period more, or a new window at this marker (R7,
R10). -/
def windowAfter (w : Option Window) (now : Nat) : Window :=
  match w with
  | some w => if w.count < 7 then ⟨w.start, w.count + 1⟩ else ⟨now, 0⟩
  | none => ⟨now, 0⟩

/-- The next slot request of feed `n` is granted: below the ceiling, with slot `k` at the head of the free list (R48). -/
def nextGrant (env : Env) (s : State) (n : Ix) (k : SlotIx) (rest : List SlotIx) : Prop :=
  heldBy s.part n < 11 ∧ s.part.store.freeList = k :: rest ∧ (slotOf (foundBy env s) k).intact = true
    ∧ (slotOf s.part k).state = .free

/-- Output `n` has entered HOLDOVER from the alignment `al` (R111): Ph is Pm clamped to 300 ppm of its period, REF_LOST is
latched, DL holds an error, the entry is counted, and the settings and the next boundary stand. -/
def heldOver (before after : Part) (n : Ix) (al : Alignment) : Prop :=
  let o := before.outs.get n
  let o' := after.outs.get n
  let ppm : Int := ((periodOf o.standard * 300 / 1000000 : Nat) : Int)
  o'.lock = .holdover (clampInt ((periodOf o.standard : Int) - ppm) ((periodOf o.standard : Int) + ppm) al.pm)
    ∧ o'.select = o.select ∧ o'.offset = o.offset ∧ o'.policy = o.policy ∧ o'.next = o.next
    ∧ o'.ctr.holdoverEntries = bump o.ctr.holdoverEntries ∧ Cond.refLost n ∈ after.fault.latches
    ∧ (getLog .dl after).isSome = true

/-- Lane Lm finds its input not usable (R122): from usable and ACQUIRING or CONVERTING it enters HOLDING with hold count 0,
INPUT_LOST latched and the entry counted (R129), or at a hold limit of 0 SLATE, latched and counted as well, with the swap
of a pending COMMIT and its DONE (R130, R163); in every other case only the indication falls. -/
def losesInput (before after : Part) (m : Ix) : Prop :=
  let l := before.lanes.get m
  let l' := after.lanes.get m
  if l.usable = true ∧ (l.state = .acquiring ∨ l.state = .converting) then
    Cond.inputLost m ∈ after.fault.latches
      ∧ (if l.profile.holdLimit = 0 then
          l' = { l with
              usable := false, state := .slate, holdCount := 0
              laneCtr := { l.laneCtr with
                holdEntries := bump l.laneCtr.holdEntries, slateEntries := bump l.laneCtr.slateEntries }
              tables := match l.commit with
                | some c => swapTables c l.tables
                | none => l.tables
              commit := none
              job := if l.commit.isSome = true ∧ l.job.inFlight = true ∧ l.job.kept = none then
                  { l.job with kept := some ⟨l.tables.tt.active, l.tables.hc.active, l.tables.vc.active⟩ }
                else l.job }
            ∧ Cond.slate m ∈ after.fault.latches
            ∧ (l.commit.isSome = true → after.mgmt.laneOps.get m = none
              ∧ ∀ n, ∀ r ∈ doneTo n (before.mgmt.laneOps.get m), r ∈ (after.outs.get n).replies)
         else
          l' = { l with
            usable := false, state := .holding, holdCount := 0
            laneCtr := { l.laneCtr with holdEntries := bump l.laneCtr.holdEntries } })
  else l' = { l with usable := false }

/-- Lane Lm finds its source link LOCKED with `code` (R122): from not usable its input is usable exactly under its input
standard, which takes HOLDING and SLATE to ACQUIRING (R131) and leaves the rest of the lane, the hold count included (log
entry 45); STD_MISMATCH is latched exactly where the lane is running and the code is another (R123). -/
def findsCode (before after : Part) (m : Ix) (code : Std) : Prop :=
  let l := before.lanes.get m
  (l.usable = false →
      after.lanes.get m = { l with
        usable := decide (l.profile.input = code)
        state := if l.profile.input = code ∧ (l.state = .holding ∨ l.state = .slate) then .acquiring else l.state })
    ∧ (Cond.stdMismatch m ∈ after.fault.latches ↔
      Cond.stdMismatch m ∈ before.fault.latches ∨ (isRunning l.state = true ∧ l.profile.input ≠ code))

/-! ### A job start as chapter 4 gives it -/

/-- The weight of a tap in a row. -/
def tapWeight (w : Weights) : Src → Int
  | .tm1 => w.wm1
  | .t0 => w.w0
  | .t1 => w.w1
  | .t2 => w.w2
  | .fallback => 0

/-- A tap is PRESENT; the fallback is none of the four taps. -/
def tapPresent (p : Presence) : Src → Bool
  | .tm1 => p.pm1
  | .t0 => p.p0
  | .t1 => p.p1
  | .t2 => p.p2
  | .fallback => false

/-- The four taps. -/
def fourTaps : List Src := [.tm1, .t0, .t1, .t2]

/-- Where the weight of an absent tap goes: the first of these that is PRESENT (Table 23). -/
def homesOf : Src → List Src
  | .tm1 => [.t0, .t1, .t2]
  | .t2 => [.t1, .t0, .tm1]
  | .t0 => [.t1, .tm1, .t2]
  | .t1 => [.t0, .t2, .tm1]
  | .fallback => []

/-- The case of a job with its anchor and phase, over the snapshot, its usable entries and the target (Table 22, R65 to
R69). `current` holds the usable entries of the segment of the snapshot's newest entry, `older` the others. -/
def caseIs (snap use : List Entry) (t : Int) (kase : JobCase) (anchor : Option Entry) (phase : Option Nat) : Prop :=
  let current := use.filter (fun e => decide ((snap.getLast?).map Entry.segment = some e.segment))
  let older := use.filter (fun e => decide ((snap.getLast?).map Entry.segment ≠ some e.segment))
  match kase with
  | .none => False
  | .slate => use = [] ∧ anchor = none ∧ phase = none
  | .bracket =>
    ∃ a b, anchor = some a ∧ [a, b] <:+: current ∧ a.stamp ≤ t ∧ t < b.stamp
      ∧ (∃ o, current.head? = some o ∧ o.stamp ≤ t)
      ∧ phase = some ((64 * (t - a.stamp)) / (b.stamp - a.stamp)).toNat
  | .earlyClamp =>
    ∃ a, anchor = some a ∧ current.getLast? = some a ∧ a.stamp ≤ t
      ∧ (∃ o, current.head? = some o ∧ o.stamp ≤ t) ∧ phase = some 0
  | .frozen =>
    ∃ a, anchor = some a ∧ older.getLast? = some a ∧ (∀ o, current.head? = some o → t < o.stamp) ∧ phase = some 0
  | .lateClamp =>
    ∃ a, anchor = some a ∧ older = [] ∧ current.head? = some a ∧ t < a.stamp ∧ phase = some 0

/-- The tap of an entry, if there is one: PRESENT where the entry is a PICTURE, ABSENT otherwise (R70). -/
def freshTap (e : Option Entry) : Tap := ⟨e, if (e.bind entrySlot).isSome then .present else .absent, none⟩

/-- The slots of a job's PRESENT taps in tap order, then that of its fallback (R71). -/
def jobSlots (j : JobRec) : List SlotIx :=
  [j.tm1, j.t0, j.t1, j.t2].filterMap (fun x => if x.state = .present then x.entry.bind entrySlot else none)
    ++ (j.fallback.bind (fun f => entrySlot f.entry)).toList

/-! ### A line as the formulas of chapters 4 and 5 give it

What R72 to R78 and R86 to R93 say an output line holds, sample by sample and without the order of the reads, for a
line none of whose reads fails. -/

/-- Every sample can be read, corrected or not, and every row has its parity. -/
def readsClean (c : LineCtx) : Prop :=
  (∀ a, cellsGet a c.ecc ≠ some .uncorrectable) ∧ (∀ r ∈ c.tt, r.parityOk = true) ∧ (∀ r ∈ c.hc, r.parityOk = true) ∧ (∀ r ∈ c.vc, r.parityOk = true)

/-- A stored sample as a number (R95). -/
def directSample (c : LineCtx) (pic : Picture) (comp : Component) (line col : Nat) : Int :=
  ((memoryRead c.mem (sampleAddress pic.slot comp line col)).toNat : Int)

/-- The spatial value S_t of R93 over the sixteen samples at the lines and columns of R88 to R91. -/
def directSpatial (c : LineCtx) (pic : Picture) (comp : Component) (x : Nat) : Int :=
  let ws := componentWidth c.source comp
  let u := sixteenths x ws (componentWidth c.output comp)
  let v := verticalPosition c pic.parity
  let k := rowCoefs (c.hc.getD (phasePart u) (defaultRow .hc (phasePart u)))
  let m := rowCoefs (c.vc.getD (phasePart v) (defaultRow .vc (phasePart v)))
  let col (b : Nat) : Nat := (clampInt 0 ((ws : Int) - 1) (wholePart u + b - 1)).toNat
  let line (a : Nat) : Nat := (clampInt 0 ((linesPerPicture c.source : Int) - 1) (wholePart v + a - 1)).toNat
  let h (a : Nat) : Int := ((List.range 4).map (fun b => k.getD b 0 * directSample c pic comp (line a) (col b))).sum
  spatialOut ((List.range 4).map (fun a => m.getD a 0 * h a)).sum

/-- The motion measure D of one block of the compared pictures: floor(SAD / n) over its samples (R75). -/
def directMeasure (c : LineCtx) (a b : Picture) (col row : Nat) : Nat :=
  ((blockSamples c.source col row).map (fun ri =>
    (directSample c a .y ri.1 ri.2 - directSample c b .y ri.1 ri.2).natAbs)).sum / (blockSamples c.source col row).length

/-- The blocks measured so far have the motion measure of the compared pictures (R75). -/
def blocksRight (c : LineCtx) (bs : List BlockMeasure) : Prop :=
  ∀ a b, c.motion = some (a, b) → ∀ m ∈ bs, m.d = directMeasure c a b m.col m.row

/-- The motion class of output luma sample `x` (R74, R76, R92). -/
def directClass (c : LineCtx) (x : Nat) : Nat :=
  match c.motion with
  | none => 3
  | some (a, b) =>
    let ws := (stdRow c.source).width
    let i := (clampInt 0 ((ws : Int) - 1) (wholePart (sixteenths x ws (stdRow c.output).width))).toNat
    let r := (clampInt 0 ((linesPerPicture c.source : Int) - 1) (wholePart (verticalPosition c a.parity))).toNat
    motionClass c.theta1 c.theta2 c.theta3 (directMeasure c a b (i / 16) (r / 16))

/-- The substituted row of output luma sample `x`: TT[φ][class] under R72 (R77). -/
def directWeights (c : LineCtx) (x : Nat) : Weights :=
  let row := 4 * c.phase + directClass c x
  substitute c.presence (rowWeights (c.tt.getD row (defaultRow .tt row)))

/-- One output sample from substituted weights: the blend of R78 over the pictures of the PRESENT taps. -/
def directBlend (c : LineCtx) (w : Weights) (comp : Component) (x : Nat) : Nat :=
  let part (wt : Int) (pic : Option Picture) : Int :=
    match pic with
    | some k => wt * directSpatial c k comp x
    | none => 0
  blendOut (part w.wm1 c.tm1 + part w.w0 c.t0 + part w.w1 c.t1 + part w.w2 c.t2)

/-- A whole output line. The fallback has the whole weight of 1024 (R73); a chroma sample at `x` takes the class of luma
sample 2x (R76). -/
def directLine (c : LineCtx) : EmittedLine :=
  let wo := (stdRow c.output).width
  match c.fallback with
  | some pic =>
    let value (comp : Component) (x : Nat) : Nat := blendOut (1024 * directSpatial c pic comp x)
    ⟨c.line, (List.range wo).map (value .y), (List.range (wo / 2)).map (value .cb), (List.range (wo / 2)).map (value .cr)⟩
  | none =>
    ⟨c.line, (List.range wo).map (fun x => directBlend c (directWeights c x) .y x),
     (List.range (wo / 2)).map (fun x => directBlend c (directWeights c (2 * x)) .cb x),
     (List.range (wo / 2)).map (fun x => directBlend c (directWeights c (2 * x)) .cr x)⟩

/-- The rows that the job in flight of lane Ln reads (R77, R94, R163). -/
def jobRows (p : Part) (n : Ix) : ActiveRows :=
  (p.lanes.get n).job.kept.getD (activeRows (p.lanes.get n).tables)

/-- Two sets of rows hold the same coefficients, whatever their parity. -/
def sameContents (a b : ActiveRows) : Prop :=
  a.tt.map rowCoefs = b.tt.map rowCoefs ∧ a.hc.map rowCoefs = b.hc.map rowCoefs ∧ a.vc.map rowCoefs = b.vc.map rowCoefs

/-! ### Laws of the device -/

/-- The attached memory is in its canonical form. -/
def memoryOk (p : Part) : Prop := memoryWf p.store.mem ∧ cellsRising p.store.ecc

/-- The bounds of the lists and counts: history (R29), carry queue (R143), routing entries (R140), command queue and
lost count (R168), run of missed markers (R7: the third takes the link to SEEKING), packets of a picture (R116). -/
def boundsOk (p : Part) : Prop :=
  (∀ n, (p.feeds.get n).history.length ≤ 8) ∧ (∀ n, (p.lanes.get n).carry.length ≤ 64)
    ∧ (∀ n, (p.mgmt.queues.get n).length ≤ 8) ∧ (∀ n, p.mgmt.lost.get n ≤ 255)
    ∧ (∀ n, (p.links.get n).missedRun ≤ 3 ∧ (extracts (p.links.get n).state = true → (p.links.get n).missedRun ≤ 2))
    ∧ (∀ n, (p.outs.get n).packets.length ≤ 10) ∧ (∀ n, (p.lanes.get n).route.entries.length ≤ 32)

/-- A record holds an operation whose command arrived on link `n`. -/
def originIs (n : Ix) (o : Option PendingOp) : Bool := o.any (fun q => decide (q.origin = n))

/-- The operations pending whose DONE will go to OUTn. -/
def pendingFrom (p : Part) (n : Ix) : Nat :=
  p.mgmt.laneOps.toList.countP (originIs n) + p.mgmt.outOps.toList.countP (originIs n)

/-- "Blocks plus reserved places never exceed 16" (R117), and every reserved place waits for the DONE of one pending
operation (R170, R174). -/
def repliesOk (p : Part) : Prop :=
  ∀ n, (p.outs.get n).replies.length + (p.outs.get n).reserved ≤ 16 ∧ (p.outs.get n).reserved = pendingFrom p n

/-- "The lane's own state records (START pending, commit record, RELOCK pending) mirror the record" (R174), and a lane
in STOPPED or FAULTED has no operation pending (R132, R134, R163). -/
def recordsOk (p : Part) : Prop :=
  ∀ n,
    ((p.lanes.get n).acquireAt.isSome = true ↔ laneOpKind p n = some .start)
      ∧ ((p.lanes.get n).commit.isSome = true ↔ laneOpKind p n = some .commit)
      ∧ laneOpKind p n ≠ some .relock
      ∧ ((p.lanes.get n).state = .stopped ∨ (p.lanes.get n).state = .faulted → p.mgmt.laneOps.get n = none)
      ∧ ((p.outs.get n).relockPending = true ↔ (p.mgmt.outOps.get n).isSome = true)

/-- "A lane in STOPPED or FAULTED holds no pins and has an empty carry queue" (R121); without a job in flight a lane
holds no pins and keeps no rows for one (R71, R81, R82, R163). -/
def idleOk (p : Part) : Prop :=
  ∀ n,
    ((p.lanes.get n).state = .stopped ∨ (p.lanes.get n).state = .faulted →
        (p.lanes.get n).job.inFlight = false ∧ (p.lanes.get n).carry = [])
      ∧ ((p.lanes.get n).job.inFlight = false →
        (p.lanes.get n).job.pinned = [] ∧ (p.lanes.get n).job.kept = none)

/-- "A slot in RETIRING has a pin count of at least 1, and a slot in FREE, QUARANTINED or UNINITIALIZED has pin count 0
and no owner feed" (R53); no more than 4 pins (Table 17). -/
def pinsOk (p : Part) : Prop :=
  ∀ k : SlotIx,
    ((slotOf p k).state = .retiring → 1 ≤ (slotOf p k).pins)
      ∧ ((slotOf p k).state = .free ∨ (slotOf p k).state = .quarantined ∨ (slotOf p k).state = .uninitialized →
        (slotOf p k).pins = 0 ∧ (slotOf p k).owner = none)
      ∧ (slotOf p k).pins ≤ 4

/-- "The free list holds exactly the FREE slots, each once" (R43); the quarantine count is the number of slots in
QUARANTINED (R56); "a feed never holds more than 11 slots in FILLING, HISTORY and RETIRING together" (R48); the law of
pins (R53). -/
def storeOk (p : Part) : Prop :=
  p.store.freeList.Nodup ∧ (∀ k : SlotIx, k ∈ p.store.freeList ↔ (slotOf p k).state = .free)
    ∧ p.store.quarantine = countSlots p .quarantined ∧ (∀ n, heldBy p n ≤ 11)
    ∧ pinsOk p

/-- The ALARM pin is "asserted while at least one set latch has its kind's mask bit set, and deasserted otherwise"
(R187). -/
def alarmOk (p : Part) : Prop := p.fault.alarm = alarmValue p.fault

/-- The set latches are listed in the order of Table 59, none twice, as the replies of R185 and R186 give them. -/
def latchesOk (p : Part) : Prop := p.fault.latches.Sublist allConds

/-- "Device fatal takes every lane to FAULTED", and no lane leaves it while the flag stands (R135, R189); no integrity
error is left to act on. -/
def fatalOk (p : Part) : Prop :=
  p.fault.fatalDue = false ∧ (p.fault.deviceFatal = true → ∀ n, (p.lanes.get n).state = .faulted)

/-- A row is valid for its table: every coefficient in range, and the row sum (Table 42, R161). -/
def rowValid (t : Table) (r : TRow) : Prop := coefsInRange t r = true ∧ (rowCoefs r).sum = rowSum t

/-- Rows that jobs may read: a whole bank of valid rows. -/
def rowsValid (t : Table) (rows : List TRow) : Prop := rows.length = tableRows t ∧ ∀ r ∈ rows, rowValid t r

/-- A table's active bank is whole and valid and its CRC that of its contents (R158), the shadow bank is whole, and a CRC
held in a commit record is that of shadow contents that are valid (R161). -/
def bankOk (t : Table) (b : TableBanks) (commit : Option (BitVec 16)) : Prop :=
  rowsValid t b.active ∧ b.shadow.length = tableRows t ∧ b.crc = rowsCrc b.active
    ∧ (∀ c, commit = some c → c = rowsCrc b.shadow ∧ rowsValid t b.shadow)

/-- The tables of every lane (R158, R161), with the rows that a job in flight goes on with after a swap (R163). -/
def tablesOk (p : Part) : Prop :=
  ∀ n,
    bankOk .tt (p.lanes.get n).tables.tt ((p.lanes.get n).commit.bind CommitRec.tt)
      ∧ bankOk .hc (p.lanes.get n).tables.hc ((p.lanes.get n).commit.bind CommitRec.hc)
      ∧ bankOk .vc (p.lanes.get n).tables.vc ((p.lanes.get n).commit.bind CommitRec.vc)
      ∧ (∀ k, (p.lanes.get n).job.kept = some k →
        rowsValid .tt k.tt ∧ rowsValid .hc k.hc ∧ rowsValid .vc k.vc)

/-- Sequence numbers run one by one, modulo 2³², up to the next one to be given (R29). -/
def runsTo (next : Nat) : List Entry → Prop
  | [] => True
  | [e] => (e.seq + 1) % 4294967296 = next
  | e :: f :: rest => f.seq = (e.seq + 1) % 4294967296 ∧ runsTo next (f :: rest)

/-- "Stamps strictly increase" along a history (R65, R69), and the last stamp is at or after all of them (R23); without
a last stamp the history is empty (R24, R37). Sequence numbers of 32 bits are consecutive, and at most 8 entries are held
(R29). -/
def historyOk (p : Part) : Prop :=
  ∀ n,
    ((p.feeds.get n).history.Pairwise (fun a b => a.stamp < b.stamp))
      ∧ (p.feeds.get n).history.length ≤ 8
      ∧ (p.feeds.get n).nextSeq < 4294967296 ∧ runsTo (p.feeds.get n).nextSeq (p.feeds.get n).history
      ∧ (match (p.feeds.get n).lastStamp with
         | none => (p.feeds.get n).history = []
         | some v => ∀ e ∈ (p.feeds.get n).history, e.stamp ≤ v)

/-- A step that answers a next state keeps a law. -/
def keptByStep (law : Part → Prop) : Prop := ∀ s t : State, law s.part → step s = .next t → law t.part

end Sys2Proof.Machine
end

