-- ==== Sys2Proof/Certificates/Slice0/Obligations.lean ====
section
/-! DEFINITION. The statements for the provers, in the order of OBLIGATIONS.json: the steps and the laws that every step
keeps, the pure functions, the events, the commands. Each docstring says what is stated and names the rules of spec/. -/

open Sys2Proof Sys2Proof.Machine

/-- For every command c and every state whose queue of waiting commands is c followed by rest, one step answers what
exec c answers on that state with the queue's rest. -/
def Obligations.StepTakesFrontCommand : Prop :=
  ∀ (c : Instr) (rest : List Instr) (s : State),
    s.pending = c :: rest → step s = exec c { s with pending := rest }

/-- Every command, on every state, answers a next state that differs in the part only; so no step ends in a fault or a
refusal. Before any row but PIN_RESET has its effect, and on an empty queue of waiting commands, the command processor
makes every take that is due, one head block after another as the arbiter serves them, until no queue is eligible;
with none due an empty step leaves the state as it is. A command that is taken in the step of its own row has the
effect of that take. (That the takes come at the beginning of the next step, at the instant at which the part stands,
is the model's choice, log entry 2, and that a row sends its own block, log entry 6.) (R169, R171) -/
def Obligations.EveryStepAnswersNext : Prop :=
  (∀ (c : Instr) (s : State), ∃ p : Part, exec c s = .next { s with part := p })
    ∧ (∀ s : State, s.pending = [] → step s = .next (afterTakes s))
    ∧ (∀ s : State, arbiter s.part = none → afterTakes s = s)
    ∧ (∀ (s : State) (n : Ix) (b : Block), arbiter s.part = some n → headBlock s.part n = some b →
        afterTakes s = afterTakes { s with part := takeHead n b s.part })
    ∧ (∀ s : State, arbiter (afterTakes s).part = none)
    ∧ (∀ (c : Instr) (s : State), (∀ a b, c ≠ .pinReset a b) → exec c s = exec c (afterTakes s))
    ∧ (∀ (code : Byte) (env : Env) (cmd : Command) (s : State), takenNow code env cmd s →
        exec (rowOfCode env cmd code) s = .next { s with
          part := takeHead cmd.link ⟨cmd.tag, code, cmd.target, cmd.payload⟩ (partAt code env cmd s) })
    ∧ (∀ s : State, ∃ t : State, step s = .next t)

/-- PIN_RESET, from any state, answers a next state: the straps are as sampled, the timebase is 0, each link is DARK,
or SEEKING where its line interface reports activity, and every receiver, feed, slot record, lane, output, reference,
the management unit and the fault unit hold the reset values the spec gives; both banks of every table hold the
default rows with their CRCs; the first boundary of each output is taken with the reset, at timebase 0 with parity
TOP, the next one a period later and BOUNDARIES at 1 (that it belongs to the reset is the model's choice, log entry
8). Reset values that the spec does not give are not stated. State.reset, whose straps and idle links are the model's
choice (log entry 7), is left as it is by a PIN_RESET with those straps. (R4, R23, R42, R45, R101, R106, R119, R121,
R151, R158, R159, R168, R180) -/
def Obligations.PinResetLeavesResetValues : Prop :=
  (∀ (address : Fin 16) (stdSel : Bool) (s : State),
    ∃ t : State, exec (.pinReset address stdSel) s = .next t ∧ t.pending = s.pending
      ∧ t.part.straps = ⟨address, stdSel⟩ ∧ t.part.timebase = 0 ∧ t.part.mute = false
      ∧ (∀ n,
          (t.part.links.get n).state = (if (s.part.links.get n).activity then .seeking else .dark)
            ∧ (t.part.links.get n).est = none ∧ (t.part.links.get n).window = none
            ∧ (t.part.links.get n).missedRun = 0 ∧ (t.part.links.get n).lastCode = none
            ∧ (t.part.links.get n).lineErrors = 0 ∧ (t.part.links.get n).ctr = ⟨0, 0, 0, 0, 0, 0, 0⟩
            ∧ (t.part.links.get n).settings = ⟨true, .contain, 8, 4, 0x60#8, 0x01#8⟩)
      ∧ (∀ n, t.part.feeds.get n = ⟨false, none, 0, 0, 0, [], ⟨0, 0, 0, 0, 0, 0, 0, 0⟩⟩)
      ∧ (∀ k : SlotIx, slotOf t.part k = ⟨.uninitialized, none, 0, false, 0, true⟩)
      ∧ t.part.store.freeList = [] ∧ t.part.store.quarantine = 0 ∧ t.part.store.initRunning = true
      ∧ t.part.store.initNext = 0 ∧ t.part.store.ctr = ⟨0, 0, 0, 0, 0, 0, 0⟩
      ∧ (∀ n,
          (t.part.lanes.get n).state = .stopped ∧ (t.part.lanes.get n).usable = false
            ∧ (t.part.lanes.get n).holdCount = 0 ∧ (t.part.lanes.get n).acquireAt = none
            ∧ (t.part.lanes.get n).job.inFlight = false ∧ (t.part.lanes.get n).job.kase = .none
            ∧ (t.part.lanes.get n).commit = none ∧ (t.part.lanes.get n).route = ⟨.carry, []⟩
            ∧ (t.part.lanes.get n).carry = [] ∧ (t.part.lanes.get n).tcCount = 0
            ∧ (t.part.lanes.get n).fresh = true ∧ (t.part.lanes.get n).lastLabel = none
            ∧ (t.part.lanes.get n).profile =
              (if stdSel then ⟨n, .s04, .s04, 1351350, 8, 24, 64, 50, 64, 512, 512, 50, .off⟩
               else ⟨n, .s03, .s03, 1620000, 8, 24, 64, 50, 64, 512, 512, 50, .off⟩)
            ∧ (t.part.lanes.get n).jobCtr = ⟨0, 0, 0, 0, 0, 0, 0, 0, 0, 0⟩
            ∧ (t.part.lanes.get n).laneCtr = ⟨0, 0, 0, 0, 0, 0, 0, 0⟩
            ∧ (t.part.lanes.get n).carryCtr = ⟨0, 0, 0, 0, 0, 0, 0, 0⟩
            ∧ (∀ tab : Table,
              (getTable tab (t.part.lanes.get n).tables).shadow = (getTable tab (t.part.lanes.get n).tables).active
                ∧ (getTable tab (t.part.lanes.get n).tables).active.length = tableRows tab
                ∧ (getTable tab (t.part.lanes.get n).tables).crc = (match tab with
                  | .tt => 48855#16
                  | .hc => 8517#16
                  | .vc => 8517#16))
            ∧ (∀ φ k, φ < 64 → k < 4 → (t.part.lanes.get n).tables.tt.active[4 * φ + k]? = some
                (if k < 2 then ⟨0, BitVec.ofNat 16 (1024 - 16 * φ), BitVec.ofNat 16 (16 * φ), 0, true⟩
                 else if φ < 32 then ⟨0, 1024, 0, 0, true⟩ else ⟨0, 0, 1024, 0, true⟩))
            ∧ (∀ h, h < 16 →
              (t.part.lanes.get n).tables.hc.active[h]? =
                  some ⟨0, BitVec.ofNat 16 (256 - 16 * h), BitVec.ofNat 16 (16 * h), 0, true⟩
                ∧ (t.part.lanes.get n).tables.vc.active[h]? =
                  some ⟨0, BitVec.ofNat 16 (256 - 16 * h), BitVec.ofNat 16 (16 * h), 0, true⟩))
      ∧ (∀ n,
          (t.part.outs.get n).standard = (if stdSel then .s04 else .s03) ∧ (t.part.outs.get n).lock = .free
            ∧ (t.part.outs.get n).select = none ∧ (t.part.outs.get n).offset = 0
            ∧ (t.part.outs.get n).policy = .auto ∧ (t.part.outs.get n).relockPending = false
            ∧ (t.part.outs.get n).replies = [] ∧ (t.part.outs.get n).reserved = 0
            ∧ (t.part.outs.get n).notices = [] ∧ (t.part.outs.get n).last = ⟨0, some .top⟩
            ∧ (t.part.outs.get n).next = (if stdSel then 450450 else 540000)
            ∧ (t.part.outs.get n).ctr = ⟨1, 0, 0, 0, 0, 0, 0⟩)
      ∧ (∀ r, getRef t.part r = ⟨false, none, [], none⟩)
      ∧ (∀ n, t.part.mgmt.queues.get n = [] ∧ t.part.mgmt.lost.get n = 0 ∧ t.part.mgmt.laneOps.get n = none
          ∧ t.part.mgmt.outOps.get n = none)
      ∧ t.part.mgmt.lastServed = 3 ∧ t.part.mgmt.restart = true ∧ t.part.mgmt.ctr = ⟨0, 0, 0, 0, 0⟩
      ∧ (∀ l, getLog l t.part = none) ∧ t.part.fault.latches = [] ∧ t.part.fault.mask = 511#9
      ∧ t.part.fault.alarm = false ∧ t.part.fault.deviceFatal = false)
    ∧ exec (.pinReset 0 false) State.reset = .next State.reset

/-- After reset the memory is in its canonical form, and the laws of bounds, reply places, pending records, idle
lanes, slots and free list, latches, alarm line, device fatal, tables and histories hold. (Reset values the spec does
not give are the model's, log entries 7, 8, 10 and 30.) (R29, R43, R48, R117, R121, R143, R158, R174, R187, R189) -/
def Obligations.LawsHoldAtReset : Prop :=
  memoryOk State.reset.part ∧ boundsOk State.reset.part ∧ repliesOk State.reset.part ∧ recordsOk State.reset.part
    ∧ idleOk State.reset.part ∧ storeOk State.reset.part ∧ alarmOk State.reset.part ∧ latchesOk State.reset.part ∧ fatalOk State.reset.part
    ∧ tablesOk State.reset.part ∧ historyOk State.reset.part

/-- From every state whose attached memory lists rising addresses, none at the black that an unlisted address reads
as, a step leaves such a memory, and the list of errors standing in it stays rising. (The listing is the model's own,
log entries 10 and 11.) (R46, R47) -/
def Obligations.MemoryStaysCanonical : Prop := keptByStep (fun p => memoryOk p)

/-- A history never holds more than 8 entries, a carry queue 64 items, a routing table 32 entries, a command queue 8
blocks, a lost count 255, a run of missed markers 3 (2 while the link is MEASURING or LOCKED), a picture 10 packets.
(That the run of missed markers is 0 on entry to MEASURING, on which the bound of 2 rests, is the model's reading, log
entry 14.) (R7, R29, R116, R140, R143, R168) -/
def Obligations.BoundsStay : Prop := keptByStep (fun p => boundsOk p)

/-- A reply queue's blocks and reserved places never exceed 16, every reserved place waits for the DONE of exactly one
pending operation, and the lanes' and outputs' own records (acquire timer, commit record, RELOCK pending) mirror the
pending-operation records. (R117, R170, R174) -/
def Obligations.ReplyPlacesStay : Prop := keptByStep (fun p => repliesOk p ∧ recordsOk p)

/-- A lane in STOPPED or FAULTED has no job in flight and an empty carry queue, and a lane without a job in flight
holds no pins and keeps no rows for a job. (R71, R81, R82, R121, R163) -/
def Obligations.IdleLanesHoldNothing : Prop := keptByStep (fun p => idleOk p)

/-- The free list holds exactly the FREE slots, each once; the quarantine count is the number of QUARANTINED slots; a
feed never holds more than 11 slots in FILLING, HISTORY and RETIRING together; a RETIRING slot has a pin, a FREE,
QUARANTINED or UNINITIALIZED one has no pin and no owner, and none has more than 4. (R42, R43, R44, R48, R53, R56) -/
def Obligations.SlotsAndFreeListAgree : Prop := keptByStep (fun p => storeOk p)

/-- The set latches stand in the order of Table 59, none twice, as the replies of QUERY CONDITIONS and ACK CONDITIONS
list them; the alarm line is asserted exactly while a set latch has its kind's mask bit set; while device fatal stands
every lane is FAULTED; no integrity error is left to act on after a step; with it the pending records stay mirrored.
(R135, R184, R185, R187, R189) -/
def Obligations.FaultUnitLawsStay : Prop :=
  keptByStep (fun p => recordsOk p ∧ alarmOk p ∧ fatalOk p) ∧ keptByStep (fun p => latchesOk p)

/-- Both banks of every table keep their number of rows, every row of an active bank is in its range with its row sum,
the active CRC is the CRC of the active contents, and the CRCs held in a commit record are those of shadow contents
that are valid. The coefficients that a job in flight reads stay those it started with, through every command and
every swap, until the job ends. (R77, R94, R157, R158, R161, R163) -/
def Obligations.TablesKeepTheirCrc : Prop :=
  keptByStep (fun p => tablesOk p)
    ∧ (∀ (i : Instr) (n : Ix) (s t : State), quiet s → exec i s = .next t →
      (s.part.lanes.get n).job.inFlight = true → (t.part.lanes.get n).job.inFlight = true →
      (t.part.lanes.get n).jobNumber = (s.part.lanes.get n).jobNumber →
      sameContents (jobRows t.part n) (jobRows s.part n))

/-- A feed's history holds at most 8 entries with stamps strictly increasing and sequence numbers of 32 bits,
consecutive up to the next sequence number; the last stamp is at or after every stamp held, and without a last stamp
the history is empty. (R23, R24, R29, R37) -/
def Obligations.HistoryStaysOrdered : Prop := keptByStep (fun p => historyOk p)

/-- Outside the two resets, in a state where no take is due: a log that holds a record still holds one after any
command but CLEAR LOG, of at least its severity, the same error where the severity is the same, and changed otherwise
only in its read flag or with the overflow flag set; CLEAR LOG empties only a record with its read flag set; a set
latch stays set under any command but ACK CONDITIONS, which clears none whose cause is present; device fatal stays.
(R181, R183, R184, R185, R189) -/
def Obligations.LogsAndLatchesStay : Prop :=
  ∀ (i : Instr) (s t : State), quiet s → exec i s = .next t →
    (∀ a b, i ≠ .pinReset a b) → (∀ env cmd, i ≠ .deviceReset env cmd) →
    (∀ (l : LogId) (r : LogRec), getLog l s.part = some r → (∀ env cmd, i ≠ .clearLog env cmd) →
        ∃ r' : LogRec, getLog l t.part = some r' ∧ severityRank r.severity ≤ severityRank r'.severity
          ∧ (r'.severity = r.severity → r'.code = r.code ∧ r'.time = r.time ∧ r'.detail = r.detail)
          ∧ (r' = r ∨ r' = { r with read := true } ∨ r'.overflow = true))
      ∧ (∀ (l : LogId) (r : LogRec), getLog l s.part = some r → getLog l t.part = none → r.read = true)
      ∧ (∀ c ∈ s.part.fault.latches, (∀ env cmd, i ≠ .ackConditions env cmd) → c ∈ t.part.fault.latches)
      ∧ (∀ c ∈ s.part.fault.latches, causePresent s.part c = true → c ∈ t.part.fault.latches)
      ∧ (s.part.fault.deviceFatal = true → t.part.fault.deviceFatal = true)

/-- In a state where no take is due: no command but PIN_RESET changes the straps. Outside the two resets the timebase
never goes back, the mute flag changes only by MUTE and UNMUTE, the alarm mask only by SET ALARM MASK, a feed's
settings only by SET FEED, a lane's profile only by SET LANE, its routing table only by SET ROUTE, an output's
reference select and relock policy only by SET OUTPUT. (That the timebase takes the later of its value and the event's
instant is the model's reading, log entry 3.) (R18, R20, R114, R119, R137, R140, R187) -/
def Obligations.SettingsChangeByTheirCommands : Prop :=
  ∀ (i : Instr) (s t : State), quiet s → exec i s = .next t → (∀ a b, i ≠ .pinReset a b) →
    t.part.straps = s.part.straps
      ∧ ((∀ env cmd, i ≠ .deviceReset env cmd) →
          s.part.timebase ≤ t.part.timebase
            ∧ ((∀ env cmd, i ≠ .mute env cmd) → (∀ env cmd, i ≠ .unmute env cmd) → t.part.mute = s.part.mute)
            ∧ ((∀ env cmd, i ≠ .setAlarmMask env cmd) → t.part.fault.mask = s.part.fault.mask)
            ∧ ∀ n,
              ((∀ env cmd, i ≠ .setFeed env cmd) → (t.part.links.get n).settings = (s.part.links.get n).settings)
                ∧ ((∀ env cmd, i ≠ .setLane env cmd) → (t.part.lanes.get n).profile = (s.part.lanes.get n).profile)
                ∧ ((∀ env cmd, i ≠ .setRoute env cmd) → (t.part.lanes.get n).route = (s.part.lanes.get n).route)
                ∧ ((∀ env cmd, i ≠ .setOutput env cmd) →
                    (t.part.outs.get n).select = (s.part.outs.get n).select
                      ∧ (t.part.outs.get n).policy = (s.part.outs.get n).policy))

/-- An event of input link n (activity, marker, line start, line end, packet) with no physical failure given, which
does not take the part into device fatal, leaves every other link receiver, feed, command queue and lost count, every
lane whose source feed is another, both references, the straps, the mute flag and the alarm mask as they were. (R5,
R11, R14, R17, R21) -/
def Obligations.LinkEventsStayLocal : Prop :=
  ∀ (i : Instr) (n : Ix) (env : Env) (s t : State), linkEvent i = some (n, env) → env.upsets = [] → quiet s →
    exec i s = .next t → t.part.fault.deviceFatal = s.part.fault.deviceFatal →
    (∀ m, m ≠ n → t.part.links.get m = s.part.links.get m ∧ t.part.feeds.get m = s.part.feeds.get m
        ∧ t.part.mgmt.queues.get m = s.part.mgmt.queues.get m ∧ t.part.mgmt.lost.get m = s.part.mgmt.lost.get m)
      ∧ (∀ m, (s.part.lanes.get m).profile.source ≠ n → t.part.lanes.get m = s.part.lanes.get m)
      ∧ t.part.refA = s.part.refA ∧ t.part.refB = s.part.refB ∧ t.part.straps = s.part.straps
      ∧ t.part.mute = s.part.mute ∧ t.part.fault.mask = s.part.fault.mask

/-- At a boundary of an output without a change of standard: FREE with no PRESENT compatible reference selected, the
next one lies Po later; FREE, or HOLDOVER under AUTO or with a RELOCK pending, with one, the output is LOCKED with its
relation, k, Pm and last marker, the next boundary is the first aligned instant at or after one period later, and the
alignment is counted, and a RELOCK that is pending in HOLDOVER ends: its record is emptied and its DONE COMPLETE joins
the reply queue of its own link, into its reserved place; LOCKED, the next boundary is the aligned instant within
floor(Po/1024) of one period later, or else the first at or after it, counted as a phase step; in HOLDOVER otherwise
it lies Ph later. An aligned instant of the slower relation with k = 2 or 4 gives an interlaced output TOP at an even
index and BOTTOM at an odd one. At a change of standard the output runs under the new one, and a RELOCK that is
pending ends with DONE COMPLETE likewise, before the replies of the picture are placed. A reference is compatible
under the relations of Table 27 only. Where the offset is below Po, the marker that counts is not after the boundary
and the holdover period is clamped, the interval lies between Po - floor(Po/1024) and 2 x Po - 1. (R105, R107, R108,
R109, R110, R111, R112, R113, R115, R117, R174) -/
def Obligations.BoundaryIntervalLaw : Prop :=
  (∀ (upsets : List Upset) (n : Ix) (s t : State) (o o' : OutUnit) (po : Nat) (due : Int), quiet s →
    o = s.part.outs.get n → (s.part.lanes.get n).profile.output = o.standard → po = periodOf o.standard →
    due = o.next + (po : Int) → exec (.outputBoundary upsets n) s = .next t → o' = t.part.outs.get n →
    o'.last.instant = o.next ∧ o'.standard = o.standard ∧ o'.select = o.select ∧ o'.offset = o.offset
      ∧ o'.ctr.boundaries = bump o.ctr.boundaries
      ∧ (o.lock = .free → lockable s.part o = none →
          o'.lock = .free ∧ o'.next = due ∧ o'.nextParity = none ∧ o'.ctr.alignments = o.ctr.alignments
            ∧ o'.ctr.phaseSteps = o.ctr.phaseSteps ∧ t.part.mgmt.outOps.get n = s.part.mgmt.outOps.get n)
      ∧ (∀ (faster : Bool) (k pr m : Nat), lockable s.part o = some (faster, k, pr, m) →
          (o.lock = .free ∨ ∃ ph, o.lock = .holdover ph ∧ (o.policy = .auto ∨ o.relockPending = true)) →
          o'.lock = .locked ⟨faster, k, if faster then k * pr else pr / k, (m : Int), 0⟩
            ∧ o'.ctr.alignments = bump o.ctr.alignments ∧ o'.ctr.phaseSteps = o.ctr.phaseSteps
            ∧ (o.lock = .free → t.part.mgmt.outOps.get n = s.part.mgmt.outOps.get n)
            ∧ (∀ ph, o.lock = .holdover ph → o'.relockPending = false ∧ t.part.mgmt.outOps.get n = none
              ∧ ∀ q : PendingOp, s.part.mgmt.outOps.get n = some q →
                t.part.fault.deviceFatal = s.part.fault.deviceFatal →
                (t.part.outs.get q.origin).replies.getLast? = some ⟨q.tag, q.code, .done, 0, q.restart, []⟩
                  ∧ (t.part.mgmt.laneOps.get n = s.part.mgmt.laneOps.get n →
                    (t.part.outs.get q.origin).reserved = (s.part.outs.get q.origin).reserved - 1))
            ∧ ∃ i : Nat, o'.next = (m : Int) + (o.offset : Int) + ((i * po : Nat) : Int) ∧ due ≤ o'.next
              ∧ (∀ j : Nat, j < i → (m : Int) + (o.offset : Int) + ((j * po : Nat) : Int) < due)
              ∧ o'.nextParity =
                (if (stdRow o.standard).interlaced = true ∧ faster = false ∧ (k = 2 ∨ k = 4) then
                  some (if i % 2 = 0 then .top else .bottom) else none))
      ∧ (∀ al : Machine.Alignment, o.lock = .locked al →
          o'.lock = .locked al ∧ o'.ctr.alignments = o.ctr.alignments
            ∧ t.part.mgmt.outOps.get n = s.part.mgmt.outOps.get n
            ∧ ∃ i : Nat, o'.next = al.m + (o.offset : Int) + ((i * po : Nat) : Int)
              ∧ o'.nextParity =
                (if (stdRow o.standard).interlaced = true ∧ al.faster = false ∧ (al.k = 2 ∨ al.k = 4) then
                  some (if i % 2 = 0 then .top else .bottom) else none)
              ∧ ((∃ j : Nat, (al.m + (o.offset : Int) + ((j * po : Nat) : Int) - due).natAbs ≤ po / 1024) →
                (o'.next - due).natAbs ≤ po / 1024 ∧ o'.ctr.phaseSteps = o.ctr.phaseSteps)
              ∧ ((∀ j : Nat, po / 1024 < (al.m + (o.offset : Int) + ((j * po : Nat) : Int) - due).natAbs) →
                due ≤ o'.next ∧ (∀ j : Nat, j < i → al.m + (o.offset : Int) + ((j * po : Nat) : Int) < due)
                  ∧ o'.ctr.phaseSteps = bump o.ctr.phaseSteps))
      ∧ (∀ ph : Int, o.lock = .holdover ph →
          lockable s.part o = none ∨ (o.policy = .latched ∧ o.relockPending = false) →
          o'.lock = .holdover ph ∧ o'.next = o.next + ph ∧ o'.nextParity = none
            ∧ o'.relockPending = o.relockPending ∧ o'.ctr.alignments = o.ctr.alignments
            ∧ t.part.mgmt.outOps.get n = s.part.mgmt.outOps.get n)
      ∧ (o.offset < po → (∀ al : Machine.Alignment, o.lock = .locked al → al.m ≤ o.next) →
          (∀ ph, o.lock = .holdover ph → (ph - (po : Int)).natAbs ≤ po * 300 / 1000000) →
          (∀ r m, o.select = some r → (getRef s.part r).last = some m → (m : Int) ≤ o.next) →
          due - (po / 1024 : Nat) ≤ o'.next ∧ o'.next ≤ o.next + 2 * (po : Int) - 1))
    ∧ (∀ (upsets : List Upset) (n : Ix) (s t : State) (o o' : OutUnit), quiet s → o = s.part.outs.get n →
      (s.part.lanes.get n).profile.output ≠ o.standard → exec (.outputBoundary upsets n) s = .next t →
      o' = t.part.outs.get n →
      o'.standard = (s.part.lanes.get n).profile.output ∧ o'.relockPending = false
        ∧ o'.ctr.standardChanges = bump o.ctr.standardChanges ∧ t.part.mgmt.outOps.get n = none
        ∧ (∀ q : PendingOp, s.part.mgmt.outOps.get n = some q →
          t.part.fault.deviceFatal = s.part.fault.deviceFatal →
          (∃ more : List Reply, (t.part.outs.get q.origin).replies =
              ((s.part.outs.get q.origin).replies ++ doneTo q.origin (some q) ++ more).drop
                (if q.origin = n then 2 else 0))
            ∧ (t.part.mgmt.laneOps.get n = s.part.mgmt.laneOps.get n →
              (t.part.outs.get q.origin).reserved = (s.part.outs.get q.origin).reserved - 1)))
    ∧ (∀ (p : Part) (o : OutUnit) (faster : Bool) (k pr m : Nat),
      lockable p o = some (faster, k, pr, m) ↔
        ∃ r, o.select = some r ∧ (getRef p r).present = true ∧ (getRef p r).pr = some pr
          ∧ (getRef p r).last = some m ∧ compatible (periodOf o.standard) pr = some (faster, k))
    ∧ (∀ po pr : Nat,
      (∀ k, compatible po pr = some (false, k) →
          1 ≤ k ∧ k ≤ 4 ∧ ((pr : Int) - ((k * po : Nat) : Int)).natAbs ≤ k * po / 2000)
        ∧ (∀ k, compatible po pr = some (true, k) →
          k = 2 ∧ (((2 * pr : Nat) : Int) - (po : Int)).natAbs ≤ po / 2000)
        ∧ (compatible po pr = none →
          (∀ k, 1 ≤ k → k ≤ 4 → k * po / 2000 < ((pr : Int) - ((k * po : Nat) : Int)).natAbs)
            ∧ po / 2000 < (((2 * pr : Nat) : Int) - (po : Int)).natAbs))

/-- The words of any packet of at most 255 user words, with the checksum computed, are accepted as that packet; cut
short anywhere, or with another checksum word, they are refused. (R3) -/
def Obligations.PacketWordsRoundTrip : Prop :=
  ∀ k : Packet, k.user.length ≤ 255 →
    acceptPacket (packetWords k) = some k
      ∧ (∀ j, j < k.user.length + 4 → acceptPacket ((packetWords k).take j) = none)
      ∧ (∀ c : BitVec 9, c ≠ packetChecksum k →
          acceptPacket ((packetWords k).dropLast ++ [c.setWidth 10]) = none)

/-- Under every label rate the count of a label that exists lies below the labels per day and converts back to that
label with the second-picture flag clear, and every count below the labels per day gives a label that exists and
converts back to that count. The five words of a label that is valid for a standard are read as that label, and words
are read as no label exactly where their number is not 5 or a test of R147 fails. (R147, R149, R150) -/
def Obligations.LabelsAndCountsAreInverse : Prop :=
  (∀ (r : LabelRate) (l : Label), labelOk r l →
      labelToCount r l < labelsPerDay r ∧ countToLabel r (labelToCount r l) = { l with second := false })
    ∧ (∀ (r : LabelRate) (c : Nat), c < labelsPerDay r →
        labelOk r (countToLabel r c) ∧ labelToCount r (countToLabel r c) = c)
    ∧ (∀ (std : Std) (l : Label), labelOk (stdRow std).rate l → (l.second = true → (stdRow std).perLabel = 2) →
        parseLabel std (labelWords l) = some l)
    ∧ (∀ (std : Std) (ws : List Byte), parseLabel std ws = none ↔ labelInvalid std ws)

/-- Whenever at least one tap is PRESENT, each PRESENT tap has its own weight and the weights of those absent taps for
which it is the first PRESENT one in Table 23. So the substituted row has the sum of the row, an absent tap has weight
0, and with one tap PRESENT that tap takes the whole sum. (R72) -/
def Obligations.SubstitutionKeepsTheSum : Prop :=
  ∀ (p : Presence) (w : Weights), p.some = true →
    (substitute p w).wm1 + (substitute p w).w0 + (substitute p w).w1 + (substitute p w).w2
        = w.wm1 + w.w0 + w.w1 + w.w2
      ∧ (∀ x : Src, tapPresent p x = true →
        tapWeight (substitute p w) x = tapWeight w x
          + ((fourTaps.filter (fun y =>
              !tapPresent p y && decide ((homesOf y).find? (tapPresent p) = some x))).map (tapWeight w)).sum)
      ∧ (p.pm1 = false → (substitute p w).wm1 = 0) ∧ (p.p0 = false → (substitute p w).w0 = 0)
      ∧ (p.p1 = false → (substitute p w).w1 = 0) ∧ (p.p2 = false → (substitute p w).w2 = 0)
      ∧ (p = ⟨true, true, true, true⟩ → substitute p w = w)

/-- For every standard, every w_div and every last stamp, a picture start is either absorbed: with m of 0..3 holes,
the stamp n_e + m x Pi lies after the last stamp and within floor(Pi/w_div) of the arrival, the deviation kept is
their difference and no other m passes; or it re-anchors, no m of 0..3 passes, and the stamp is the arrival, or one
more than the last stamp where the arrival is not after it. The correction is a sixteenth of the deviation before,
rounded toward 0 and clamped to the floor of Pi/1024 on both sides. (R25, R26, R27) -/
def Obligations.StampsStayNearArrivals : Prop :=
  (∀ (c : Std) (w : Nat) (prev dPrev a : Int), w ∈ [4, 8, 16, 32, 64] →
    (∀ (m : Nat) (e d : Int), stampOf (some prev) dPrev (periodOf c) w a = .absorbed m e d →
        m ≤ 3 ∧ prev < e ∧ e - prev - (periodOf c : Int) = correction dPrev (periodOf c)
          ∧ d = a - (e + ((m * periodOf c : Nat) : Int)) ∧ d.natAbs ≤ periodOf c / w
          ∧ (∀ j : Nat, j ≤ 3 → (a - e - ((j * periodOf c : Nat) : Int)).natAbs ≤ periodOf c / w → j = m))
      ∧ (∀ st : Int, stampOf (some prev) dPrev (periodOf c) w a = .reanchor st →
          prev < st ∧ (prev < a → st = a) ∧ (a ≤ prev → st = prev + 1)
            ∧ (∀ j : Nat, j ≤ 3 → periodOf c / w <
                (a - (prev + periodOf c + correction dPrev (periodOf c)) - ((j * periodOf c : Nat) : Int)).natAbs))
      ∧ stampOf (some prev) dPrev (periodOf c) w a ≠ .anchor)
    ∧ (∀ (d : Int) (pi : Nat), ∃ q : Int, 16 * q.natAbs ≤ d.natAbs ∧ d.natAbs < 16 * (q.natAbs + 1)
      ∧ (0 ≤ d → 0 ≤ q) ∧ (d ≤ 0 → q ≤ 0)
      ∧ correction d pi = max (-((pi / 1024 : Nat) : Int)) (min q ((pi / 1024 : Nat) : Int)))

/-- Where a line of the picture is left, OUTPUT_LINE emits exactly that line and moves on by one; if the lane's slate
colour lies in 4..1019, every sample of the line lies in 4..1019, whatever the job, the reads and their failures. On a
muted part the line is Y 64, Cb 512, Cr 512 whatever the lane does; on an unmuted part an output whose lane has no job
in flight, or a job that shows nothing, emits the lane's slate colour, and nothing but the line and the output's place
in the picture changes. A job shows something exactly where one of its four taps is PRESENT or it holds a fallback
picture that is not POISONED; so a job of case SLATE, one without fallback, and one whose taps or fallback are all
POISONED emit slate. (R66, R69, R73, R78, R79, R80, R97, R137) -/
def Obligations.EmittedSamplesInRange : Prop :=
  (∀ (env : Env) (n : Ix) (s : State), quiet s →
      (s.part.outs.get n).lineNext < linesPerPicture (s.part.outs.get n).standard →
      inEmittedRange (s.part.lanes.get n).profile.slateY → inEmittedRange (s.part.lanes.get n).profile.slateCb →
      inEmittedRange (s.part.lanes.get n).profile.slateCr →
      ∃ (t : State) (line : EmittedLine), exec (.outputLine env n) s = .next t
        ∧ (t.part.outs.get n).lineOut = some line ∧ line.number = (s.part.outs.get n).lineNext
        ∧ (t.part.outs.get n).lineNext = (s.part.outs.get n).lineNext + 1 ∧ lineInRange line)
    ∧ (∀ (env : Env) (n : Ix) (s : State) (o : OutUnit), quiet s → o = s.part.outs.get n →
      o.lineNext < linesPerPicture o.standard →
      (s.part.mute = true →
        ∃ t : State, exec (.outputLine env n) s = .next t
          ∧ (t.part.outs.get n).lineNext = o.lineNext + 1
          ∧ (t.part.outs.get n).lineOut = some ⟨o.lineNext, List.replicate (stdRow o.standard).width 64,
              List.replicate ((stdRow o.standard).width / 2) 512, List.replicate ((stdRow o.standard).width / 2) 512⟩)
        ∧ (∀ pr : Profile, s.part.mute = false → pr = (s.part.lanes.get n).profile →
          ((s.part.lanes.get n).job.inFlight = false ∨ jobShows (s.part.lanes.get n).job = false) →
          exec (.outputLine env n) s = .next { s with
            part := { foundBy env s with outs := s.part.outs.modify n (fun o =>
              { o with
                lineNext := o.lineNext + 1
                lineOut := some ⟨o.lineNext, List.replicate (stdRow o.standard).width pr.slateY,
                  List.replicate ((stdRow o.standard).width / 2) pr.slateCb,
                  List.replicate ((stdRow o.standard).width / 2) pr.slateCr⟩ }) } }))
    ∧ (∀ j : JobRec, jobShows j = true ↔
      (j.tm1.state = .present ∨ j.t0.state = .present ∨ j.t1.state = .present ∨ j.t2.state = .present
        ∨ ∃ (f : Fallback) (k : SlotIx) (a : Int),
          j.fallback = some f ∧ f.poisonedFrom = none ∧ f.entry.kind = .picture k a))

/-- ACTIVITY_GAINED takes a DARK link to SEEKING with an empty search and changes nothing else. ACTIVITY_LOST takes a
link that is not LOCKED to DARK, empties its structure, window and search (records, line number and line), sets the
run of missed markers to 0, keeps the last identified code, and counts and logs a packet cut off in MEASURING. On a
LOCKED link it has the effects of R11 as well: capture goes OFF, every lane of the feed finds its input not usable (a
lane whose input was usable and that is ACQUIRING or CONVERTING enters HOLDING with hold count 0, or SLATE at a hold
limit of 0, INPUT_LOST latched and HOLD_ENTRIES counted, where the part does not go to device fatal), LINK_LOST is
latched, FLn holds an error, LOCK_LOSSES rises and the line-error count is 0; an incomplete newest PICTURE becomes an
ABANDONED hole, counted, and its slot is FREE at the tail of the free list. (That a cut packet is counted in MEASURING
and LOCKED only, and that the operand says so, are the model's reading and choice, log entries 15 and 16.) (R3, R5,
R11, R21, R36, R122, R129, R130, R163) -/
def Obligations.ActivityMovesTheLink : Prop :=
  (∀ (env : Env) (n : Ix) (s : State), quiet s → (s.part.links.get n).state = .dark →
    exec (.activityGained env n) s = .next { s with
      part := { foundBy env s with links := s.part.links.modify n (fun l =>
        { l with activity := true, state := .seeking, cur := none, recorded := none, lastNumber := none,
                 line := none }) } })
    ∧ (∀ (env : Env) (n : Ix) (cut : Bool) (s : State), quiet s → isLocked (s.part.links.get n).state = false →
      ∃ t : State, exec (.activityLost env n cut) s = .next t
        ∧ (t.part.links.get n).state = .dark ∧ (t.part.links.get n).activity = false
        ∧ (t.part.links.get n).est = none ∧ (t.part.links.get n).window = none
        ∧ (t.part.links.get n).cur = none ∧ (t.part.links.get n).recorded = none
        ∧ (t.part.links.get n).lastNumber = none ∧ (t.part.links.get n).line = none
        ∧ (t.part.links.get n).missedRun = 0
        ∧ (t.part.links.get n).lastCode = (s.part.links.get n).lastCode
        ∧ (t.part.links.get n).settings = (s.part.links.get n).settings
        ∧ (t.part.links.get n).ctr = (if cut = true ∧ (s.part.links.get n).state = .measuring then
            { (s.part.links.get n).ctr with packetErrors := bump (s.part.links.get n).ctr.packetErrors }
            else (s.part.links.get n).ctr)
        ∧ getLog (.fl n) t.part = (if cut = true ∧ (s.part.links.get n).state = .measuring then
            logReport .badPacket t.part.timebase .none (getLog (.fl n) s.part) else getLog (.fl n) s.part)
        ∧ t.part.feeds = s.part.feeds ∧ t.part.lanes = (foundBy env s).lanes ∧ t.part.outs = s.part.outs)
    ∧ (∀ (env : Env) (n : Ix) (cut : Bool) (s : State), quiet s → isLocked (s.part.links.get n).state = true →
      ∃ t : State, exec (.activityLost env n cut) s = .next t
        ∧ (t.part.links.get n).state = .dark ∧ (t.part.links.get n).lineErrors = 0
        ∧ (t.part.links.get n).activity = false ∧ (t.part.links.get n).est = none
        ∧ (t.part.links.get n).window = none ∧ (t.part.links.get n).cur = none
        ∧ (t.part.links.get n).recorded = none ∧ (t.part.links.get n).lastNumber = none
        ∧ (t.part.links.get n).missedRun = 0
        ∧ (t.part.links.get n).lastCode = (s.part.links.get n).lastCode
        ∧ (t.part.links.get n).ctr.lockLosses = bump (s.part.links.get n).ctr.lockLosses
        ∧ (t.part.feeds.get n).captureOn = false
        ∧ (∀ m, (s.part.lanes.get m).profile.source = n → (t.part.lanes.get m).usable = false)
        ∧ (t.part.fault.deviceFatal = s.part.fault.deviceFatal →
        ∀ m, (s.part.lanes.get m).profile.source = n → losesInput (foundBy env s) t.part m)
        ∧ Cond.linkLost n ∈ t.part.fault.latches ∧ (getLog (.fl n) t.part).isSome = true
        ∧ (∀ (e : Entry) (k : SlotIx) (a : Int), newest (s.part.feeds.get n) = some e → e.kind = .picture k a →
          e.complete = false → (slotOf (foundBy env s) k).intact = true → (slotOf s.part k).owner = some n →
          (slotOf s.part k).state = .filling → (slotOf s.part k).pins = 0 → (slotOf s.part k).poisoned = false →
          (t.part.feeds.get n).history =
              (s.part.feeds.get n).history.dropLast ++ [{ e with kind := .hole .abandoned, complete := true }]
            ∧ (t.part.feeds.get n).ctr.holesAbandoned = bump (s.part.feeds.get n).ctr.holesAbandoned
            ∧ (slotOf t.part k).state = .free ∧ (slotOf t.part k).owner = none
            ∧ t.part.store.freeList = s.part.store.freeList ++ [k]))

/-- PICTURE_MARKER in SEEKING begins the first candidate, records it at the next marker, and at a consistent pair
takes the link to MEASURING with the structure and a new window; an inconsistent pair or a break of the line sequence
begins the search again at the next marker. In MEASURING and LOCKED a structure break takes the link to SEEKING, a
LOCKED one with the effects of R11 and, out of device fatal, R129 (losesInput). In MEASURING a marker that passes
advances the window, or begins one after a missed marker. The eighth period locks the link with the code of the one
catalogue row that matches, counted, with a new window, and the marker is handed on; a lane's input is usable exactly
under its input standard, which takes HOLDING and SLATE to ACQUIRING, and another code latches STD_MISMATCH where the
lane runs (findsCode; that the hold count stands is the model's choice, log entry 45). With another last identified
code the feed flushes first and, without an integrity error, holds a new segment with the entry that the marker
anchors, none without a running lane; with the same code or none nothing is flushed. Without a match UNIDENTIFIED
rises and a new window begins. In LOCKED a marker that passes advances or begins a window and is handed on, the run
and line errors 0; with capture OFF no other block changes. An eighth period outside the tolerance takes the link to
SEEKING with the same effects and hands nothing on. A packet cut off counts first (log entries 15, 16). In DARK
nothing happens. The model's choice: the clauses for a marker that passes in MEASURING and LOCKED have a picture begun
by a missed marker record no total line count (log entry 43). Its reading: parity is compared at the ending marker
(log entry 13), and what SEEKING holds after a break (log entries 14, 17, 18, 33). (R3, R6, R7, R8, R9, R10, R11, R12,
R22, R37, R122, R123, R129, R130, R131, R163) -/
def Obligations.MarkerIdentifiesTheLink : Prop :=
  (∀ (e : Established) (sum : Nat),
      (∀ a b : Std, rowMatches e sum a = true → rowMatches e sum b = true → a = b)
        ∧ (∀ c : Std, identifyWindow e sum = some c ↔ rowMatches e sum c = true))
    ∧ (∀ (env : Env) (n : Ix) (number : Nat) (parity : Parity) (blank : Bool) (s : State) (e : Established)
        (c : Current) (w : Window) (code : Std) (now : Nat), quiet s →
      (s.part.links.get n).state = .measuring → (s.part.links.get n).est = some e →
      (s.part.links.get n).cur = some c → outOfSequence (s.part.links.get n).lastNumber number true = false →
      (c.checked && breaks e c) = false → (s.part.links.get n).window = some w → w.count = 7 →
      now = max s.part.timebase env.time → identifyWindow e (now - w.start) = some code →
      ∃ t : State, exec (.pictureMarker env n number parity blank false) s = .next t
        ∧ t.part.links.get n =
          { s.part.links.get n with
            state := .locked code, lastCode := some code, window := some ⟨now, 0⟩, missedRun := 0, lineErrors := 0
            ctr := { (s.part.links.get n).ctr with identified := bump (s.part.links.get n).ctr.identified }
            cur := some { beginPicture parity (expectedParity e c.parity) blank true with handed := true }
            lastNumber := some number, line := some (!blank) }
        ∧ (∀ m, (s.part.lanes.get m).profile.source = n →
            (t.part.lanes.get m).usable = decide ((s.part.lanes.get m).profile.input = code))
        ∧ (t.part.fault.deviceFatal = s.part.fault.deviceFatal →
            ∀ m, (s.part.lanes.get m).profile.source = n → findsCode (foundBy env s) t.part m code)
        ∧ (∀ (f f' : Feed) (old : Std), f = s.part.feeds.get n → f' = t.part.feeds.get n →
          t.part.fault.deviceFatal = s.part.fault.deviceFatal →
          f'.captureOn = decide (0 < runningCount s.part n)
            ∧ ((s.part.links.get n).lastCode = some old → old ≠ code →
              f'.segment = (f.segment + 1) % 65536 ∧ f'.ctr.flushes = bump f.ctr.flushes ∧ f'.dPrev = 0
                ∧ (runningCount s.part n = 0 → f'.history = [] ∧ f'.lastStamp = none ∧ f'.nextSeq = f.nextSeq)
                ∧ (0 < runningCount s.part n → f'.lastStamp = some (now : Int)
                  ∧ ∃ x : Entry, f'.history = [x] ∧ x.seq = f.nextSeq ∧ x.segment = (f.segment + 1) % 65536
                    ∧ x.stamp = (now : Int) ∧ (x.kind = .hole .noBuffer ∨ ∃ k, x.kind = .picture k (now : Int))))
            ∧ ((s.part.links.get n).lastCode = none ∨ (s.part.links.get n).lastCode = some code →
              f'.ctr.flushes = f.ctr.flushes))
        ∧ (∀ (old : Std) (p : Part), (s.part.links.get n).lastCode = some old → old ≠ code →
          p = flushFeed n (foundBy env s) → p.fault.fatalDue = false →
          exec (.pictureMarker env n number parity blank false) s =
            exec (.pictureMarker ⟨env.time, []⟩ n number parity blank false) { s with
              part := { p with links := s.part.links.modify n (fun l => { l with lastCode := some code }) } }))
    ∧ (∀ (env : Env) (n : Ix) (number : Nat) (parity : Parity) (blank : Bool) (s : State) (l : LinkRx) (now : Nat),
      quiet s → l = s.part.links.get n → now = max s.part.timebase env.time →
      (l.state = .dark →
        exec (.pictureMarker env n number parity blank false) s = .next { s with part := foundBy env s })
      ∧ (l.state = .seeking →
        exec (.pictureMarker env n number parity blank false) s = .next { s with
          part := { foundBy env s with
           links := s.part.links.set n
            (if outOfSequence l.lastNumber number true then
              { l with cur := none, recorded := none, lastNumber := some number, line := some (!blank) }
             else match l.cur, l.recorded with
              | none, _ =>
                { l with
                  cur := some (beginPicture parity parity blank true), recorded := none
                  lastNumber := some number, line := some (!blank) }
              | some c, none =>
                { l with
                  cur := some (beginPicture parity parity blank true), recorded := some (measuredOf c)
                  lastNumber := some number, line := some (!blank) }
              | some c, some r =>
                if r.active = (measuredOf c).active ∧ r.active ≠ 0 ∧ r.samples = (measuredOf c).samples
                    ∧ r.samples ≠ 0
                    ∧ ((r.parity = .top ∧ c.parity = .top ∧ r.total = c.total)
                      ∨ (r.parity ≠ c.parity ∧ ((r.total : Int) - (c.total : Int)).natAbs ≤ 1)) then
                  { l with
                    state := .measuring
                    est := some
                      { active := c.active, samples := sampleCount c
                        pattern := if r.parity = c.parity then .allTop else .alternating
                        totalTop := if c.parity = .top then some c.total
                          else if r.parity = .top then some r.total else none
                        totalBottom := if c.parity = .bottom then some c.total
                          else if r.parity = .bottom then some r.total else none }
                    window := some ⟨now, 0⟩, missedRun := 0, recorded := none
                    cur := some (beginPicture parity (if r.parity = c.parity then .top else oppositeParity c.parity)
                      blank true)
                    lastNumber := some number, line := some (!blank) }
                else { l with cur := none, recorded := none, lastNumber := some number, line := some (!blank) }) } })
      ∧ (∀ (e : Established) (c : Current), extracts l.state = true → l.est = some e → l.cur = some c →
        (outOfSequence l.lastNumber number true = true ∨ (c.checked = true ∧ breaks e c = true)) →
        ∃ t : State, exec (.pictureMarker env n number parity blank false) s = .next t
          ∧ t.part.links.get n =
            { l with
              state := .seeking, est := none, window := none, recorded := none
              cur := some (beginPicture parity parity blank true)
              lineErrors := if isLocked l.state then 0 else l.lineErrors
              ctr := if isLocked l.state then { l.ctr with lockLosses := bump l.ctr.lockLosses } else l.ctr
              lastNumber := some number, line := some (!blank) }
          ∧ (if isLocked l.state then
              (t.part.feeds.get n).captureOn = false ∧ Cond.linkLost n ∈ t.part.fault.latches
                ∧ (getLog (.fl n) t.part).isSome = true
                ∧ (t.part.feeds.get n).nextSeq = (s.part.feeds.get n).nextSeq
                ∧ (∀ m, (s.part.lanes.get m).profile.source = n → (t.part.lanes.get m).usable = false)
                ∧ (t.part.fault.deviceFatal = s.part.fault.deviceFatal →
              ∀ m, (s.part.lanes.get m).profile.source = n → losesInput (foundBy env s) t.part m)
             else t.part = { foundBy env s with links := t.part.links }))
      ∧ (∀ (e : Established) (c : Current), l.state = .measuring → l.est = some e → l.cur = some c →
        outOfSequence l.lastNumber number true = false → (c.checked && breaks e c) = false →
        (∀ w, l.window = some w → w.count + 1 = 8 → identifyWindow e (now - w.start) = none) →
        (∀ w, l.window = some w → w.count < 8) →
        exec (.pictureMarker env n number parity blank false) s = .next { s with
          part := { foundBy env s with
           links := s.part.links.set n
            { l with
              window := (match l.window with
                | none => some ⟨now, 0⟩
                | some w => if w.count + 1 < 8 then some ⟨w.start, w.count + 1⟩ else some ⟨now, 0⟩)
              ctr := (match l.window with
                | none => l.ctr
                | some w => if w.count + 1 < 8 then l.ctr
                  else { l.ctr with unidentified := bump l.ctr.unidentified })
              missedRun := 0, cur := some (beginPicture parity (expectedParity e c.parity) blank true)
              lastNumber := some number, line := some (!blank) } } })
      ∧ (∀ (code : Std) (e : Established) (c : Current) (w : Window), l.state = .locked code → l.est = some e →
        l.cur = some c → outOfSequence l.lastNumber number true = false → (c.checked && breaks e c) = false →
        l.window = some w → w.count = 7 →
        8 * periodOf code * 300 / 1000000
          < (((now - w.start : Nat) : Int) - ((8 * periodOf code : Nat) : Int)).natAbs →
        ∃ t : State, exec (.pictureMarker env n number parity blank false) s = .next t
          ∧ t.part.links.get n =
            { l with
              state := .seeking, est := none, window := none, recorded := none, cur := none, missedRun := 0
              lineErrors := 0, ctr := { l.ctr with lockLosses := bump l.ctr.lockLosses }
              lastNumber := some number, line := some (!blank) }
          ∧ (t.part.feeds.get n).captureOn = false ∧ Cond.linkLost n ∈ t.part.fault.latches
          ∧ (getLog (.fl n) t.part).isSome = true
          ∧ (∀ m, (s.part.lanes.get m).profile.source = n → (t.part.lanes.get m).usable = false)
          ∧ (t.part.fault.deviceFatal = s.part.fault.deviceFatal →
            ∀ m, (s.part.lanes.get m).profile.source = n → losesInput (foundBy env s) t.part m)
          ∧ (t.part.feeds.get n).nextSeq = (s.part.feeds.get n).nextSeq)
      ∧ (∀ (code : Std) (e : Established) (c : Current), handsOn s n number code e c now →
        ∃ t : State, exec (.pictureMarker env n number parity blank false) s = .next t
          ∧ t.part.links = s.part.links.set n
            { l with
              window := some (windowAfter l.window now), missedRun := 0, lineErrors := 0
              cur := some { beginPicture parity (expectedParity e c.parity) blank true with handed := true }
              lastNumber := some number, line := some (!blank) }
          ∧ ((s.part.feeds.get n).captureOn = false → t.part = { foundBy env s with links := t.part.links }))
      ∧ (exec (.pictureMarker env n number parity blank true) s =
          if extracts l.state then
            exec (.pictureMarker ⟨env.time, []⟩ n number parity blank false) { s with
              part := { foundBy env s with
                links := s.part.links.modify n (fun l =>
                  { l with ctr := { l.ctr with packetErrors := bump l.ctr.packetErrors } })
                fault := { s.part.fault with
                  feedLogs := s.part.fault.feedLogs.modify n (logReport .badPacket now .none) } } }
          else exec (.pictureMarker env n number parity blank false) s))
    ∧ (∀ (e : Established) (c : Current),
      breaks e c = true ↔
        c.active ≠ e.active ∨ sampleCount c ≠ e.samples ∨ c.parity ≠ c.expected
          ∨ (∃ t, (match c.parity with | .top => e.totalTop | .bottom => e.totalBottom) = some t ∧ c.total ≠ t))

/-- In LOCKED with capture ON, an empty history and no last stamp, a marker that passes the check, within a window or
at its end inside the tolerance, becomes a picture start: its stamp is its arrival, the entry is an incomplete PICTURE
with the next sequence number in the slot at the head of the free list, which becomes FILLING with the feed as owner;
the segment number stands, no error is reported and no other feed, lane or latch changes. (R12, R23, R24, R31, R48) -/
def Obligations.MarkerAnchorsAPicture : Prop :=
  ∀ (env : Env) (n : Ix) (number : Nat) (parity : Parity) (blank : Bool) (s : State) (e : Established)
      (c : Current) (code : Std) (k : SlotIx) (rest : List SlotIx) (f : Feed) (now : Nat),
    quiet s → handsOn s n number code e c now →
    f = s.part.feeds.get n → f.captureOn = true → f.history = [] → f.lastStamp = none →
    heldBy s.part n < 11 → s.part.store.freeList = k :: rest → (slotOf (foundBy env s) k).intact = true →
    (slotOf s.part k).state = .free → now = max s.part.timebase env.time →
    ∃ t : State, exec (.pictureMarker env n number parity blank false) s = .next t
      ∧ t.part.feeds = s.part.feeds.set n
        { f with
          lastStamp := some (now : Int), dPrev := 0, nextSeq := (f.nextSeq + 1) % 4294967296
          history := [⟨f.nextSeq, f.segment, (now : Int), .picture k (now : Int),
            if (stdRow code).interlaced then some parity else none, false, 0, none⟩]
          ctr := { f.ctr with picturesStamped := bump f.ctr.picturesStamped } }
      ∧ t.part.store.freeList = rest
      ∧ (slotOf t.part k).state = .filling ∧ (slotOf t.part k).owner = some n ∧ (slotOf t.part k).pins = 0
      ∧ (slotOf t.part k).poisoned = false ∧ (slotOf t.part k).corrected = (slotOf s.part k).corrected
      ∧ (∀ j, j ≠ k → slotOf t.part j = slotOf (foundBy env s) j)
      ∧ t.part.store.mem = s.part.store.mem
      ∧ t.part.lanes = (foundBy env s).lanes ∧ t.part.outs = s.part.outs ∧ t.part.mgmt = s.part.mgmt
      ∧ t.part.fault = s.part.fault

/-- A marker of a LOCKED link that is handed on while capture is ON and the newest entry is settled: outside every
slip test it re-anchors in a new segment, latches SLIP, reports REANCHOR and counts it; within one it appends the
MISSED holes of the gap, each a period after the other with alternating parity for an interlaced code, reported and
counted, and then the PICTURE with the stamp and the deviation kept. Without a slot, at the ceiling or on an empty
free list, the entry is a complete NO_BUFFER hole, reported and counted, and the refusal is counted by its reason. A
full history gives up its oldest entry, whose unpinned slot is FREE at the tail of the free list. Where the newest
entry is an incomplete PICTURE, it becomes an ABANDONED hole before anything else: its unpinned slot is FREE at the
tail of the free list, HOLES_ABANDONED rises, ABANDONED is reported to FLn with the sequence of the entry, and the
picture start goes on from there. The link record after the marker is pinned too; that the marker that ends a picture
begun by a missed marker records no total line count is the model's choice (log entry 43). (R12, R26, R27, R30, R31,
R32, R36, R48, R49, R51) -/
def Obligations.PictureStartsKeepTheTimeline : Prop :=
  (∀ (env : Env) (n : Ix) (number : Nat) (parity : Parity) (blank : Bool) (s : State) (code : Std) (e : Established)
      (c : Current) (f : Feed) (now : Nat) (par : Option Parity) (sg : Stamping), quiet s →
    handsOn s n number code e c now → f = s.part.feeds.get n → f.captureOn = true → f.nextSeq < 4294967296 →
    (∀ x, newest f = some x → isOpenPicture x = false) → now = max s.part.timebase env.time →
    par = (if (stdRow code).interlaced then some parity else none) →
    sg = stampOf f.lastStamp f.dPrev (periodOf code) (s.part.links.get n).settings.wDiv (now : Int) →
    (∀ (st : Int) (k : SlotIx) (rest : List SlotIx), sg = .reanchor st → f.history.length < 8 →
        nextGrant env s n k rest →
        ∃ t : State, exec (.pictureMarker env n number parity blank false) s = .next t
          ∧ t.part.feeds = s.part.feeds.set n
            { f with
              segment := (f.segment + 1) % 65536, lastStamp := some st, dPrev := 0
              nextSeq := (f.nextSeq + 1) % 4294967296
              history := f.history
                ++ [⟨f.nextSeq, (f.segment + 1) % 65536, st, .picture k (now : Int), par, false, 0, none⟩]
              ctr := { f.ctr with
                reanchors := bump f.ctr.reanchors, picturesStamped := bump f.ctr.picturesStamped } }
          ∧ Cond.slip n ∈ t.part.fault.latches
          ∧ getLog (.fl n) t.part = logReport .reanchor now (.sequence f.nextSeq) (getLog (.fl n) s.part)
          ∧ t.part.store.freeList = rest ∧ (slotOf t.part k).state = .filling ∧ (slotOf t.part k).owner = some n)
      ∧ (∀ (m : Nat) (first d : Int) (k : SlotIx) (rest : List SlotIx), sg = .absorbed m first d →
        f.history.length + m < 8 → nextGrant env s n k rest →
        ∃ (t : State) (holes : List Entry), exec (.pictureMarker env n number parity blank false) s = .next t
          ∧ holes.length = m
          ∧ (t.part.feeds.get n).history = f.history ++ holes
              ++ [⟨(f.nextSeq + m) % 4294967296, f.segment, first + ((m * periodOf code : Nat) : Int),
                .picture k (now : Int), par, false, 0, none⟩]
          ∧ (∀ i x, holes[i]? = some x →
            x.seq = (f.nextSeq + i) % 4294967296 ∧ x.segment = f.segment
              ∧ x.stamp = first + ((i * periodOf code : Nat) : Int) ∧ x.kind = .hole .missed ∧ x.complete = true
              ∧ x.lineErrors = 0 ∧ x.label = none
              ∧ (x.parity = if (stdRow code).interlaced then
                  some (match ((f.history ++ holes.take i).getLast?).bind Entry.parity with
                    | some v => oppositeParity v
                    | none => .top)
                else none))
          ∧ (t.part.feeds.get n).lastStamp = some (first + ((m * periodOf code : Nat) : Int))
          ∧ (t.part.feeds.get n).dPrev = d ∧ (t.part.feeds.get n).segment = f.segment
          ∧ (t.part.feeds.get n).nextSeq = (f.nextSeq + m + 1) % 4294967296
          ∧ (t.part.feeds.get n).ctr = { f.ctr with
              holesMissed := bump^[m] f.ctr.holesMissed, picturesStamped := bump f.ctr.picturesStamped }
          ∧ getLog (.fl n) t.part =
            (List.range m).foldl (fun r i => logReport .missed now (.sequence ((f.nextSeq + i) % 4294967296)) r)
              (getLog (.fl n) s.part)
          ∧ t.part.store.freeList = rest ∧ (slotOf t.part k).state = .filling ∧ (slotOf t.part k).owner = some n)
      ∧ (∀ (st d : Int), (sg = .absorbed 0 st d ∨ (sg = .anchor ∧ st = (now : Int) ∧ d = 0)) →
        f.history.length < 8 → (11 ≤ heldBy s.part n ∨ s.part.store.freeList = []) →
        ∃ t : State, exec (.pictureMarker env n number parity blank false) s = .next t
          ∧ t.part.feeds = s.part.feeds.set n
            { f with
              lastStamp := some st, dPrev := d, nextSeq := (f.nextSeq + 1) % 4294967296
              history := f.history ++ [⟨f.nextSeq, f.segment, st, .hole .noBuffer, par, true, 0, none⟩]
              ctr := { f.ctr with
                holesNoBuffer := bump f.ctr.holesNoBuffer, picturesStamped := bump f.ctr.picturesStamped } }
          ∧ getLog (.fl n) t.part = logReport .noBuffer now (.sequence f.nextSeq) (getLog (.fl n) s.part)
          ∧ t.part.store = { (foundBy env s).store with
              ctr := if 11 ≤ heldBy s.part n then
                { s.part.store.ctr with refusedCeiling := bump s.part.store.ctr.refusedCeiling }
                else { s.part.store.ctr with refusedEmpty := bump s.part.store.ctr.refusedEmpty } })
      ∧ (∀ (st d : Int) (k j : SlotIx) (rest : List SlotIx) (old : Entry) (kept : List Entry) (a : Int),
        sg = .absorbed 0 st d → f.history = old :: kept → kept.length = 7 → old.kind = .picture j a →
        (slotOf (foundBy env s) j).intact = true → (slotOf s.part j).owner = some n →
        (slotOf s.part j).state = .history → (slotOf s.part j).pins = 0 → (slotOf s.part j).poisoned = false →
        nextGrant env s n k rest →
        ∃ t : State, exec (.pictureMarker env n number parity blank false) s = .next t
          ∧ (t.part.feeds.get n).history =
            kept ++ [⟨f.nextSeq, f.segment, st, .picture k (now : Int), par, false, 0, none⟩]
          ∧ t.part.store.freeList = rest ++ [j] ∧ (slotOf t.part j).state = .free
          ∧ (slotOf t.part j).owner = none ∧ (slotOf t.part k).state = .filling)
      ∧ (∀ t : State, exec (.pictureMarker env n number parity blank false) s = .next t →
        t.part.links.get n =
          { s.part.links.get n with
            window := some (windowAfter (s.part.links.get n).window now), missedRun := 0, lineErrors := 0
            cur := some { beginPicture parity (expectedParity e c.parity) blank true with handed := true }
            lastNumber := some number, line := some (!blank) }))
    ∧ (∀ (env : Env) (n : Ix) (number : Nat) (parity : Parity) (blank : Bool) (s : State) (code : Std)
        (e : Established) (c : Current) (f : Feed) (now : Nat) (q : Part) (x : Entry) (k : SlotIx) (a : Int), quiet s →
      handsOn s n number code e c now → f = s.part.feeds.get n → f.captureOn = true →
      now = max s.part.timebase env.time → q = foundBy env s →
      newest f = some x → x.kind = .picture k a → x.complete = false →
      (slotOf q k).intact = true → (slotOf q k).owner = some n → (slotOf q k).state = .filling →
      (slotOf q k).pins = 0 → (slotOf q k).poisoned = false →
      exec (.pictureMarker env n number parity blank false) s =
        exec (.pictureMarker ⟨env.time, []⟩ n number parity blank false) { s with
          part := { q with
            feeds := s.part.feeds.set n
              { f with
                history := f.history.dropLast ++ [{ x with kind := .hole .abandoned, complete := true }]
                ctr := { f.ctr with holesAbandoned := bump f.ctr.holesAbandoned } }
            store := { q.store with
              slots := q.store.slots.set k.val { slotOf q k with state := .free, owner := none }
              freeList := s.part.store.freeList ++ [k] }
            fault := { s.part.fault with
              feedLogs := s.part.fault.feedLogs.modify n (logReport .abandoned now (.sequence x.seq)) } } })

/-- LINE_START in MEASURING and LOCKED: a line number in sequence counts the line; one out of sequence takes the link
to SEEKING without structure; number 1 is a missed marker, which raises MISSED_MARKERS and ends the window: with fewer
than two missed before it the run rises by one, the link stays and a picture of the expected parity begins whose
properties are not checked, and no other block changes; with two before it the link goes to SEEKING. A LOCKED link
that goes to SEEKING has the effects of R11, and of R129: a lane whose input was usable and that is ACQUIRING or
CONVERTING enters HOLDING with hold count 0, or SLATE at a hold limit of 0, INPUT_LOST latched and HOLD_ENTRIES
counted, where the part does not go to device fatal. In SEEKING number 1 or a number out of sequence discards the
records, any other counts the line; in DARK nothing happens. A packet cut off counts and reports first, in MEASURING
and LOCKED only (log entries 15 and 16). That structure and window are emptied on every way to SEEKING, where the
search goes on, and that the line start's own parity is not used, are the model's reading (log entries 17, 33 and 34);
that a missed marker changes no recorded total line count is its choice (log entry 43). (R1, R3, R6, R7, R11, R122,
R129, R130, R163) -/
def Obligations.MissedMarkersCount : Prop :=
  ∀ (env : Env) (n : Ix) (number : Nat) (parity : Parity) (blank : Bool) (s : State) (l : LinkRx), quiet s →
    l = s.part.links.get n →
    (∀ (e : Established) (c : Current), extracts l.state = true → l.est = some e → l.cur = some c →
      l.missedRun < 2 →
      exec (.lineStart env n 1 parity blank false) s = .next { s with
        part := { foundBy env s with links := s.part.links.modify n (fun l =>
          { l with
            ctr := { l.ctr with missedMarkers := bump l.ctr.missedMarkers }
            missedRun := l.missedRun + 1, window := none
            cur := some (beginPicture (expectedParity e c.parity) (expectedParity e c.parity) blank false)
            lastNumber := some 1, line := some (!blank) }) } })
    ∧ (extracts l.state = true →
      ((number = 1 ∧ l.missedRun = 2) ∨ (number ≠ 1 ∧ outOfSequence l.lastNumber number false = true)) →
      ∃ t : State, exec (.lineStart env n number parity blank false) s = .next t
        ∧ t.part.links.get n =
          { l with
            state := .seeking, est := none, window := none, recorded := none, cur := none
            missedRun := if number = 1 then 3 else l.missedRun
            lineErrors := if isLocked l.state then 0 else l.lineErrors
            ctr := { l.ctr with
              missedMarkers := if number = 1 then bump l.ctr.missedMarkers else l.ctr.missedMarkers
              lockLosses := if isLocked l.state then bump l.ctr.lockLosses else l.ctr.lockLosses }
            lastNumber := some number, line := some (!blank) }
        ∧ (if isLocked l.state then
            (t.part.feeds.get n).captureOn = false ∧ Cond.linkLost n ∈ t.part.fault.latches
              ∧ (getLog (.fl n) t.part).isSome = true
              ∧ (∀ m, (s.part.lanes.get m).profile.source = n → (t.part.lanes.get m).usable = false)
              ∧ (t.part.fault.deviceFatal = s.part.fault.deviceFatal →
            ∀ m, (s.part.lanes.get m).profile.source = n → losesInput (foundBy env s) t.part m)
           else t.part = { foundBy env s with links := t.part.links }))
    ∧ (extracts l.state = true → number ≠ 1 → outOfSequence l.lastNumber number false = false →
      exec (.lineStart env n number parity blank false) s = .next { s with
        part := { foundBy env s with links := s.part.links.modify n (fun l =>
          { l with
            cur := l.cur.map (fun c =>
              { c with total := c.total + 1, active := if blank then c.active else c.active + 1 })
            lastNumber := some number, line := some (!blank) }) } })
    ∧ (l.state = .seeking →
      exec (.lineStart env n number parity blank false) s = .next { s with
        part := { foundBy env s with links := s.part.links.modify n (fun l =>
          { l with
            cur := if number = 1 ∨ outOfSequence l.lastNumber number false = true then none
              else l.cur.map (fun c =>
                { c with total := c.total + 1, active := if blank then c.active else c.active + 1 })
            recorded := if number = 1 ∨ outOfSequence l.lastNumber number false = true then none else l.recorded
            lastNumber := some number, line := some (!blank) }) } })
    ∧ (l.state = .dark →
      exec (.lineStart env n number parity blank false) s = .next { s with part := foundBy env s })
    ∧ (exec (.lineStart env n number parity blank true) s =
        if extracts l.state then
          exec (.lineStart ⟨env.time, []⟩ n number parity blank false) { s with
            part := { foundBy env s with
              links := s.part.links.modify n (fun l =>
                { l with ctr := { l.ctr with packetErrors := bump l.ctr.packetErrors } })
              fault := { s.part.fault with
                feedLogs := s.part.fault.feedLogs.modify n
                  (logReport .badPacket (max s.part.timebase env.time) .none) } } }
        else exec (.lineStart env n number parity blank false) s)

/-- At the end of a line that was begun, in MEASURING or LOCKED, LINE_ERRORS rises exactly when the check word differs
from the check over the line's active samples (FFFFh for a blanking line); the picture's line-error count rises with
it, to at most 65535, when the line is an active line of a picture handed on; in SEEKING neither changes. While
capture is ON and the newest entry is an incomplete PICTURE, the samples of an active line of the picture handed on go
into its slot at the line's position, component by component from sample 0, within the raster; every other address of
the memory, and all of it on any other line, reads as before (that the samples of a slot are numbered as sampleAddress
has them is the model's choice, log entry 11). (R1, R2, R33, R47) -/
def Obligations.LineEndChecksTheLine : Prop :=
  ∀ (env : Env) (n : Ix) (samples : List LinkSample) (check : BitVec 16) (s : State) (active : Bool) (l : LinkRx),
    quiet s → memoryOk s.part → l = s.part.links.get n → l.line = some active →
    ∃ t : State, exec (.lineEnd env n samples check) s = .next t
      ∧ (t.part.links.get n).line = none
      ∧ (t.part.links.get n).state = l.state
      ∧ (t.part.links.get n).ctr =
        (if extracts l.state = true ∧ check ≠ lineCheck (if active then samples else []) then
          { l.ctr with lineErrors := bump l.ctr.lineErrors } else l.ctr)
      ∧ (t.part.links.get n).lineErrors =
        (if isLocked l.state = true ∧ active = true ∧ l.cur.any Current.handed = true
            ∧ check ≠ lineCheck samples then saturate 65535 l.lineErrors
          else l.lineErrors)
      ∧ (∀ (code : Std) (c : Current) (e : Entry) (k : SlotIx) (a : Int), l.state = .locked code → active = true →
        l.cur = some c → c.handed = true → (s.part.feeds.get n).captureOn = true →
        newest (s.part.feeds.get n) = some e → e.kind = .picture k a → e.complete = false →
        c.active - 1 < linesPerPicture code →
        (∀ (comp : Component) (i : Nat) (v : Sample), i < componentWidth code comp →
          ((samples.filter (fun x => x.comp == comp)).map LinkSample.value)[i]? = some v →
          memoryRead t.part.store.mem (sampleAddress k comp (c.active - 1) i) = v)
        ∧ (∀ adr : Nat,
          (∀ (comp : Component) (i : Nat), i < componentWidth code comp →
            i < (samples.filter (fun x => x.comp == comp)).length → adr ≠ sampleAddress k comp (c.active - 1) i) →
          memoryRead t.part.store.mem adr = memoryRead s.part.store.mem adr))
      ∧ (isLocked l.state = false ∨ active = false ∨ l.cur.any Current.handed = false
          ∨ (s.part.feeds.get n).captureOn = false ∨ (∀ e, newest (s.part.feeds.get n) = some e → isOpenPicture e = false) →
        t.part.store.mem = s.part.store.mem)

/-- Where the line that ends is the last active line of a picture handed on, capture is ON and the newest entry is an
incomplete PICTURE whose slot is FILLING, unpinned and unpoisoned: under CONTAIN with a line-error count at or above
the threshold it becomes a DISCARDED hole that keeps sequence, segment, stamp, parity and label, and its slot is FREE
at the tail of the free list; otherwise it is complete and its slot HISTORY. The count is written into the entry in
both cases, and nothing but this feed's counters counts it. (R13, R28, R34, R50) -/
def Obligations.CompletionSettlesThePicture : Prop :=
  ∀ (env : Env) (n : Ix) (samples : List LinkSample) (check : BitVec 16) (s : State) (code : Std) (c : Current)
      (est : Established) (f : Feed) (e : Entry) (k : SlotIx) (a : Int) (count : Nat), quiet s →
    (s.part.links.get n).state = .locked code → (s.part.links.get n).line = some true →
    (s.part.links.get n).cur = some c → c.handed = true → (s.part.links.get n).est = some est →
    c.active = est.active → f = s.part.feeds.get n → f.captureOn = true → newest f = some e →
    e.kind = .picture k a → e.complete = false → (slotOf (foundBy env s) k).intact = true →
    (slotOf s.part k).state = .filling → (slotOf s.part k).owner = some n → (slotOf s.part k).pins = 0 →
    (slotOf s.part k).poisoned = false →
    count = (if check = lineCheck samples then (s.part.links.get n).lineErrors
      else saturate 65535 (s.part.links.get n).lineErrors) →
    ∃ t : State, exec (.lineEnd env n samples check) s = .next t
      ∧ (if (s.part.links.get n).settings.policy = .contain ∧ (s.part.links.get n).settings.threshold ≤ count then
          newest (t.part.feeds.get n) =
              some { e with kind := .hole .discarded, complete := true, lineErrors := count }
            ∧ (slotOf t.part k).state = .free ∧ (slotOf t.part k).owner = none
            ∧ t.part.store.freeList = s.part.store.freeList ++ [k]
            ∧ (t.part.feeds.get n).ctr = { f.ctr with holesDiscarded := bump f.ctr.holesDiscarded }
            ∧ getLog (.fl n) t.part =
              logReport .discarded t.part.timebase (.sequence e.seq) (getLog (.fl n) s.part)
        else
          newest (t.part.feeds.get n) = some { e with complete := true, lineErrors := count }
            ∧ (slotOf t.part k).state = .history ∧ (slotOf t.part k).owner = some n
            ∧ t.part.store.freeList = s.part.store.freeList
            ∧ (t.part.feeds.get n).ctr = { f.ctr with picturesCompleted := bump f.ctr.picturesCompleted }
            ∧ getLog (.fl n) t.part =
              (if 0 < count then logReport .lineErrors t.part.timebase (.sequence e.seq) (getLog (.fl n) s.part)
               else getLog (.fl n) s.part))
      ∧ (t.part.feeds.get n).history.length = f.history.length
      ∧ (t.part.feeds.get n).lastStamp = f.lastStamp ∧ (t.part.feeds.get n).nextSeq = f.nextSeq
      ∧ (∀ j, j ≠ k → slotOf t.part j = slotOf (foundBy env s) j)
      ∧ t.part.lanes = (foundBy env s).lanes ∧ t.part.outs = s.part.outs ∧ t.part.mgmt = s.part.mgmt

/-- In MEASURING or LOCKED, words that are no whole packet with its checksum count in PACKET_ERRORS and report
BAD_PACKET to FLn and do nothing else; an accepted packet 61h/0Bh for this device with listen on joins the command
queue of its link as a block, or raises the lost count, to at most 255, and SHORT_BLOCKS with fewer than 4 user words,
or the lost count and COMMANDS_LOST where 8 blocks wait, and changes nothing else. In SEEKING and DARK no packet has
any effect; that a failed one is not counted or reported there is the model's reading (log entry 15). That a short
block at a full queue counts in SHORT_BLOCKS alone is the model's choice (log entry 46). (R3, R14, R15, R168) -/
def Obligations.PacketsReachTheCommandQueue : Prop :=
  (∀ (env : Env) (n : Ix) (words : List (BitVec 10)) (s : State), quiet s →
      extracts (s.part.links.get n).state = false →
      exec (.ancillaryPacket env n words) s = .next { s with part := foundBy env s })
    ∧ (∀ (env : Env) (n : Ix) (words : List (BitVec 10)) (s : State), quiet s →
      extracts (s.part.links.get n).state = true → acceptPacket words = none →
      exec (.ancillaryPacket env n words) s = .next { s with
        part := { foundBy env s with
          links := s.part.links.modify n (fun l =>
            { l with ctr := { l.ctr with packetErrors := bump l.ctr.packetErrors } })
          fault := { s.part.fault with
            feedLogs := s.part.fault.feedLogs.modify n
              (logReport .badPacket (max s.part.timebase env.time) .none) } } })
    ∧ (∀ (env : Env) (n : Ix) (words : List (BitVec 10)) (s : State) (k : Packet) (rest : List Byte), quiet s →
      extracts (s.part.links.get n).state = true → acceptPacket words = some k → k.kind = 0x61#8 →
      k.subkind = 0x0B#8 → (s.part.links.get n).settings.listen = true →
      k.user = BitVec.ofNat 8 s.part.straps.address.val :: rest →
      exec (.ancillaryPacket env n words) s = .next { s with
        part := { foundBy env s with
          mgmt :=
            (match rest with
             | tag :: code :: target :: payload =>
               if 8 ≤ (s.part.mgmt.queues.get n).length then
                 { s.part.mgmt with
                   lost := s.part.mgmt.lost.modify n (saturate 255)
                   ctr := { s.part.mgmt.ctr with commandsLost := bump s.part.mgmt.ctr.commandsLost } }
               else
                 { s.part.mgmt with
                   queues := s.part.mgmt.queues.modify n (fun bs => bs ++ [⟨tag, code, target, payload⟩]) }
             | _ =>
               { s.part.mgmt with
                 lost := s.part.mgmt.lost.modify n (saturate 255)
                 ctr := { s.part.mgmt.ctr with shortBlocks := bump s.part.mgmt.ctr.shortBlocks } }) } })

/-- An accepted packet that is neither a command for this device nor of the feed's timecode kind is offered to every
lane whose source feed is Fn: a running lane whose table says DROP counts it in ROUTE_DROPS, one whose table says
CARRY appends it with the stamp and sequence of the current entry, or the timebase and no sequence, after giving up
its head item where it holds 64, which CARRY_OVERFLOWS counts and LLm takes as CARRY_DROP with the sequence of the
item given up; a STOPPED or FAULTED lane and every lane of another feed is unchanged, and so are links, feeds, outputs
and management. What a table says: the first entry in list order whose kind is the packet's and whose subkind is ANY
or the packet's decides, and the default action where none is. (R14, R17, R39, R140, R141, R144) -/
def Obligations.LanesTakeRoutingOffers : Prop :=
  (∀ (env : Env) (n : Ix) (words : List (BitVec 10)) (s : State) (k : Packet) (item : CarryItem), quiet s →
    extracts (s.part.links.get n).state = true → acceptPacket words = some k → isCommand s.part n k = false →
    isTimecode s.part n k = false →
    item = (match currentEntry s.part n with
      | some e => ⟨k, e.stamp, some e.seq, true⟩
      | none => ⟨k, (max s.part.timebase env.time : Nat), none, true⟩) →
    ∃ t : State, exec (.ancillaryPacket env n words) s = .next t
      ∧ (∀ (m : Ix) (l : Lane), l = (foundBy env s).lanes.get m →
        t.part.lanes.get m =
          (if l.profile.source = n ∧ isRunning l.state = true then
            match routeOf l.route k with
            | .drop => { l with carryCtr := { l.carryCtr with routeDrops := bump l.carryCtr.routeDrops } }
            | .carry =>
              if l.carry.length < 64 then
                { l with
                  carry := l.carry ++ [item]
                  carryCtr := { l.carryCtr with packetsCarried := bump l.carryCtr.packetsCarried } }
              else
                { l with
                  carry := l.carry.drop 1 ++ [item]
                  carryCtr := { l.carryCtr with
                    packetsCarried := bump l.carryCtr.packetsCarried
                    carryOverflows := bump l.carryCtr.carryOverflows } }
           else l)
        ∧ getLog (.ll m) t.part =
          (match l.carry with
           | head :: _ =>
             if l.profile.source = n ∧ isRunning l.state = true ∧ routeOf l.route k = .carry ∧ 64 ≤ l.carry.length then
               logReport .carryDrop t.part.timebase
                 (match head.source with | some v => .sequence v | none => .none) (getLog (.ll m) s.part)
             else getLog (.ll m) s.part
           | [] => getLog (.ll m) s.part))
      ∧ t.part.links = s.part.links ∧ t.part.feeds = s.part.feeds ∧ t.part.outs = s.part.outs
      ∧ t.part.mgmt = s.part.mgmt ∧ t.part.store = (foundBy env s).store ∧ t.part.timebase = (foundBy env s).timebase)
    ∧ (∀ (t : RouteTable) (k : Packet) (hit : RouteEntry → Prop),
      (∀ e, hit e ↔ e.kind = k.kind ∧ (e.subkind = none ∨ e.subkind = some k.subkind)) →
      (∀ (pre post : List RouteEntry) (e : RouteEntry), t.entries = pre ++ e :: post → (∀ x ∈ pre, ¬hit x) → hit e →
          routeOf t k = e.action)
        ∧ ((∀ x ∈ t.entries, ¬hit x) → routeOf t k = t.default))

/-- An accepted packet of the feed's timecode kind that is no command for this device: without a current entry it
counts in TC_UNATTACHED and does nothing else; with one, a valid label is set on the newest entry and nothing is
counted, and words that are invalid under the code by a test of R147 leave the history and count in LABELS_INVALID and
report INVALID_LABEL at every running lane of the feed and at no other. (R14, R16, R39, R147, R148) -/
def Obligations.LabelsReachTheNewestEntry : Prop :=
  ∀ (env : Env) (n : Ix) (words : List (BitVec 10)) (s : State) (k : Packet), quiet s →
    acceptPacket words = some k → isCommand s.part n k = false → isTimecode s.part n k = true →
    (extracts (s.part.links.get n).state = true → currentEntry s.part n = none →
      exec (.ancillaryPacket env n words) s = .next { s with
        part := { foundBy env s with links := s.part.links.modify n (fun l =>
          { l with ctr := { l.ctr with tcUnattached := bump l.ctr.tcUnattached } }) } })
      ∧ (∀ (code : Std) (e : Entry), (s.part.links.get n).state = .locked code → currentEntry s.part n = some e →
        (∀ lab, labelOk (stdRow code).rate lab → (lab.second = true → (stdRow code).perLabel = 2) →
          k.user = labelWords lab →
          exec (.ancillaryPacket env n words) s = .next { s with
            part := { foundBy env s with feeds := s.part.feeds.modify n (fun f =>
              { f with history := f.history.dropLast ++ [{ e with label := some lab }] }) } })
          ∧ (labelInvalid code k.user →
            ∃ t : State, exec (.ancillaryPacket env n words) s = .next t
              ∧ t.part.feeds = s.part.feeds ∧ t.part.links = s.part.links
              ∧ ∀ m, if (s.part.lanes.get m).profile.source = n ∧ isRunning (s.part.lanes.get m).state = true then
                  (t.part.lanes.get m).carryCtr.labelsInvalid = bump (s.part.lanes.get m).carryCtr.labelsInvalid
                    ∧ getLog (.ll m) t.part =
                      logReport .invalidLabel t.part.timebase (.sequence e.seq) (getLog (.ll m) s.part)
                else t.part.lanes.get m = (foundBy env s).lanes.get m
                  ∧ getLog (.ll m) t.part = getLog (.ll m) s.part))

/-- The first marker of a reference records its time and nothing else. An ABSENT reference with a last marker time and
one interval becomes PRESENT at a marker whose interval is in range and agrees within 300 ppm, with the floored mean
as its period, and no other block changes; otherwise it keeps at most this interval. A PRESENT reference whose marker
agrees with its period keeps the last 8 intervals and renews the period; an output LOCKED to it whose relation still
holds takes the new marker as its aligning marker (for the faster relation at every second marker), and one whose
relation no longer holds enters HOLDOVER with Pm as it stood. A PRESENT reference whose marker disagrees is ABSENT,
its interval kept only where it is in range, and every output LOCKED to it enters HOLDOVER. Every other output keeps
its lock state. (R101, R102, R103, R104, R109, R111) -/
def Obligations.ReferenceMarkersQualify : Prop :=
  (∀ (env : Env) (r : RefId) (s : State) (v : RefInput), quiet s → v = getRef s.part r → v.present = false →
      v.last = none →
      exec (.refMarker env r) s = .next { s with
        part := setRef r { v with last := some (max s.part.timebase env.time) } (foundBy env s) })
    ∧ (∀ (env : Env) (r : RefId) (s : State) (v : RefInput) (prev now : Nat), quiet s → v = getRef s.part r →
      v.present = false → v.pr = none → v.last = some prev → now = max s.part.timebase env.time →
      exec (.refMarker env r) s = .next { s with
        part := setRef r
          (match v.intervals with
           | [q] =>
             if 200000 ≤ now - prev ∧ now - prev ≤ 5000000
                 ∧ (((now - prev : Nat) : Int) - (q : Int)).natAbs ≤ q * 300 / 1000000 then
               ⟨true, some now, [q, now - prev], some ((q + (now - prev)) / 2)⟩
             else if 200000 ≤ now - prev ∧ now - prev ≤ 5000000 then ⟨false, some now, [now - prev], none⟩
             else ⟨false, some now, [], none⟩
           | _ =>
             if 200000 ≤ now - prev ∧ now - prev ≤ 5000000 then ⟨false, some now, [now - prev], none⟩
             else ⟨false, some now, [], none⟩)
          (foundBy env s) })
    ∧ (∀ (env : Env) (r : RefId) (s : State) (v : RefInput) (prev now pr : Nat) (xs : List Nat), quiet s →
      v = getRef s.part r →
      v.present = true → v.pr = some pr → v.last = some prev → now = max s.part.timebase env.time →
      (((now - prev : Nat) : Int) - (pr : Int)).natAbs ≤ pr * 300 / 1000000 →
      xs = (if v.intervals.length < 8 then v.intervals else v.intervals.drop 1) ++ [now - prev] →
      ∃ t : State, exec (.refMarker env r) s = .next t
        ∧ getRef t.part r = ⟨true, some now, xs, some (xs.sum / xs.length)⟩
        ∧ (∀ (n : Ix) (al : Machine.Alignment), (s.part.outs.get n).lock = .locked al →
            (s.part.outs.get n).select = some r →
            relationHolds al.faster al.k (periodOf (s.part.outs.get n).standard) (xs.sum / xs.length) = true →
            (t.part.outs.get n).lock = .locked
              { al with
                pm := measuredPeriod al.faster al.k (xs.sum / xs.length)
                m := if al.faster = true ∧ al.count + 1 ≠ 2 then al.m else (now : Int)
                count := if al.faster then (if al.count + 1 = 2 then 0 else al.count + 1) else al.count }
              ∧ (t.part.outs.get n).next = (s.part.outs.get n).next)
        ∧ (∀ (n : Ix) (al : Machine.Alignment), (s.part.outs.get n).lock = .locked al →
            (s.part.outs.get n).select = some r →
            relationHolds al.faster al.k (periodOf (s.part.outs.get n).standard) (xs.sum / xs.length) = false →
            heldOver s.part t.part n al)
        ∧ (∀ n : Ix, (∀ al, (s.part.outs.get n).lock = .locked al → (s.part.outs.get n).select ≠ some r) →
            (t.part.outs.get n).lock = (s.part.outs.get n).lock))
    ∧ (∀ (env : Env) (r : RefId) (s : State) (v : RefInput) (prev now pr : Nat), quiet s → v = getRef s.part r →
      v.present = true → v.pr = some pr → v.last = some prev → now = max s.part.timebase env.time →
      pr * 300 / 1000000 < (((now - prev : Nat) : Int) - (pr : Int)).natAbs →
      ∃ t : State, exec (.refMarker env r) s = .next t
        ∧ getRef t.part r =
          ⟨false, some now, if 200000 ≤ now - prev ∧ now - prev ≤ 5000000 then [now - prev] else [], none⟩
        ∧ (∀ (n : Ix) (al : Machine.Alignment), (s.part.outs.get n).lock = .locked al →
            (s.part.outs.get n).select = some r → heldOver s.part t.part n al)
        ∧ (∀ n : Ix, (∀ al, (s.part.outs.get n).lock = .locked al → (s.part.outs.get n).select ≠ some r) →
            (t.part.outs.get n).lock = (s.part.outs.get n).lock))

/-- REF_EXPIRY of a PRESENT reference is taken at its last marker time plus floor(3 x Pr / 2): the reference is ABSENT
with an empty list and no period, the last marker time kept; every output LOCKED to it enters HOLDOVER with Pm clamped
to 300 ppm of its period, latches REF_LOST and counts the entry, its next boundary standing; DL holds an error then,
and every other output keeps its lock state. Where no expiry is due nothing happens (the model's choice, log entry
22). (R104, R111) -/
def Obligations.ReferenceExpires : Prop :=
  (∀ (upsets : List Upset) (r : RefId) (s : State) (v : RefInput) (last pr : Nat), quiet s → v = getRef s.part r →
      v.present = true → v.last = some last → v.pr = some pr →
      ∃ t : State, exec (.refExpiry upsets r) s = .next t
        ∧ t.part.timebase = max s.part.timebase (last + 3 * pr / 2)
        ∧ getRef t.part r = ⟨false, some last, [], none⟩
        ∧ (∀ (n : Ix) (o : OutUnit), o = s.part.outs.get n →
          (t.part.outs.get n).next = o.next
            ∧ (∀ al, o.lock = .locked al → o.select = some r → heldOver s.part t.part n al)
            ∧ ((∀ al, o.lock = .locked al → o.select ≠ some r) → (t.part.outs.get n).lock = o.lock)))
    ∧ (∀ (upsets : List Upset) (r : RefId) (s : State), quiet s → expiryOf (getRef s.part r) = none →
      exec (.refExpiry upsets r) s = .next { s with part := foundBy ⟨s.part.timebase, upsets⟩ s })

/-- A boundary of an output that is FREE with no reference selected and whose lane starts no job is recorded with its
parity and counted, the next one lies one period of the running standard later, and the picture's packets are up to
two replies, then one notice of the whole pending set where fewer than two replies were placed; the first reply
carries the lost count of the input, which is then 0, and the second carries 0. Where the lane's output standard is
another, the output changes to it first: it is FREE, its offset 0 unless below the new period, the parity TOP for an
interlaced standard, and the change is counted, and a RELOCK that is pending ends: the flag is clear, its record is
empty, and its DONE COMPLETE joins the reply queue of its own link into its reserved place, before the replies of the
picture are placed. (R61, R107, R108, R110, R113, R115, R116, R117, R172, R174) -/
def Obligations.BoundaryOfAnIdleOutput : Prop :=
  ∀ (upsets : List Upset) (n : Ix) (s : State) (o : OutUnit) (l : Lane), quiet s → o = s.part.outs.get n →
    l = s.part.lanes.get n → runsJobs l.state = false → l.job.inFlight = false → o.select = none →
    (o.lock = .free ∨ l.profile.output ≠ o.standard) →
    ∃ t : State, exec (.outputBoundary upsets n) s = .next t
      ∧ (t.part.outs.get n).standard = l.profile.output ∧ (t.part.outs.get n).lock = .free
      ∧ (t.part.outs.get n).next = o.next + (periodOf l.profile.output : Int)
      ∧ (t.part.outs.get n).last = ⟨o.next,
          if (stdRow l.profile.output).interlaced then
            (if l.profile.output ≠ o.standard then some .top
             else match o.nextParity, o.last.parity with
              | some q, _ => some q
              | none, some q => some (oppositeParity q)
              | none, none => some .top)
          else none⟩
      ∧ (t.part.outs.get n).offset =
          (if l.profile.output = o.standard ∨ o.offset < periodOf l.profile.output then o.offset else 0)
      ∧ (t.part.outs.get n).ctr = { o.ctr with
          boundaries := bump o.ctr.boundaries
          standardChanges := if l.profile.output = o.standard then o.ctr.standardChanges
            else bump o.ctr.standardChanges
          repliesSent := (t.part.outs.get n).ctr.repliesSent
          noticesSent := (t.part.outs.get n).ctr.noticesSent }
      ∧ (t.part.outs.get n).lineNext = 0
      ∧ (∀ (ended : Option PendingOp) (queue : List Reply),
          ended = (if l.profile.output = o.standard then none else s.part.mgmt.outOps.get n) →
          queue = o.replies ++ doneTo n ended →
          (t.part.outs.get n).replies = queue.drop 2
            ∧ (t.part.outs.get n).reserved = o.reserved - (doneTo n ended).length
            ∧ (t.part.outs.get n).relockPending = (if l.profile.output = o.standard then o.relockPending else false)
            ∧ t.part.mgmt = { s.part.mgmt with
              lost := if queue = [] then s.part.mgmt.lost else s.part.mgmt.lost.set n 0
              outOps := if l.profile.output = o.standard then s.part.mgmt.outOps else s.part.mgmt.outOps.set n none }
            ∧ (∀ m, m ≠ n → t.part.outs.get m =
              { s.part.outs.get m with
                replies := (s.part.outs.get m).replies ++ doneTo m ended
                reserved := (s.part.outs.get m).reserved - (doneTo m ended).length })
            ∧ (t.part.outs.get n).notices = (if queue.length < 2 then [] else o.notices)
            ∧ (t.part.outs.get n).packets = placedReplies s.part n (queue.take 2)
              ++ (if queue.length < 2 ∧ o.notices ≠ [] then
                  [sendPacket ⟨0x61#8, 0x0D#8,
                    [BitVec.ofNat 8 s.part.straps.address.val, 0, 255, BitVec.ofNat 8 o.notices.length]
                      ++ o.notices.flatMap (fun c => [condOwner c, BitVec.ofNat 8 (condKind c)])⟩]
                 else []))
      ∧ t.part.lanes = (foundBy ⟨o.next.toNat, upsets⟩ s).lanes ∧ t.part.links = s.part.links
      ∧ t.part.feeds = s.part.feeds

/-- At a boundary without a change of standard, whose lane is ACQUIRING, CONVERTING or HOLDING with no failed carry
item, and which does not enter device fatal: a job is in flight with its instant and target; the job number and
JOBS_STARTED rise; a pending COMMIT has ended with the swap of its tables, whose rows the job reads (a job still in
flight ends first, the model's choice, log entry 20). Case, anchor and phase are those of Table 22 over the usable
entries of the snapshot, the phase in 0..63; in a history that keeps its law the taps stand around the anchor in its
segment, PRESENT where they are pictures, and a fallback is sought only where none is; motion is valid by the parity
of the compared taps; the counters rise by case and taps (for an EARLY_CLAMP job outside CONVERTING the model's
reading, log entry 40). A case-2 job takes an ACQUIRING lane to CONVERTING and ends a pending START, its timer
cleared; a job in HOLDING raises the hold count, at the limit to SLATE. At most 7 head items whose stamps the target
has reached leave the carry queue, are counted and sent; out of mode OFF the lane advances its timecode counter once
per label frame but for a fresh one, takes the source's count in FOLLOW where T0's label is more than 1 away, and
emits one packet of the feed's timecode kind. The picture has at most two management blocks, then the timecode packet
and the carried ones. An operation of the lane that ends has its record emptied and its DONE COMPLETE posted into the
reserved place of its link's reply queue, here before the replies are placed; a RELOCK that ends here posts its own
after them. (R61, R63, R64, R65, R66, R67, R68, R69, R70, R73, R74, R83, R116, R117, R128, R130, R145, R151, R152,
R153, R163, R172, R174) -/
def Obligations.BoundaryStartsAJob : Prop :=
  ∀ (upsets : List Upset) (n : Ix) (s t : State) (o : OutUnit) (l : Lane), o = s.part.outs.get n →
    l = (foundBy ⟨o.next.toNat, upsets⟩ s).lanes.get n → quiet s → l.profile.output = o.standard →
    runsJobs l.state = true → (∀ i ∈ l.carry, i.parityOk = true) → exec (.outputBoundary upsets n) s = .next t →
    t.part.fault.deviceFatal = s.part.fault.deviceFatal →
    (t.part.lanes.get n).job.inFlight = true ∧ (t.part.lanes.get n).job.boundary = some o.next
      ∧ (t.part.lanes.get n).job.target = some (o.next - (l.profile.latency : Int))
      ∧ (t.part.lanes.get n).job.picStd = some o.standard
      ∧ (t.part.lanes.get n).jobNumber = l.jobNumber + 1
      ∧ (t.part.lanes.get n).jobCtr.jobsStarted = bump l.jobCtr.jobsStarted
      ∧ (t.part.lanes.get n).commit = none ∧ (t.part.lanes.get n).job.kept = none
      ∧ (t.part.lanes.get n).tables = (match l.commit with
          | some c => swapTables c l.tables
          | none => l.tables)
      ∧ (∀ (acquires : Prop) (lane out : Option PendingOp) (queue : List Reply),
        (acquires ↔ l.state = .acquiring ∧ isCaseTwo (t.part.lanes.get n).job.kase = true) →
        lane = endedIn (s.part.mgmt.laneOps.get n) (t.part.mgmt.laneOps.get n) →
        out = endedIn (s.part.mgmt.outOps.get n) (t.part.mgmt.outOps.get n) → queue = o.replies ++ doneTo n lane →
        (t.part.mgmt.laneOps.get n = none ↔
            ∀ q, s.part.mgmt.laneOps.get n = some q → l.commit.isSome = true ∨ (q.op = .start ∧ acquires))
          ∧ (∀ q, t.part.mgmt.laneOps.get n = some q → s.part.mgmt.laneOps.get n = some q)
          ∧ (l.commit = none → acquires → laneOpKind s.part n = some .start →
            (t.part.lanes.get n).acquireAt = none)
          ∧ ((¬acquires ∨ laneOpKind s.part n ≠ some .start) → (t.part.lanes.get n).acquireAt = l.acquireAt)
          ∧ (∀ m, m ≠ n → t.part.mgmt.laneOps.get m = s.part.mgmt.laneOps.get m
            ∧ t.part.mgmt.outOps.get m = s.part.mgmt.outOps.get m
            ∧ (t.part.outs.get m).replies = (s.part.outs.get m).replies ++ doneTo m lane ++ doneTo m out
            ∧ (t.part.outs.get m).reserved =
              (s.part.outs.get m).reserved - (doneTo m lane).length - (doneTo m out).length)
          ∧ (t.part.outs.get n).replies = queue.drop 2 ++ doneTo n out
          ∧ (t.part.outs.get n).reserved = o.reserved - (doneTo n lane).length - (doneTo n out).length
          ∧ (∃ (notice rest : List SentPacket),
            (t.part.outs.get n).packets = placedReplies s.part n (queue.take 2) ++ notice ++ rest
              ∧ notice.length ≤ 1 ∧ (2 ≤ queue.length → notice = [])
              ∧ (∀ x ∈ notice, x.packet.kind = 0x61#8 ∧ x.packet.subkind = 0x0D#8)
              ∧ rest.length = (if l.profile.tcMode = .off then 0 else 1)
                + ((l.carry.takeWhile (fun i => decide (i.stamp ≤ o.next - (l.profile.latency : Int)))).take 7).length))
      ∧ (∀ φ, (t.part.lanes.get n).job.phase = some φ → φ < 64)
      ∧ ((t.part.lanes.get n).job.kase = .slate →
          (t.part.lanes.get n).job.pinned = [] ∧ (t.part.lanes.get n).job.phase = none)
      ∧ (∀ (snap use : List Entry) (j : JobRec),
        snap = (if (s.part.links.get l.profile.source).lastCode = some l.profile.input then
            (s.part.feeds.get l.profile.source).history else []) →
        use = snap.filter (fun e => e.complete && (match e.kind with
          | .picture k _ => !(slotOf s.part k).poisoned
          | .hole _ => true)) →
        j = (t.part.lanes.get n).job →
        caseIs snap use (o.next - (l.profile.latency : Int)) j.kase j.t0.entry j.phase
          ∧ j.picParity = (t.part.outs.get n).last.parity ∧ j.motionLostFrom = none ∧ j.blocks = []
          ∧ (j.kase = .slate →
            j.tm1 = freshTap none ∧ j.t0 = freshTap none ∧ j.t1 = freshTap none ∧ j.t2 = freshTap none
              ∧ j.fallback = none)
          ∧ (historyOk s.part → ∀ a, j.t0.entry = some a →
            (∃ before behind, use.filter (fun e => decide (e.segment = a.segment)) = before ++ a :: behind
              ∧ j.tm1 = freshTap before.getLast? ∧ j.t0 = freshTap (some a) ∧ j.t1 = freshTap behind[0]?
              ∧ j.t2 = freshTap behind[1]?)
            ∧ (∃ before behind, snap = before ++ a :: behind
              ∧ j.fallback = (if (jobPresence j).some then none
                else ((before.filter (fun e => use.contains e && (entrySlot e).isSome)).getLast?).map
                  (fun e => ⟨e, none⟩))))
          ∧ (j.motionValid = true ↔
            if (stdRow l.profile.input).interlaced then
              j.tm1.state = .present ∧ j.t1.state = .present
                ∧ j.tm1.entry.bind Entry.parity = j.t1.entry.bind Entry.parity
            else j.t0.state = .present ∧ j.t1.state = .present)
          ∧ (t.part.lanes.get n).jobCtr =
            { l.jobCtr with
              jobsStarted := bump l.jobCtr.jobsStarted
              bracketJobs := if j.kase = .bracket then bump l.jobCtr.bracketJobs else l.jobCtr.bracketJobs
              earlyClamps := if j.kase = .earlyClamp ∧ l.state = .converting then bump l.jobCtr.earlyClamps
                else l.jobCtr.earlyClamps
              lateClamps := if j.kase = .lateClamp then bump l.jobCtr.lateClamps else l.jobCtr.lateClamps
              frozenJobs := if j.kase = .frozen then bump l.jobCtr.frozenJobs else l.jobCtr.frozenJobs
              slateJobs := if (jobPresence j).some = false ∧ j.fallback = none then bump l.jobCtr.slateJobs
                else l.jobCtr.slateJobs
              substitutedJobs := if ((jobPresence j).some = true ∨ j.fallback ≠ none)
                  ∧ jobPresence j ≠ ⟨true, true, true, true⟩ then bump l.jobCtr.substitutedJobs
                else l.jobCtr.substitutedJobs
              fallbackJobs := if j.fallback ≠ none then bump l.jobCtr.fallbackJobs else l.jobCtr.fallbackJobs })
      ∧ (l.state = .converting → (t.part.lanes.get n).state = .converting)
      ∧ (l.state = .acquiring →
          (if isCaseTwo (t.part.lanes.get n).job.kase then
            (t.part.lanes.get n).state = .converting ∧ laneOpKind t.part n ≠ some .start
              ∧ (t.part.lanes.get n).laneCtr.acquisitions = bump l.laneCtr.acquisitions
           else (t.part.lanes.get n).state = .acquiring))
      ∧ (l.state = .holding →
          (t.part.lanes.get n).holdCount = l.holdCount + 1
            ∧ (t.part.lanes.get n).laneCtr.heldJobs = bump l.laneCtr.heldJobs
            ∧ (t.part.lanes.get n).state = (if l.holdCount + 1 = l.profile.holdLimit then .slate else .holding))
      ∧ (∀ (items : List CarryItem) (l' : Lane) (rate : LabelRate) (day q c1 : Nat),
        items = (l.carry.takeWhile (fun i => decide (i.stamp ≤ o.next - (l.profile.latency : Int)))).take 7 →
        l' = t.part.lanes.get n → rate = (stdRow o.standard).rate → day = labelsPerDay rate →
        q = (if (stdRow o.standard).interlaced then
              (if (t.part.outs.get n).last.parity = some .bottom then 1 else 0)
            else if (stdRow o.standard).perLabel = 2 then l.jobNumber % 2 else 0) →
        c1 = (if q = 0 ∧ l.fresh = false then (l.tcCount + 1) % day else l.tcCount) →
        l'.carry = l.carry.drop items.length
          ∧ l'.carryCtr.packetsDelivered = bumpBy items.length l.carryCtr.packetsDelivered
          ∧ (l.profile.tcMode = .off →
            l'.tcCount = l.tcCount ∧ l'.fresh = l.fresh ∧ l'.lastLabel = l.lastLabel
              ∧ l'.carryCtr.tcEmitted = l.carryCtr.tcEmitted)
          ∧ (l.profile.tcMode ≠ .off →
            l'.fresh = (if q = 0 then false else l.fresh)
              ∧ l'.lastLabel = some { countToLabel rate l'.tcCount with second := decide (q = 1) }
              ∧ l'.carryCtr.tcEmitted = bump l.carryCtr.tcEmitted)
          ∧ (l.profile.tcMode = .free →
            l'.tcCount = c1 ∧ l'.carryCtr.tcReseeds = l.carryCtr.tcReseeds)
          ∧ (l.profile.tcMode = .follow → (q = 1 ∨ (l'.job.t0.entry.bind Entry.label) = none) →
            l'.tcCount = c1 ∧ l'.carryCtr.tcReseeds = l.carryCtr.tcReseeds)
          ∧ (l.profile.tcMode = .follow → q = 0 → ∀ (e : Entry) (lab : Label) (f : Int),
            l'.job.t0.entry = some e → e.label = some lab →
            f = (((labelToCount (stdRow l.profile.input).rate lab * labelPeriod l.profile.input
                + (if lab.second then periodOf l.profile.input else 0) : Nat) : Int)
                + (o.next - (l.profile.latency : Int) - e.stamp)) / (labelPeriod o.standard : Int) % (day : Int) →
            if 1 < min (((c1 : Int) - f) % (day : Int)) ((f - (c1 : Int)) % (day : Int)) then
              (l'.tcCount : Int) = f ∧ l'.carryCtr.tcReseeds = bump l.carryCtr.tcReseeds
            else l'.tcCount = c1 ∧ l'.carryCtr.tcReseeds = l.carryCtr.tcReseeds)
          ∧ (∃ front : List SentPacket, front.length ≤ 2
            ∧ (t.part.outs.get n).packets = front
              ++ (if l.profile.tcMode = .off then [] else
                  [sendPacket ⟨(s.part.links.get l.profile.source).settings.tcKind,
                    (s.part.links.get l.profile.source).settings.tcSubkind,
                    labelWords (l'.lastLabel.getD ⟨0, 0, 0, 0, false, false⟩)⟩])
              ++ items.map (fun i => sendPacket i.packet)))

/-- The computation of a line none of whose reads fails gives the line of the formulas: each sample the blend, rounded
and clamped, of the spatial values of the PRESENT taps under the substituted row of its phase and motion class, or of
the fallback alone. The positions are those of the mappings: the floors of U16, U16c, V16 and W16, their whole parts
and phases, over the frame row of the output line and the widths and heights of the component, clamped to the source.
The blend is the floor of (sum + 512) / 1024 held to 4..1019, the spatial value the floor of (sum + 32768) / 65536
held to 0..1023, the class 0 to 3 by the thresholds that the measure reaches, and a block the 16 by 16 samples of its
place that lie within the picture. Where every sample can be read, corrected or not, and every row has its parity, no
read fails. OUTPUT_LINE of a job that shows emits the line computed and keeps the blocks measured; each corrected read
raises the slot's correctable-error count and CORRECTED_READS and is reported as MEMORY_CORRECTED to the log of the
slot's owner feed; nothing else changes. Where a read cannot be corrected, the slot is poisoned and the tap or
fallback marked POISONED from this line, counted, with motion lost from it where it was a compared picture, and the
step is the one of the part so marked: the line is computed anew without it. (The order of the reads, which decides
which failure is met first, is the model's choice, log entry 12.) (R54, R55, R72, R73, R75, R76, R77, R78, R80, R87,
R88, R89, R90, R91, R93, R97) -/
def Obligations.LinesComeFromTheTaps : Prop :=
  (∀ (c : LineCtx) (cs : List SlotIx) (bs : List BlockMeasure), blocksRight c bs →
      (∀ (line : EmittedLine) (tr : Trace), (computeOnce c).run ⟨cs, bs⟩ = (.ok line, tr) →
        line = directLine c ∧ blocksRight c tr.blocks)
      ∧ (readsClean c → ∃ tr : Trace, (computeOnce c).run ⟨cs, bs⟩ = (.ok (directLine c), tr)
        ∧ (c.ecc = [] → tr.corrected = cs)))
    ∧ (∀ sum : Int,
      (∃ r : Int, 1024 * r ≤ sum + 512 ∧ sum + 512 < 1024 * (r + 1) ∧ (blendOut sum : Int) = max 4 (min r 1019))
        ∧ (∃ r : Int, 65536 * r ≤ sum + 32768 ∧ sum + 32768 < 65536 * (r + 1)
          ∧ spatialOut sum = max 0 (min r 1023)))
    ∧ (∀ th1 th2 th3 d : Nat, th1 ≤ th2 → th2 ≤ th3 →
      (d < th1 → motionClass th1 th2 th3 d = 0) ∧ (th1 ≤ d → d < th2 → motionClass th1 th2 th3 d = 1)
        ∧ (th2 ≤ d → d < th3 → motionClass th1 th2 th3 d = 2) ∧ (th3 ≤ d → motionClass th1 th2 th3 d = 3))
    ∧ (∀ (d : Std) (col row : Nat), (blockSamples d col row).Nodup
      ∧ ∀ r i : Nat, (r, i) ∈ blockSamples d col row ↔
        16 * row ≤ r ∧ r < 16 * row + 16 ∧ r < linesPerPicture d
          ∧ 16 * col ≤ i ∧ i < 16 * col + 16 ∧ i < (stdRow d).width)
    ∧ (∀ (x ws wo : Nat) (u a : Int), 0 < wo → u = sixteenths x ws wo →
      a = 16 * (2 * (x : Int) + 1) * (ws : Int) - 16 * (wo : Int) → 2 * (wo : Int) * u ≤ a ∧ a < 2 * (wo : Int) * (u + 1))
    ∧ (∀ (c : LineCtx) (p : Parity) (y : Nat) (v a : Int),
      y = (match c.parity with
        | none => c.line
        | some .top => 2 * c.line
        | some .bottom => 2 * c.line + 1) →
      v = sixteenths y (stdRow c.source).height (stdRow c.output).height →
      a = (match p with
        | .top => v
        | .bottom => v - 16) →
      if (stdRow c.source).interlaced = true then
        2 * verticalPosition c p ≤ a ∧ a < 2 * (verticalPosition c p + 1)
      else verticalPosition c p = v)
    ∧ (∀ u : Int, 16 * wholePart u + (phasePart u : Int) = u ∧ phasePart u < 16)
    ∧ (∀ (w : Nat) (i : Int), 0 < w → clampInt 0 ((w : Int) - 1) i = max 0 (min i ((w : Int) - 1)))
    ∧ (∀ d : Std, componentWidth d .y = (stdRow d).width ∧ componentWidth d .cb = (stdRow d).width / 2
      ∧ componentWidth d .cr = (stdRow d).width / 2
      ∧ linesPerPicture d = (if (stdRow d).interlaced = true then (stdRow d).height / 2 else (stdRow d).height))
    ∧ (∀ (env : Env) (n : Ix) (s : State) (q : Part) (o : OutUnit) (line : EmittedLine) (corr : List SlotIx)
        (bs : List BlockMeasure),
      quiet s → q = foundBy env s → o = s.part.outs.get n → s.part.mute = false →
      o.lineNext < linesPerPicture o.standard → (s.part.lanes.get n).job.inFlight = true →
      jobShows (s.part.lanes.get n).job = true → (∀ k ∈ corr, (slotOf q k).intact = true) →
      (computeOnce (lineCtx q n o.lineNext)).run ⟨[], (s.part.lanes.get n).job.blocks⟩ = (.ok line, ⟨corr, bs⟩) →
      ∃ (slots : Vector SlotRec 64) (logs : Four (Option LogRec)), exec (.outputLine env n) s = .next { s with
        part := { q with
          lanes := q.lanes.modify n (fun l => { l with job := { l.job with blocks := bs } })
          outs := s.part.outs.modify n (fun o =>
            { o with lineNext := o.lineNext + 1, lineOut := some line })
          store := { q.store with
            slots := slots
            ctr := { q.store.ctr with correctedReads := bump^[corr.length] q.store.ctr.correctedReads } }
          fault := { s.part.fault with feedLogs := logs } } }
        ∧ (∀ k : SlotIx, slots[k.val] =
          { slotOf q k with corrected := (saturate 255)^[corr.count k] (slotOf q k).corrected })
        ∧ (∀ m : Ix, logs.get m =
          (corr.filter (fun k => decide ((slotOf q k).owner = some m))).foldl
            (fun r k => logReport .memoryCorrected q.timebase (.slot k.val) r) (s.part.fault.feedLogs.get m)))
    ∧ (∀ (env : Env) (n : Ix) (s : State) (q p : Part) (o : OutUnit) (src : Src) (k : SlotIx)
        (corr : List SlotIx) (bs : List BlockMeasure), quiet s → q = foundBy env s → o = s.part.outs.get n →
      o.lineNext < linesPerPicture o.standard → (s.part.lanes.get n).job.inFlight = true →
      jobShows (s.part.lanes.get n).job = true → (slotOf q k).intact = true →
      (∀ c ∈ corr, (slotOf q c).intact = true) →
      (computeOnce (lineCtx q n o.lineNext)).run ⟨[], (s.part.lanes.get n).job.blocks⟩
        = (.error (.badSample src k), ⟨corr, bs⟩) →
      p = markPoisoned n src o.lineNext (uncorrectableRead k (applyTrace n ⟨corr, bs⟩ q)) →
      exec (.outputLine env n) s = exec (.outputLine ⟨env.time, []⟩ n) { s with part := p }
        ∧ (slotOf p k).poisoned = true ∧ (p.lanes.get n).job.blocks = bs
        ∧ p.store.ctr.uncorrectableReads = bump q.store.ctr.uncorrectableReads
        ∧ p.store.ctr.correctedReads = bump^[corr.length] q.store.ctr.correctedReads
        ∧ (∀ m, (slotOf q k).owner = some m → (slotOf q k).poisoned = false → corr = [] →
          getLog (.fl m) p = logReport .memoryUncorrectable q.timebase (.slot k.val) (getLog (.fl m) q))
        ∧ (p.lanes.get n).jobCtr.poisonedTaps = bump (q.lanes.get n).jobCtr.poisonedTaps
        ∧ (∀ m, m ≠ n → p.lanes.get m = q.lanes.get m) ∧ p.outs = q.outs ∧ p.mgmt = q.mgmt ∧ p.feeds = q.feeds)
    ∧ (∀ (input : Std) (src : Src) (y : Nat) (j : JobRec),
      (poisonJob input src y j).tm1 =
          (if src = .tm1 then { j.tm1 with state := .poisoned, poisonedFrom := some y } else j.tm1)
        ∧ (poisonJob input src y j).t0 =
          (if src = .t0 then { j.t0 with state := .poisoned, poisonedFrom := some y } else j.t0)
        ∧ (poisonJob input src y j).t1 =
          (if src = .t1 then { j.t1 with state := .poisoned, poisonedFrom := some y } else j.t1)
        ∧ (poisonJob input src y j).t2 =
          (if src = .t2 then { j.t2 with state := .poisoned, poisonedFrom := some y } else j.t2)
        ∧ (poisonJob input src y j).fallback =
          (if src = .fallback then j.fallback.map (fun f => { f with poisonedFrom := some y }) else j.fallback)
        ∧ ((src = .t1 ∨ (src = .tm1 ∧ (stdRow input).interlaced = true)
              ∨ (src = .t0 ∧ (stdRow input).interlaced = false)) → (poisonJob input src y j).motionValid = false)
        ∧ ((src = .t2 ∨ src = .fallback) → (poisonJob input src y j).motionValid = j.motionValid))

/-- OUTPUT_LINE that reads a row with a parity failure, of a lane in a running state, reports TT_PARITY, HC_PARITY or
VC_PARITY with the row to LLn, emits slate, and takes the lane FATAL: the job abandoned and counted, the carry queue
flushed and counted, the pending operation ended with DONE FAULTED, hold count 0, FAULTED latched and counted, tables,
routing, profile and timecode as they stood; a feed left without a running lane is flushed. A job start that takes an
item with a parity failure does the same with CARRY_PARITY, hands nothing on and takes no timecode. An integrity error
takes the part to device fatal at the end of the step: DEVICE_FATAL latched, every running lane through the same steps
without a report of its own, a STOPPED lane FAULTED, a FAULTED lane as it was; in device fatal it does nothing more. A
JOB_END whose slot record fails its check is such a step, and the record stands as it was. (R58, R82, R134, R135,
R146, R165, R189) -/
def Obligations.LaneAndDeviceFaults : Prop :=
  (∀ (env : Env) (n : Ix) (s : State) (q : Part) (o : OutUnit) (l : Lane) (tab : Table) (row : Nat)
        (bs : List BlockMeasure), quiet s → q = foundBy env s → o = s.part.outs.get n → l = q.lanes.get n →
      s.part.mute = false → o.lineNext < linesPerPicture o.standard → isRunning l.state = true →
      l.job.inFlight = true → jobShows l.job = true →
      (computeOnce (lineCtx q n o.lineNext)).run ⟨[], l.job.blocks⟩ = (.error (.badRow tab row), ⟨[], bs⟩) →
      ∃ t : State, exec (.outputLine env n) s = .next t
        ∧ (t.part.lanes.get n).state = .faulted ∧ (t.part.lanes.get n).job.inFlight = false
        ∧ (t.part.lanes.get n).job.pinned = [] ∧ (t.part.lanes.get n).carry = []
        ∧ (t.part.lanes.get n).commit = none ∧ (t.part.lanes.get n).acquireAt = none
        ∧ (t.part.lanes.get n).holdCount = 0 ∧ (t.part.lanes.get n).tcCount = l.tcCount
        ∧ (t.part.lanes.get n).fresh = l.fresh ∧ (t.part.lanes.get n).tables = l.tables
        ∧ (t.part.lanes.get n).profile = l.profile ∧ (t.part.lanes.get n).route = l.route
        ∧ (t.part.lanes.get n).jobCtr.jobsAbandoned = bump l.jobCtr.jobsAbandoned
        ∧ (t.part.lanes.get n).carryCtr.itemsFlushed = bumpBy l.carry.length l.carryCtr.itemsFlushed
        ∧ (t.part.lanes.get n).laneCtr.faults = bump l.laneCtr.faults
        ∧ t.part.mgmt.laneOps.get n = none ∧ Cond.faulted n ∈ t.part.fault.latches
        ∧ getLog (.ll n) t.part =
          logReport (match tab with | .tt => .ttParity | .hc => .hcParity | .vc => .vcParity) t.part.timebase
            (.row row) (getLog (.ll n) s.part)
        ∧ (t.part.outs.get n).lineOut = some ⟨o.lineNext, List.replicate (stdRow o.standard).width l.profile.slateY,
            List.replicate ((stdRow o.standard).width / 2) l.profile.slateCb,
            List.replicate ((stdRow o.standard).width / 2) l.profile.slateCr⟩
        ∧ (runningCount t.part l.profile.source = 0 → (t.part.feeds.get l.profile.source).history = []
            ∧ (t.part.feeds.get l.profile.source).captureOn = false)
        ∧ (t.part.fault.deviceFatal = s.part.fault.deviceFatal →
          (∀ m, m ≠ n → t.part.lanes.get m = q.lanes.get m)
            ∧ (∀ op, s.part.mgmt.laneOps.get n = some op →
              (t.part.outs.get op.origin).replies =
                (s.part.outs.get op.origin).replies ++ [⟨op.tag, op.code, .done, 3, op.restart, []⟩])))
    ∧ (∀ (upsets : List Upset) (n : Ix) (s : State) (q : Part) (o : OutUnit) (l : Lane) (bad : CarryItem), quiet s →
      o = s.part.outs.get n → q = foundBy ⟨o.next.toNat, upsets⟩ s → l = q.lanes.get n →
      l.profile.output = o.standard → runsJobs l.state = true →
      ((l.carry.takeWhile (fun i => decide (i.stamp ≤ o.next - (l.profile.latency : Int)))).take 7).find?
        (fun i => !i.parityOk) = some bad →
      ∃ t : State, exec (.outputBoundary upsets n) s = .next t
        ∧ (t.part.lanes.get n).state = .faulted ∧ (t.part.lanes.get n).job.inFlight = false
        ∧ (t.part.lanes.get n).carry = [] ∧ (t.part.lanes.get n).tcCount = l.tcCount
        ∧ (t.part.lanes.get n).fresh = l.fresh ∧ (t.part.lanes.get n).lastLabel = l.lastLabel
        ∧ (t.part.lanes.get n).carryCtr.packetsDelivered = l.carryCtr.packetsDelivered
        ∧ (t.part.lanes.get n).carryCtr.itemsFlushed = bumpBy l.carry.length l.carryCtr.itemsFlushed
        ∧ (t.part.lanes.get n).carryCtr.tcEmitted = l.carryCtr.tcEmitted
        ∧ (t.part.lanes.get n).laneCtr.faults = bump l.laneCtr.faults
        ∧ (t.part.outs.get n).packets.length ≤ 2 ∧ Cond.faulted n ∈ t.part.fault.latches
        ∧ getLog (.ll n) t.part =
          logReport .carryParity t.part.timebase
            (match bad.source with | some v => .sequence v | none => .none) (getLog (.ll n) s.part))
    ∧ (∀ p : Part, p.fault.fatalDue = true → p.fault.deviceFatal = false →
      (settle p).fault.deviceFatal = true ∧ (settle p).fault.fatalDue = false
        ∧ Cond.deviceFatal ∈ (settle p).fault.latches
        ∧ (∀ n,
          ((settle p).lanes.get n).state = .faulted ∧ getLog (.ll n) (settle p) = getLog (.ll n) p
            ∧ ((p.lanes.get n).state = .faulted → (settle p).lanes.get n = p.lanes.get n)
            ∧ ((p.lanes.get n).state = .stopped → (settle p).lanes.get n =
              { p.lanes.get n with
                state := .faulted
                laneCtr := { (p.lanes.get n).laneCtr with faults := bump (p.lanes.get n).laneCtr.faults } })
            ∧ (isRunning (p.lanes.get n).state = true →
              ((settle p).lanes.get n).job.inFlight = false ∧ ((settle p).lanes.get n).carry = []
                ∧ ((settle p).lanes.get n).commit = none ∧ ((settle p).lanes.get n).acquireAt = none
                ∧ (settle p).mgmt.laneOps.get n = none
                ∧ ((settle p).lanes.get n).laneCtr.faults = bump (p.lanes.get n).laneCtr.faults)
            ∧ ((p.lanes.get n).state ≠ .faulted → Cond.faulted n ∈ (settle p).fault.latches)))
    ∧ (∀ p : Part, p.fault.deviceFatal = true →
      settle p = { p with fault := { p.fault with fatalDue := false } })
    ∧ (∀ (env : Env) (n : Ix) (s : State) (k : SlotIx), quiet s → s.part.fault.deviceFatal = false →
      (s.part.lanes.get n).job.inFlight = true → k ∈ (s.part.lanes.get n).job.pinned →
      (slotOf (foundBy env s) k).intact = false →
      ∃ t : State, exec (.jobEnd env n) s = .next t ∧ t.part.fault.deviceFatal = true
        ∧ Cond.deviceFatal ∈ t.part.fault.latches ∧ (∀ m, (t.part.lanes.get m).state = .faulted)
        ∧ slotOf t.part k = slotOf (foundBy env s) k
        ∧ (∃ r : LogRec, getLog .dl t.part = some r ∧ r.severity = .fatal))

/-- A job start with no job left in flight, whose PRESENT taps and fallback name distinct HISTORY slots of the source
feed with intact records and fewer than 4 pins, pins them in tap order, the fallback last: each gains one pin and no
other slot changes. JOB_END of a job in flight clears "in flight" and the pins it held (with the rows kept for it
after a swap) and keeps case, taps, phase, target and every other field; unless the part goes into device fatal, a
HISTORY slot that the job held once, whose record is intact and pinned, loses one pin and stays HISTORY; a RETIRING
one loses one pin, and with its last goes without an owner to QUARANTINED where it is poisoned and to FREE otherwise.
The slots freed join the tail of the free list in the order of the pins, and those quarantined are counted, the
sixteenth latching POOL_DEGRADED. That no further line of the picture follows is the model's choice (log entry 20).
(R43, R52, R53, R56, R71, R81) -/
def Obligations.JobsPinAndUnpin : Prop :=
  (∀ (upsets : List Upset) (n : Ix) (s t : State) (o : OutUnit) (l : Lane) (j : JobRec) (q : Part), quiet s →
      o = s.part.outs.get n → q = foundBy ⟨o.next.toNat, upsets⟩ s → l = q.lanes.get n →
      l.profile.output = o.standard → runsJobs l.state = true → l.job.inFlight = false →
      (∀ i ∈ l.carry, i.parityOk = true) → exec (.outputBoundary upsets n) s = .next t →
      j = (t.part.lanes.get n).job → (jobSlots j).Nodup →
      (∀ k ∈ jobSlots j, (slotOf q k).intact = true ∧ (slotOf q k).state = .history
        ∧ (slotOf q k).owner = some l.profile.source ∧ (slotOf q k).pins < 4) →
      j.pinned = jobSlots j
        ∧ ∀ k, slotOf t.part k =
          if k ∈ jobSlots j then { slotOf q k with pins := (slotOf q k).pins + 1 } else slotOf q k)
    ∧ (∀ (env : Env) (n : Ix) (s : State) (l : Lane), quiet s → l = (foundBy env s).lanes.get n → l.job.inFlight = true →
        ∃ t : State, exec (.jobEnd env n) s = .next t
          ∧ (t.part.lanes.get n).job = { l.job with inFlight := false, pinned := [], kept := none }
          ∧ (t.part.fault.deviceFatal = s.part.fault.deviceFatal →
              t.part.lanes.get n = { l with job := { l.job with inFlight := false, pinned := [], kept := none } }
                ∧ (∀ k : SlotIx, l.job.pinned.count k = 1 → (slotOf (foundBy env s) k).intact = true →
                  (slotOf s.part k).state = .history → 0 < (slotOf s.part k).pins →
                  (slotOf t.part k).state = .history ∧ (slotOf t.part k).pins = (slotOf s.part k).pins - 1)
                ∧ (∀ k : SlotIx, l.job.pinned.count k = 1 → (slotOf (foundBy env s) k).intact = true →
                  (slotOf s.part k).state = .retiring → 0 < (slotOf s.part k).pins →
                  slotOf t.part k =
                    if 1 < (slotOf s.part k).pins then
                      { slotOf (foundBy env s) k with pins := (slotOf s.part k).pins - 1 }
                    else
                      { slotOf (foundBy env s) k with
                        state := if (slotOf s.part k).poisoned then .quarantined else .free, owner := none, pins := 0 })
                ∧ (∀ k : SlotIx, k ∉ l.job.pinned → slotOf t.part k = slotOf (foundBy env s) k)
                ∧ (∀ last : List SlotIx, l.job.pinned.Nodup →
                  (∀ k ∈ l.job.pinned, (slotOf (foundBy env s) k).intact = true ∧ 0 < (slotOf s.part k).pins) →
                  last = l.job.pinned.filter (fun k =>
                    decide ((slotOf s.part k).state = .retiring ∧ (slotOf s.part k).pins = 1)) →
                  t.part.store.freeList =
                      s.part.store.freeList ++ last.filter (fun k => !(slotOf s.part k).poisoned)
                    ∧ t.part.store.quarantine =
                      s.part.store.quarantine + (last.filter (fun k => (slotOf s.part k).poisoned)).length
                    ∧ t.part.store.ctr = { s.part.store.ctr with
                      quarantineEntries :=
                        bump^[(last.filter (fun k => (slotOf s.part k).poisoned)).length]
                          s.part.store.ctr.quarantineEntries }
                    ∧ (s.part.store.quarantine < 16 → 16 ≤ t.part.store.quarantine →
                      Cond.poolDegraded ∈ t.part.fault.latches ∧ (getLog .dl t.part).isSome = true))))

/-- SLOT_INITIALISATION_END while the run is at an UNINITIALIZED slot whose record is intact: the slot is FREE at the
tail of the free list, every sample of its region reads black without an error of its check bits, every other address
reads as before and keeps its error, the next slot advances to the first that is not QUARANTINED (64 where none is
left, and the run is DONE), whose write ends 16,875 TU later, and no other block changes (that the region of a slot is
numbered so is the model's choice, log entry 11). Where no run is RUNNING nothing happens (log entry 22). (R44, R46)
-/
def Obligations.SlotInitialisationEnds : Prop :=
  (∀ (upsets : List Upset) (s : State) (k : SlotIx) (q : Part), quiet s → memoryOk s.part →
      s.part.store.initRunning = true → s.part.store.initNext = k.val →
      q = foundBy ⟨s.part.store.initDue, upsets⟩ s → (slotOf q k).intact = true →
      (slotOf s.part k).state = .uninitialized →
      ∃ t : State, exec (.slotInitialisationEnd upsets) s = .next t
        ∧ slotOf t.part k = { slotOf s.part k with state := .free, owner := none }
        ∧ (∀ j, j ≠ k → slotOf t.part j = slotOf q j)
        ∧ t.part.store.freeList = s.part.store.freeList ++ [k]
        ∧ (∀ a, memoryRead t.part.store.mem a =
            if a / Config.samplesPerSlot = k.val then blackAt a else memoryRead s.part.store.mem a)
        ∧ (∀ a, cellsGet a t.part.store.ecc =
            if a / Config.samplesPerSlot = k.val then none else cellsGet a q.store.ecc)
        ∧ (t.part.store.initRunning = true → t.part.store.initDue = s.part.store.initDue + 16875)
        ∧ k.val < t.part.store.initNext ∧ t.part.store.initNext ≤ 64
        ∧ (∀ j : SlotIx, k.val < j.val → j.val < t.part.store.initNext → (slotOf s.part j).state = .quarantined)
        ∧ (∀ j : SlotIx, j.val = t.part.store.initNext → (slotOf s.part j).state ≠ .quarantined)
        ∧ t.part.store.initRunning = decide (t.part.store.initNext < 64)
        ∧ t.part.timebase = q.timebase ∧ t.part.lanes = q.lanes ∧ t.part.feeds = q.feeds ∧ t.part.outs = q.outs
        ∧ t.part.mgmt = q.mgmt ∧ t.part.fault = q.fault ∧ t.part.links = q.links ∧ t.part.refA = q.refA
        ∧ t.part.refB = q.refB ∧ t.part.straps = q.straps ∧ t.part.mute = q.mute)
    ∧ (∀ (upsets : List Upset) (s : State), quiet s → s.part.store.initRunning = false →
      exec (.slotInitialisationEnd upsets) s = .next { s with part := foundBy ⟨s.part.timebase, upsets⟩ s })

/-- ACQUIRE_TIMEOUT with the START pending, at the timer's expiry: one DONE TIMEOUT with the record's tag, code and
restart flag is posted to the reply queue of the START's own link into its reserved place, the record and the timer
are emptied, ACQUIRE_TIMEOUTS rises, and the lane's state and everything else stand. Without a timer nothing happens
(log entry 22). (R127, R170, R174) -/
def Obligations.AcquireTimeoutEndsTheStart : Prop :=
  (∀ (upsets : List Upset) (n : Ix) (s : State) (due : Nat) (op : PendingOp), quiet s →
      (s.part.lanes.get n).acquireAt = some due → s.part.mgmt.laneOps.get n = some op → op.op = .start →
      exec (.acquireTimeout upsets n) s = .next { s with
        part := { foundBy ⟨due, upsets⟩ s with
          lanes := (foundBy ⟨due, upsets⟩ s).lanes.modify n (fun l =>
            { l with
              acquireAt := none
              laneCtr := { l.laneCtr with acquireTimeouts := bump l.laneCtr.acquireTimeouts } })
          mgmt := { s.part.mgmt with laneOps := s.part.mgmt.laneOps.set n none }
          outs := s.part.outs.modify op.origin (fun o =>
            { o with
              replies := o.replies ++ [⟨op.tag, op.code, .done, 1, op.restart, []⟩]
              reserved := o.reserved - 1 }) } })
    ∧ (∀ (upsets : List Upset) (n : Ix) (s : State), quiet s → (s.part.lanes.get n).acquireAt = none →
      exec (.acquireTimeout upsets n) s = .next { s with part := foundBy ⟨s.part.timebase, upsets⟩ s })

/-- An IDENTIFY that is taken, targeted at the device with an empty payload, is answered DONE COMPLETE with vendor 72
75, part 17 68, revision 1, 64 slots, 4 lanes, the device address and the strap standard, in every state of the part,
and nothing else changes but what every take changes. It is refused BAD_TARGET when the target is not the device, and
BAD_LENGTH when the payload is not empty; that the target is tested first is the model's order (log entry 28). (R176)
-/
def Obligations.IdentifyAnswers : Prop :=
  ∀ (env : Env) (cmd : Command) (s : State), takenNow 1 env cmd s →
    (targetOf cmd.target ≠ .device → exec (.identify env cmd) s = refusedNow 1 env cmd s .badTarget)
      ∧ (targetOf cmd.target = .device → cmd.payload ≠ [] →
          exec (.identify env cmd) s = refusedNow 1 env cmd s .badLength)
      ∧ (targetOf cmd.target = .device → cmd.payload = [] →
          exec (.identify env cmd) s =
            doneNow 1 env cmd s
              [72, 75, 17, 68, 1, 64, 4, BitVec.ofNat 8 s.part.straps.address.val,
               if s.part.straps.stdSel then 4 else 3]
              (partAt 1 env cmd s))

/-- A QUERY STATUS that is taken with an empty payload is answered DONE COMPLETE with the status words of its target
as they stand at the take (31 for a feed, 93 for a lane, 35 for an output, 49 for the device), a QUERY CONDITIONS to
the device with its 4 words and 3 for each set latch: owner, kind and whether the cause is present. Nothing else
changes but what every take changes. A target without status, or a target other than the device, is refused
BAD_TARGET, a payload BAD_LENGTH, in this order (the model's, log entry 28). Every word of every part is the one that
its table gives: link and feed settings (Tables 9 and 12), capture (16), job (25), lane control with the profile (32,
36), carriage (41), tables (46), output (30), store (20), management (55) and faults (61). A value of several words
stands most significant first, a signed one in two's complement; the slot of word 14 of the device is the lowest-
numbered that holds the highest correctable-error count. The owner and kind of each latch and when its cause is
present are those of Table 59. (An output's words count the place reserved for this reply, log entry 25; a value that
is absent is 0, log entry 39.) (R18, R41, R60, R84, R118, R120, R139, R156, R167, R177, R184, R185, R186) -/
def Obligations.StatusQueriesAnswer : Prop :=
  (∀ (env : Env) (cmd : Command) (s : State), takenNow 2 env cmd s →
      (match statusOf (targetOf cmd.target) (openTake 2 cmd.link (partAt 2 env cmd s)) (partAt 2 env cmd s).mgmt.restart with
       | none => exec (.queryStatus env cmd) s = refusedNow 2 env cmd s .badTarget
       | some ws =>
         if cmd.payload = [] then exec (.queryStatus env cmd) s = doneNow 2 env cmd s ws (partAt 2 env cmd s)
         else exec (.queryStatus env cmd) s = refusedNow 2 env cmd s .badLength))
    ∧ (∀ (t : Target) (p : Part) (restart : Bool),
      (statusOf t p restart).map List.length =
        (match t with
         | .feed _ => some 31
         | .lane _ => some 93
         | .output _ => some 35
         | .device => some 49
         | .log _ => none
         | .unused => none))
    ∧ (∀ v : Nat, word v = BitVec.ofNat 8 v) ∧ flagWord false = 0 ∧ flagWord true = 1
    ∧ (∀ k v : Nat, (beWords k v).length = k
      ∧ ∀ i < k, (beWords k v)[i]? = some (BitVec.ofNat 8 (v / 256 ^ (k - 1 - i) % 256)))
    ∧ (∀ (k : Nat) (v : Int), (beWordsInt k v).length = k
      ∧ ∀ i < k, (beWordsInt k v)[i]? = some (BitVec.ofInt 8 (v / (256 ^ (k - 1 - i) : Nat) % 256)))
    ∧ allStd.map stdNumber = (List.range 14).map (· + 1) ∧ (∀ c : Std, c ∈ allStd)
    ∧ (∀ (p : Part) (n : Ix) (r : Bool) (l : LinkRx) (f : Feed), l = p.links.get n → f = p.feeds.get n →
      statusOf (.feed n) p r = some
        ([(match l.state with | .dark => 0 | .seeking => 1 | .measuring => 2 | .locked _ => 3),
          (match l.state with
            | .locked c => word (stdNumber c)
            | .dark => 0
            | .seeking => 0
            | .measuring => 0),
          (match l.lastCode with | some c => word (stdNumber c) | none => 0), word l.missedRun,
          flagWord l.settings.listen, (match l.settings.policy with | .contain => 0 | .pass => 1),
          word l.settings.wDiv, word l.settings.threshold, l.settings.tcKind, l.settings.tcSubkind]
        ++ [flagWord f.captureOn, word f.history.length, (match f.lastStamp with | some _ => 1 | none => 0)]
        ++ beWordsInt 8 (match f.lastStamp with | some v => v | none => 0) ++ beWordsInt 4 f.dPrev
        ++ beWords 2 f.segment ++ beWords 4 f.nextSeq))
    ∧ (∀ (p : Part) (n : Ix) (r : Bool) (l : Lane) (j : JobRec) (pr : Profile),
      l = p.lanes.get n → j = l.job → pr = l.profile →
      statusOf (.lane n) p r = some
        ([flagWord j.inFlight,
          (match j.kase with
            | .none => (0 : Byte) | .bracket => 1 | .earlyClamp => 2 | .lateClamp => 3 | .frozen => 4 | .slate => 5),
          (match j.phase with | some v => word v | none => 0)]
        ++ [j.tm1, j.t0, j.t1, j.t2].map
            (fun t => match t.state with | .absent => (0 : Byte) | .present => 1 | .poisoned => 2)
        ++ [(match j.fallback with
            | none => (0 : Byte)
            | some b => match b.poisonedFrom with | none => 1 | some _ => 2),
          flagWord j.motionValid]
        ++ beWords 4 (match j.t0.entry with | some x => x.seq | none => 0)
        ++ beWordsInt 8 (match j.target with | some v => v | none => 0)
        ++ [(match l.state with
            | .stopped => (0 : Byte) | .acquiring => 1 | .converting => 2 | .holding => 3 | .slate => 4 | .faulted => 5),
          (if (p.mgmt.laneOps.get n).map PendingOp.op = some .start then 1 else 0), flagWord l.usable,
          flagWord p.mute]
        ++ beWords 2 l.holdCount ++ beWords 8 (match l.acquireAt with | some v => v | none => 0)
        ++ [word pr.source.val, word (stdNumber pr.input), word (stdNumber pr.output)] ++ beWords 4 pr.latency
        ++ beWords 2 pr.theta1 ++ beWords 2 pr.theta2 ++ beWords 2 pr.theta3 ++ beWords 2 pr.holdLimit
        ++ beWords 2 pr.slateY ++ beWords 2 pr.slateCb ++ beWords 2 pr.slateCr ++ beWords 2 pr.acquireTimeout
        ++ [(match pr.tcMode with | .off => (0 : Byte) | .free => 1 | .follow => 2)]
        ++ [(match pr.tcMode with | .off => (0 : Byte) | .free => 1 | .follow => 2)]
        ++ beWords 3 l.tcCount ++ [flagWord l.fresh]
        ++ (match l.lastLabel with
            | some b => [word b.hours, word b.minutes, word b.seconds, word b.frames,
                word ((if b.drop then 1 else 0) + (if b.second then 2 else 0))]
            | none => [0, 0, 0, 0, 0])
        ++ [word l.carry.length, word l.route.entries.length,
          (match l.route.default with | .carry => 0 | .drop => 1)]
        ++ (match l.carry with
            | [] => List.replicate 13 0
            | x :: _ =>
              (match x.source with
                | some q => 1 :: beWords 4 q
                | none => [2, 0, 0, 0, 0]) ++ beWordsInt 8 x.stamp)
        ++ (match l.commit with
            | none => [0, 0]
            | some c => [1, word ((if c.tt.isSome then 1 else 0) + (if c.hc.isSome then 2 else 0)
                + (if c.vc.isSome then 4 else 0))])
        ++ beWords 2 l.tables.tt.crc.toNat ++ beWords 2 l.tables.hc.crc.toNat ++ beWords 2 l.tables.vc.crc.toNat))
    ∧ (∀ (p : Part) (n : Ix) (r : Bool) (o : OutUnit), o = p.outs.get n →
      statusOf (.output n) p r = some
        ([(match o.lock with | .free => (0 : Byte) | .locked _ => 1 | .holdover _ => 2),
          (match o.select with | none => 0 | some .a => 1 | some .b => 2)]
        ++ beWords 3 o.offset
        ++ [(match o.policy with | .auto => (0 : Byte) | .latched => 1), word (stdNumber o.standard),
          (match o.last.parity with | some .top => 0 | some .bottom => 1 | none => 2)]
        ++ beWordsInt 8 o.last.instant
        ++ beWordsInt 4 (match o.lock with | .free => 0 | .locked al => (al.pm : Int) | .holdover ph => ph)
        ++ [(match o.lock with
            | .locked al => word (al.k + (if al.faster then 128 else 0))
            | .free => 0
            | .holdover _ => 0),
          flagWord o.relockPending, word o.replies.length, word o.reserved, word o.notices.length]
        ++ [p.refA, p.refB].flatMap
            (fun v => flagWord v.present :: beWords 4 (match v.pr with | some x => x | none => 0))))
    ∧ (∀ (p : Part) (r : Bool), ∃ worst first : Nat,
      (∀ k : SlotIx, (slotOf p k).corrected ≤ worst)
        ∧ (worst = 0 → first = 0)
        ∧ (0 < worst → ∃ k : SlotIx, k.val = first ∧ (slotOf p k).corrected = worst
          ∧ ∀ i : SlotIx, i.val < first → (slotOf p i).corrected < worst)
        ∧ statusOf .device p r = some
          ([flagWord (!p.store.initRunning), word p.store.initNext]
          ++ [SlotState.uninitialized, .free, .filling, .history, .retiring, .quarantined].map
              (fun st => word ((List.finRange 64).countP (fun k => decide ((slotOf p k).state = st))))
          ++ [(0 : Ix), 1, 2, 3].map (fun n => word ((List.finRange 64).countP (fun k =>
              decide ((slotOf p k).owner = some n ∧ ((slotOf p k).state = .filling
                ∨ (slotOf p k).state = .history ∨ (slotOf p k).state = .retiring)))))
          ++ [word ((List.finRange 64).countP (fun k => (slotOf p k).poisoned)), word worst, word first,
            flagWord p.fault.deviceFatal]
          ++ [flagWord r]
          ++ [(0 : Ix), 1, 2, 3].map (fun n => word (p.mgmt.queues.get n).length)
          ++ [(0 : Ix), 1, 2, 3].map (fun n => word (p.mgmt.lost.get n))
          ++ [word p.mgmt.lastServed.val]
          ++ [(0 : Ix), 1, 2, 3].map (fun n => match (p.mgmt.laneOps.get n).map PendingOp.op with
              | none => (0 : Byte)
              | some .start => 1
              | some .commit => 2
              | some .relock => 1)
          ++ [(0 : Ix), 1, 2, 3].map (fun n => match (p.mgmt.outOps.get n).map PendingOp.op with
              | none => (0 : Byte)
              | some .start => 1
              | some .commit => 2
              | some .relock => 1)
          ++ [word p.straps.address.val, (if p.straps.stdSel then 4 else 3)]
          ++ [flagWord p.fault.alarm] ++ beWords 2 p.fault.mask.toNat ++ [word p.fault.latches.length]
          ++ ([(0 : Ix), 1, 2, 3].map p.fault.feedLogs.get ++ [(0 : Ix), 1, 2, 3].map p.fault.laneLogs.get
              ++ [p.fault.deviceLog]).map
            (fun g => match g with
              | none => (0 : Byte)
              | some g => match g.severity with | .note => 1 | .degraded => 2 | .fatal => 3)))
    ∧ [Cond.poolDegraded, .deviceFatal].map (fun c => (condOwner c, condKind c)) = [(0, 8), (0, 9)]
    ∧ (∀ n : Ix, [Cond.linkLost n, .slip n, .inputLost n, .stdMismatch n, .slate n, .faulted n, .refLost n].map
        (fun c => (condOwner c, condKind c)) =
      [(word (16 + n.val), 1), (word (16 + n.val), 2), (word (32 + n.val), 3), (word (32 + n.val), 4),
        (word (32 + n.val), 5), (word (32 + n.val), 6), (word (48 + n.val), 7)])
    ∧ (∀ (p : Part) (n : Ix) (l : Lane), l = p.lanes.get n →
      (causePresent p (.linkLost n) = true ↔ ∀ c, (p.links.get n).state ≠ .locked c)
        ∧ causePresent p (.slip n) = false
        ∧ (causePresent p (.inputLost n) = true ↔
          l.state ≠ .stopped ∧ l.state ≠ .faulted ∧ l.usable = false)
        ∧ (causePresent p (.stdMismatch n) = true ↔
          l.state ≠ .stopped ∧ l.state ≠ .faulted
            ∧ ∃ c, (p.links.get l.profile.source).state = .locked c ∧ c ≠ l.profile.input)
        ∧ (causePresent p (.slate n) = true ↔ l.state = .slate)
        ∧ (causePresent p (.faulted n) = true ↔ l.state = .faulted)
        ∧ (causePresent p (.refLost n) = true ↔ ∃ ph, (p.outs.get n).lock = .holdover ph)
        ∧ (causePresent p .poolDegraded = true ↔ 16 ≤ p.store.quarantine)
        ∧ (causePresent p .deviceFatal = true ↔ p.fault.deviceFatal = true))
    ∧ (∀ (env : Env) (cmd : Command) (s : State), takenNow 23 env cmd s →
      (targetOf cmd.target ≠ .device → exec (.queryConditions env cmd) s = refusedNow 23 env cmd s .badTarget)
        ∧ (targetOf cmd.target = .device → cmd.payload ≠ [] →
            exec (.queryConditions env cmd) s = refusedNow 23 env cmd s .badLength)
        ∧ (targetOf cmd.target = .device → cmd.payload = [] →
            exec (.queryConditions env cmd) s =
              doneNow 23 env cmd s
                ([if s.part.fault.alarm then 1 else 0, BitVec.ofNat 8 (s.part.fault.mask.toNat / 256),
                  BitVec.ofNat 8 (s.part.fault.mask.toNat % 256), BitVec.ofNat 8 s.part.fault.latches.length]
                  ++ s.part.fault.latches.flatMap (fun c =>
                    [condOwner c, BitVec.ofNat 8 (condKind c), if causePresent s.part c then 1 else 0]))
                (partAt 23 env cmd s)))

/-- A QUERY COUNTERS that is taken with one payload word is answered DONE COMPLETE with each counter of its target as
four words, in the order of its tables (Tables 11 and 15 for a feed, 24, 35 and 40 for a lane, 29 for an output, 19
and 56 for the device); with the clear flag 1 every counter returned is then 0 and counts afresh, the command itself
included at the device, and nothing else changes. A log or unused target is refused BAD_TARGET, another payload length
BAD_LENGTH, another flag BAD_VALUE, with every counter unchanged. (R19, R40, R59, R83, R118, R138, R155, R178) -/
def Obligations.CounterQueriesAnswer : Prop :=
  (∀ (env : Env) (cmd : Command) (s : State) (q : Part), takenNow 3 env cmd s → q = partAt 3 env cmd s →
      (countersOf (targetOf cmd.target) q = none →
          exec (.queryCounters env cmd) s = refusedNow 3 env cmd s .badTarget)
        ∧ (∀ cs, countersOf (targetOf cmd.target) q = some cs → cmd.payload.length ≠ 1 →
          exec (.queryCounters env cmd) s = refusedNow 3 env cmd s .badLength)
        ∧ (∀ cs w, countersOf (targetOf cmd.target) q = some cs → cmd.payload = [w] → 1 < w.toNat →
          exec (.queryCounters env cmd) s = refusedNow 3 env cmd s .badValue)
        ∧ (∀ cs, countersOf (targetOf cmd.target) q = some cs → cmd.payload = [0] →
          exec (.queryCounters env cmd) s = doneNow 3 env cmd s (counterWords cs) q)
        ∧ (∀ cs, countersOf (targetOf cmd.target) q = some cs → cmd.payload = [1] →
          exec (.queryCounters env cmd) s =
            doneNow 3 env cmd s (counterWords cs)
              (match targetOf cmd.target with
               | .device =>
                 { q with
                   store := { q.store with ctr := ⟨0, 0, 0, 0, 0, 0, 0⟩ }
                   mgmt := { q.mgmt with ctr := ⟨0, 0, 0, 0, 0⟩ } }
               | .feed n =>
                 { q with
                   links := q.links.modify n (fun l => { l with ctr := ⟨0, 0, 0, 0, 0, 0, 0⟩ })
                   feeds := q.feeds.modify n (fun f => { f with ctr := ⟨0, 0, 0, 0, 0, 0, 0, 0⟩ }) }
               | .lane n =>
                 { q with lanes := q.lanes.modify n (fun l =>
                   { l with
                     jobCtr := ⟨0, 0, 0, 0, 0, 0, 0, 0, 0, 0⟩
                     laneCtr := ⟨0, 0, 0, 0, 0, 0, 0, 0⟩
                     carryCtr := ⟨0, 0, 0, 0, 0, 0, 0, 0⟩ }) }
               | .output n => { q with outs := q.outs.modify n (fun o => { o with ctr := ⟨0, 0, 0, 0, 0, 0, 0⟩ }) }
               | .log _ => q
               | .unused => q)))
    ∧ (∀ (t : Target) (p : Part),
      countersOf t p =
        (match t with
         | .feed n =>
           let c := (p.links.get n).ctr
           let f := (p.feeds.get n).ctr
           some [c.lineErrors, c.packetErrors, c.missedMarkers, c.unidentified, c.identified, c.lockLosses,
             c.tcUnattached, f.picturesStamped, f.picturesCompleted, f.holesMissed, f.holesNoBuffer,
             f.holesDiscarded, f.holesAbandoned, f.reanchors, f.flushes]
         | .lane n =>
           let j := (p.lanes.get n).jobCtr
           let c := (p.lanes.get n).laneCtr
           let a := (p.lanes.get n).carryCtr
           some [j.jobsStarted, j.bracketJobs, j.earlyClamps, j.lateClamps, j.frozenJobs, j.slateJobs,
             j.substitutedJobs, j.fallbackJobs, j.poisonedTaps, j.jobsAbandoned, c.startsAccepted, c.acquisitions,
             c.acquireTimeouts, c.holdEntries, c.heldJobs, c.slateEntries, c.stops, c.faults, a.packetsCarried,
             a.routeDrops, a.carryOverflows, a.packetsDelivered, a.itemsFlushed, a.tcEmitted, a.tcReseeds,
             a.labelsInvalid]
         | .output n =>
           let c := (p.outs.get n).ctr
           some [c.boundaries, c.alignments, c.phaseSteps, c.holdoverEntries, c.standardChanges, c.repliesSent,
             c.noticesSent]
         | .device =>
           let c := p.store.ctr
           let m := p.mgmt.ctr
           some [c.allocations, c.refusedCeiling, c.refusedEmpty, c.correctedReads, c.uncorrectableReads,
             c.quarantineEntries, c.quarantineReleases, m.commandsTaken, m.commandsRefused, m.commandsLost,
             m.shortBlocks, m.badCodes]
         | .log _ => none
         | .unused => none))
    ∧ (∀ cs : List Nat, (counterWords cs).length = 4 * cs.length
      ∧ ∀ i v, cs[i]? = some v → ∀ b < 4, (counterWords cs)[4 * i + b]? =
        some (BitVec.ofNat 8 (v / 256 ^ (3 - b) % 256)))

/-- A DEVICE RESET that is taken, targeted at the device with an empty payload, is answered by no reply: the part is
as PIN_RESET with the same straps leaves it, but that a QUARANTINED slot whose record passes its check stays
QUARANTINED with its flag and error count, without owner or pins, the quarantine count is the number kept, the
initialisation run begins at the first slot that is not QUARANTINED, its first write ending 16,875 TU from the reset,
and is over where none is, the cells of the memory and their errors stand (log entries 10 and 30), and with 16 or more
kept POOL_DEGRADED is latched and reported and its notice sent in the picture of each output's first boundary;
COMMANDS_TAKEN is 1, since the take counts after its effect (log entry 9), and the first boundary belongs to the reset
(log entry 8). Refused BAD_TARGET and BAD_LENGTH, in this order (the model's, log entry 28), it is answered like any
other command. (R45, R46, R56, R106, R169, R170, R179) -/
def Obligations.DeviceResetResets : Prop :=
  ∀ (env : Env) (cmd : Command) (s : State) (q : Part), takenNow 4 env cmd s → q = partAt 4 env cmd s →
    (targetOf cmd.target ≠ .device → exec (.deviceReset env cmd) s = refusedNow 4 env cmd s .badTarget)
      ∧ (targetOf cmd.target = .device → cmd.payload ≠ [] →
          exec (.deviceReset env cmd) s = refusedNow 4 env cmd s .badLength)
      ∧ (targetOf cmd.target = .device → cmd.payload = [] →
          ∃ t u : State, exec (.deviceReset env cmd) s = .next t ∧ t.pending = s.pending
            ∧ exec (.pinReset s.part.straps.address s.part.straps.stdSel) s = .next u
            ∧ (∀ k : SlotIx, slotOf t.part k =
                if (slotOf q k).state = .quarantined ∧ (slotOf q k).intact = true then
                  { slotOf q k with owner := none, pins := 0 }
                else ⟨.uninitialized, none, 0, false, 0, true⟩)
            ∧ t.part.store.quarantine = countSlots t.part .quarantined
            ∧ t.part.store.freeList = [] ∧ t.part.store.ctr = u.part.store.ctr
            ∧ (∀ k : SlotIx, k.val < t.part.store.initNext → (slotOf t.part k).state = .quarantined)
            ∧ (∀ k : SlotIx, k.val = t.part.store.initNext → (slotOf t.part k).state ≠ .quarantined)
            ∧ t.part.store.initNext ≤ 64 ∧ t.part.store.initRunning = decide (t.part.store.initNext < 64)
            ∧ (t.part.store.initRunning = true → t.part.store.initDue = 16875)
            ∧ t.part.store.mem = s.part.store.mem ∧ t.part.store.ecc = q.store.ecc
            ∧ t.part.straps = u.part.straps ∧ t.part.timebase = u.part.timebase ∧ t.part.links = u.part.links
            ∧ t.part.feeds = u.part.feeds ∧ t.part.lanes = u.part.lanes ∧ t.part.refA = u.part.refA
            ∧ t.part.refB = u.part.refB ∧ t.part.mgmt = { u.part.mgmt with ctr := { u.part.mgmt.ctr with commandsTaken := 1 } } ∧ t.part.mute = u.part.mute
            ∧ (if 16 ≤ t.part.store.quarantine then
                t.part.fault.latches = [.poolDegraded] ∧ t.part.fault.alarm = true
                  ∧ getLog .dl t.part = some ⟨.poolDegraded, .degraded, 0, .count t.part.store.quarantine, false, 0, false⟩
                  ∧ (∀ n, t.part.outs.get n =
                    { u.part.outs.get n with
                      packets := [sendPacket ⟨0x61#8, 0x0D#8,
                        [BitVec.ofNat 8 s.part.straps.address.val, 0, 255, 1, 0, 8]⟩]
                      ctr := { (u.part.outs.get n).ctr with noticesSent := 1 } })
               else t.part.fault = u.part.fault ∧ t.part.outs = u.part.outs))

/-- A SET FEED that is taken, targeted at a feed with six words in the ranges of Table 9 whose timecode form is no
management form, is answered DONE COMPLETE and replaces the six settings of that feed; nothing else changes. Another
target is refused BAD_TARGET, another length BAD_LENGTH, a word out of range or a management form BAD_VALUE, with the
settings unchanged. A SET OUTPUT that is taken, targeted at an output with five words, a select of at most 2, a policy
of at most 1 and an offset below the period of the running standard, with no RELOCK pending, is answered DONE
COMPLETE: the three settings are replaced, the output is FREE where the select changed and keeps its lock otherwise,
the next boundary stands, and nothing else changes. Other targets, lengths and values are refused BAD_TARGET,
BAD_LENGTH, BAD_VALUE, a pending RELOCK BUSY; the order of the tests of both is the model's (log entry 28). (R18,
R114) -/
def Obligations.SetFeedReplacesSettings : Prop :=
  (∀ (env : Env) (cmd : Command) (s : State), takenNow 5 env cmd s →
      (feedTarget cmd = none → exec (.setFeed env cmd) s = refusedNow 5 env cmd s .badTarget)
        ∧ (∀ n, feedTarget cmd = some n → cmd.payload.length ≠ 6 →
            exec (.setFeed env cmd) s = refusedNow 5 env cmd s .badLength)
        ∧ (∀ (n : Ix) (listen policy div threshold kind subkind : Byte), feedTarget cmd = some n →
            cmd.payload = [listen, policy, div, threshold, kind, subkind] →
            if listen.toNat ≤ 1 ∧ policy.toNat ≤ 1 ∧ div.toNat ∈ [4, 8, 16, 32, 64] ∧ 1 ≤ threshold.toNat
                ∧ ¬(kind = 0x61#8 ∧ (subkind = 0x0B#8 ∨ subkind = 0x0C#8 ∨ subkind = 0x0D#8)) then
              exec (.setFeed env cmd) s =
                doneNow 5 env cmd s []
                  { partAt 5 env cmd s with
                    links := s.part.links.modify n (fun l =>
                      { l with settings :=
                        ⟨decide (listen.toNat = 1), if policy.toNat = 0 then .contain else .pass, div.toNat,
                         threshold.toNat, kind, subkind⟩ }) }
            else exec (.setFeed env cmd) s = refusedNow 5 env cmd s .badValue))
    ∧ (∀ (env : Env) (cmd : Command) (s : State), takenNow 16 env cmd s →
      (outTarget cmd = none → exec (.setOutput env cmd) s = refusedNow 16 env cmd s .badTarget)
        ∧ (∀ n, outTarget cmd = some n → cmd.payload.length ≠ 5 →
            exec (.setOutput env cmd) s = refusedNow 16 env cmd s .badLength)
        ∧ (∀ (n : Ix) (sel a b c pol : Byte) (offset : Nat) (choice : Option RefId), outTarget cmd = some n →
            cmd.payload = [sel, a, b, c, pol] → offset = 65536 * a.toNat + 256 * b.toNat + c.toNat →
            choice = (if sel.toNat = 0 then none else if sel.toNat = 1 then some .a else some .b) →
            if sel.toNat ≤ 2 ∧ pol.toNat ≤ 1 ∧ offset < periodOf (s.part.outs.get n).standard then
              if (s.part.outs.get n).relockPending = true then
                exec (.setOutput env cmd) s = refusedNow 16 env cmd s .busy
              else
                exec (.setOutput env cmd) s =
                  doneNow 16 env cmd s []
                    { partAt 16 env cmd s with
                      outs := s.part.outs.modify n (fun o =>
                        { o with
                          select := choice, offset := offset
                          policy := if pol.toNat = 0 then .auto else .latched
                          lock := if choice = o.select then o.lock else .free }) }
            else exec (.setOutput env cmd) s = refusedNow 16 env cmd s .badValue))

/-- A FEED RESET that is taken, targeted at a feed with an empty payload, is answered DONE COMPLETE over the flush of
that feed, the effects of an integrity error found in it ending the step. A flush empties the history, makes the last
stamp absent and d_prev 0, raises segment and FLUSHES, keeps the sequence count and the capture state, and leaves
every slot of an entry that is intact, owned by the feed, FILLING or HISTORY and unpinned FREE on the free list, or
QUARANTINED where poisoned, and a pinned one RETIRING; links, lanes, other feeds, management and memory stand. Another
target is refused BAD_TARGET, a payload BAD_LENGTH, in this order (the model's, log entry 28). (R37, R38, R51) -/
def Obligations.FeedResetFlushes : Prop :=
  (∀ (env : Env) (cmd : Command) (s : State), takenNow 6 env cmd s →
      (feedTarget cmd = none → exec (.feedReset env cmd) s = refusedNow 6 env cmd s .badTarget)
        ∧ (∀ n, feedTarget cmd = some n → cmd.payload ≠ [] →
          exec (.feedReset env cmd) s = refusedNow 6 env cmd s .badLength)
        ∧ (∀ n, feedTarget cmd = some n → cmd.payload = [] →
          ∃ t : State, exec (.feedReset env cmd) s = .next t
            ∧ t.part = settle (answered cmd.link (completeReply 6 cmd (partAt 6 env cmd s) []) false
                (flushFeed n (partAt 6 env cmd s)))))
    ∧ (∀ (n : Ix) (p : Part),
      (flushFeed n p).feeds = p.feeds.modify n (fun f =>
          { f with
            history := [], lastStamp := none, dPrev := 0, segment := (f.segment + 1) % 65536
            ctr := { f.ctr with flushes := bump f.ctr.flushes } })
        ∧ (∀ (e : Entry) (k : SlotIx), e ∈ (p.feeds.get n).history → entrySlot e = some k →
          (slotOf p k).intact = true → (slotOf p k).owner = some n →
          (slotOf p k).state = .filling ∨ (slotOf p k).state = .history →
          (0 < (slotOf p k).pins →
              (slotOf (flushFeed n p) k).state = .retiring ∧ (slotOf (flushFeed n p) k).owner = some n)
            ∧ ((slotOf p k).pins = 0 → (slotOf p k).poisoned = true →
              (slotOf (flushFeed n p) k).state = .quarantined)
            ∧ ((slotOf p k).pins = 0 → (slotOf p k).poisoned = false →
              (slotOf (flushFeed n p) k).state = .free ∧ k ∈ (flushFeed n p).store.freeList))
        ∧ (flushFeed n p).links = p.links ∧ (flushFeed n p).lanes = p.lanes ∧ (flushFeed n p).mgmt = p.mgmt
        ∧ (flushFeed n p).store.mem = p.store.mem ∧ (flushFeed n p).timebase = p.timebase)

/-- A RELEASE QUARANTINE that is taken, targeted at the device with an empty payload, out of device fatal and with no
initialisation running, where every QUARANTINED record passes its check: it is answered DONE COMPLETE with the number
released, every QUARANTINED slot is FREE, unpoisoned and with error count 0, the released slots join the tail of the
free list in ascending order, the count of releases rises by one for each of them, and every other slot and block
stands, memory, references, straps and mute flag included. In device fatal or during initialisation it is refused
WRONG_STATE, and BAD_TARGET and BAD_LENGTH before that (the model's order, log entry 28). (R56, R57) -/
def Obligations.ReleaseQuarantineFrees : Prop :=
  ∀ (env : Env) (cmd : Command) (s : State) (q : Part), takenNow 7 env cmd s → q = partAt 7 env cmd s →
    (targetOf cmd.target ≠ .device → exec (.releaseQuarantine env cmd) s = refusedNow 7 env cmd s .badTarget)
      ∧ (targetOf cmd.target = .device → cmd.payload ≠ [] →
          exec (.releaseQuarantine env cmd) s = refusedNow 7 env cmd s .badLength)
      ∧ (targetOf cmd.target = .device → cmd.payload = [] →
          s.part.fault.deviceFatal = true ∨ s.part.store.initRunning = true →
          exec (.releaseQuarantine env cmd) s = refusedNow 7 env cmd s .wrongState)
      ∧ (targetOf cmd.target = .device → cmd.payload = [] → s.part.fault.deviceFatal = false →
          s.part.store.initRunning = false → s.part.store.quarantine = countSlots s.part .quarantined →
          (∀ k : SlotIx, (slotOf q k).state = .quarantined → (slotOf q k).intact = true) →
          ∃ t : State, exec (.releaseQuarantine env cmd) s = .next t
            ∧ (∀ k : SlotIx, slotOf t.part k =
                if (slotOf q k).state = .quarantined then
                  { slotOf q k with state := .free, owner := none, poisoned := false, corrected := 0 }
                else slotOf q k)
            ∧ t.part.store.freeList = s.part.store.freeList
                ++ allSlots.filter (fun k => (slotOf q k).state == .quarantined)
            ∧ t.part.store.quarantine = 0
            ∧ t.part.store.ctr.quarantineReleases =
                bump^[countSlots q .quarantined] s.part.store.ctr.quarantineReleases
            ∧ t.part.outs = (answered cmd.link
                (completeReply 7 cmd q [BitVec.ofNat 8 (countSlots q .quarantined)]) false q).outs
            ∧ t.part.mgmt = servedMgmt q.mgmt cmd.link false ∧ t.part.fault = s.part.fault
            ∧ t.part.lanes = q.lanes ∧ t.part.feeds = s.part.feeds ∧ t.part.links = s.part.links
            ∧ t.part.store.mem = s.part.store.mem ∧ t.part.store.ecc = q.store.ecc ∧ t.part.refA = s.part.refA
            ∧ t.part.refB = s.part.refB ∧ t.part.straps = s.part.straps ∧ t.part.mute = s.part.mute
            ∧ t.part.timebase = q.timebase)

/-- A SET LANE that is taken, targeted at a STOPPED lane with 24 words that spell a profile in range, is answered DONE
COMPLETE and replaces the whole profile, the slate colour clamped to 4..1019, and resets the timecode counter exactly
when the output label rate changes; nothing else changes. It is refused in the order BAD_TARGET, BAD_LENGTH,
WRONG_STATE, BAD_VALUE. A payload spells a profile exactly when its source, standards, latency, thresholds, hold
limit, acquire timeout and mode are in the ranges of Table 31. (R119, R120, R151) -/
def Obligations.SetLaneReplacesTheProfile : Prop :=
  (∀ (env : Env) (cmd : Command) (s : State), takenNow 8 env cmd s →
      (laneTarget cmd = none → exec (.setLane env cmd) s = refusedNow 8 env cmd s .badTarget)
        ∧ (∀ n, laneTarget cmd = some n →
          if cmd.payload.length ≠ 24 then exec (.setLane env cmd) s = refusedNow 8 env cmd s .badLength
          else if (s.part.lanes.get n).state ≠ .stopped then
            exec (.setLane env cmd) s = refusedNow 8 env cmd s .wrongState
          else match parseProfile cmd.payload with
            | none => exec (.setLane env cmd) s = refusedNow 8 env cmd s .badValue
            | some v =>
              exec (.setLane env cmd) s =
                doneNow 8 env cmd s []
                  { partAt 8 env cmd s with
                    lanes := (partAt 8 env cmd s).lanes.modify n (fun l =>
                      if (stdRow v.output).rate = (stdRow l.profile.output).rate then { l with profile := v }
                      else { l with profile := v, tcCount := 0, fresh := true }) }))
    ∧ (∀ ws : List Byte, ws.length = 24 →
      ((parseProfile ws).isSome = true ↔
        (ws.getD 0 0).toNat < 4 ∧ 1 ≤ (ws.getD 1 0).toNat ∧ (ws.getD 1 0).toNat ≤ 14
          ∧ 1 ≤ (ws.getD 2 0).toNat ∧ (ws.getD 2 0).toNat ≤ 14 ∧ fieldAt ws 3 4 ≤ 21600000
          ∧ fieldAt ws 7 2 ≤ fieldAt ws 9 2 ∧ fieldAt ws 9 2 ≤ fieldAt ws 11 2 ∧ fieldAt ws 11 2 ≤ 1023
          ∧ fieldAt ws 13 2 ≤ 1500 ∧ 1 ≤ fieldAt ws 21 2 ∧ fieldAt ws 21 2 ≤ 600 ∧ (ws.getD 23 0).toNat ≤ 2))
    ∧ (∀ (ws : List Byte) (v : Profile), parseProfile ws = some v →
      v.source.val = (ws.getD 0 0).toNat ∧ stdNumber v.input = (ws.getD 1 0).toNat
        ∧ stdNumber v.output = (ws.getD 2 0).toNat ∧ v.latency = fieldAt ws 3 4 ∧ v.theta1 = fieldAt ws 7 2
        ∧ v.theta2 = fieldAt ws 9 2 ∧ v.theta3 = fieldAt ws 11 2 ∧ v.holdLimit = fieldAt ws 13 2
        ∧ v.acquireTimeout = fieldAt ws 21 2 ∧ tcModeWord v.tcMode = (ws.getD 23 0).toNat
        ∧ v.slateY = max 4 (min 1019 (fieldAt ws 15 2)) ∧ v.slateCb = max 4 (min 1019 (fieldAt ws 17 2))
        ∧ v.slateCr = max 4 (min 1019 (fieldAt ws 19 2)))

/-- A START that is taken, targeted at a lane with an empty payload, is refused BUSY with an operation pending on the
lane and WRONG_STATE when the lane is not STOPPED; otherwise it is ACCEPTED: one reply is posted and one place kept
for the DONE, the lane's record holds the START with its link, tag and restart flag, the acquire timer expires timeout
x 2,700,000 TU later, the next job is job 0, STARTS_ACCEPTED rises, capture of the source feed is ON exactly if its
link is LOCKED, and the lane is ACQUIRING where its input is usable; else it is HOLDING with INPUT_LOST latched,
STD_MISMATCH too where the link is LOCKED under another code, and HOLD_ENTRIES raised, or, where its hold limit is 0,
SLATE with SLATE latched and SLATE_ENTRIES raised as well. The hold count is 0; nothing else of the lane changes and
no other condition is latched or cleared. (R122, R123, R124, R125, R126, R129, R130, R170, R174) -/
def Obligations.StartBeginsRunning : Prop :=
  ∀ (env : Env) (cmd : Command) (s : State) (q : Part), takenNow 9 env cmd s → q = partAt 9 env cmd s →
    (laneTarget cmd = none → exec (.start env cmd) s = refusedNow 9 env cmd s .badTarget)
      ∧ (∀ (n : Ix) (l : Lane), laneTarget cmd = some n → l = q.lanes.get n →
          if cmd.payload ≠ [] then exec (.start env cmd) s = refusedNow 9 env cmd s .badLength
          else if (s.part.mgmt.laneOps.get n).isSome = true then
            exec (.start env cmd) s = refusedNow 9 env cmd s .busy
          else if l.state ≠ .stopped then exec (.start env cmd) s = refusedNow 9 env cmd s .wrongState
          else l.commit = none →
            ∃ t : State, exec (.start env cmd) s = .next t
              ∧ t.part.mgmt = (acceptedLane n .start 9 cmd q).mgmt
              ∧ (∀ m, t.part.outs.get m =
                  { (acceptedLane n .start 9 cmd q).outs.get m with notices := (t.part.outs.get m).notices })
              ∧ (t.part.lanes.get n) = { l with
                  acquireAt := some (q.timebase + l.profile.acquireTimeout * 2700000)
                  jobNumber := 0
                  holdCount := 0
                  usable := decide (lockedCode s.part l.profile.source = some l.profile.input)
                  state := if lockedCode s.part l.profile.source = some l.profile.input then .acquiring
                    else if l.profile.holdLimit = 0 then .slate else .holding
                  laneCtr := { l.laneCtr with
                    startsAccepted := bump l.laneCtr.startsAccepted
                    holdEntries := if lockedCode s.part l.profile.source = some l.profile.input
                      then l.laneCtr.holdEntries else bump l.laneCtr.holdEntries
                    slateEntries := if lockedCode s.part l.profile.source ≠ some l.profile.input
                        ∧ l.profile.holdLimit = 0
                      then bump l.laneCtr.slateEntries else l.laneCtr.slateEntries } }
              ∧ (t.part.feeds.get l.profile.source).captureOn = (lockedCode s.part l.profile.source).isSome
              ∧ (∀ c : Cond, c ∈ t.part.fault.latches ↔
                  c ∈ s.part.fault.latches
                    ∨ (lockedCode s.part l.profile.source ≠ some l.profile.input
                      ∧ (c = .inputLost n
                        ∨ (c = .stdMismatch n ∧ lockedCode s.part l.profile.source ≠ none)
                        ∨ (c = .slate n ∧ l.profile.holdLimit = 0))))
              ∧ (∀ m, m ≠ n → t.part.lanes.get m = q.lanes.get m) ∧ t.part.links = s.part.links
              ∧ t.part.store = q.store)

/-- A STOP that is taken, targeted at a lane with an empty payload, is refused WRONG_STATE when the lane is FAULTED;
to a STOPPED lane it is answered DONE COMPLETE and changes nothing; to a running lane it is answered DONE COMPLETE
last, after the DONE HALTED of a pending START or the DONE COMPLETE of a pending COMMIT: the lane has no job in flight
and no pins, no carried items, timecode counter 0 with the fresh flag, no acquire timer, no pending COMMIT, its swap
taken, hold count 0, its flushed items, its abandonment and the STOP counted, profile, routing table and job record
kept; it is STOPPED unless an integrity error found in it takes the part to device fatal, and a feed left without a
running lane has an empty history. (R82, R132, R146, R151, R163, R170, R174) -/
def Obligations.StopReturnsTheLane : Prop :=
  ∀ (env : Env) (cmd : Command) (s : State) (q : Part), takenNow 10 env cmd s → q = partAt 10 env cmd s →
    (laneTarget cmd = none → exec (.stop env cmd) s = refusedNow 10 env cmd s .badTarget)
      ∧ (∀ (n : Ix) (l : Lane), laneTarget cmd = some n → l = q.lanes.get n →
          if cmd.payload ≠ [] then exec (.stop env cmd) s = refusedNow 10 env cmd s .badLength
          else if l.state = .faulted then exec (.stop env cmd) s = refusedNow 10 env cmd s .wrongState
          else if l.state = .stopped then exec (.stop env cmd) s = doneNow 10 env cmd s [] q
          else
            ∃ t : State, exec (.stop env cmd) s = .next t
              ∧ (t.part.lanes.get n).job = (if l.job.inFlight then { l.job with inFlight := false, pinned := [], kept := none } else l.job)
              ∧ (t.part.lanes.get n).carry = [] ∧ (t.part.lanes.get n).tcCount = 0
              ∧ (t.part.lanes.get n).fresh = true ∧ (t.part.lanes.get n).commit = none
              ∧ (t.part.lanes.get n).holdCount = 0
              ∧ (t.part.lanes.get n).tables = (match l.commit with | some c => swapTables c l.tables | none => l.tables)
              ∧ (t.part.lanes.get n).profile = l.profile ∧ (t.part.lanes.get n).route = l.route
              ∧ (t.part.lanes.get n).laneCtr.stops = bump l.laneCtr.stops
              ∧ (t.part.lanes.get n).carryCtr.itemsFlushed = bumpBy l.carry.length l.carryCtr.itemsFlushed
              ∧ (t.part.fault.deviceFatal = s.part.fault.deviceFatal → (t.part.lanes.get n).state = .stopped)
              ∧ (laneOpKind s.part n = some .start →
                  laneOpKind t.part n = none ∧ (t.part.lanes.get n).acquireAt = none)
              ∧ (runningCount t.part l.profile.source = 0 → (t.part.feeds.get l.profile.source).history = []
                  ∧ (t.part.feeds.get l.profile.source).captureOn = false)
              ∧ (t.part.lanes.get n).jobCtr =
                  (if l.job.inFlight then { l.jobCtr with jobsAbandoned := bump l.jobCtr.jobsAbandoned } else l.jobCtr)
              ∧ (t.part.fault.deviceFatal = s.part.fault.deviceFatal →
                  (s.part.mgmt.laneOps.get n = none →
                    (t.part.outs.get cmd.link).replies = (q.outs.get cmd.link).replies ++ [completeReply 10 cmd q []])
                  ∧ (∀ (op : PendingOp) (status : Byte), s.part.mgmt.laneOps.get n = some op →
                    (op.op = .start ∧ status = 2) ∨ (op.op = .commit ∧ l.commit.isSome = true ∧ status = 0) →
                    t.part.mgmt.laneOps.get n = none
                      ∧ (op.origin = cmd.link → (t.part.outs.get cmd.link).replies =
                        (q.outs.get cmd.link).replies
                          ++ [⟨op.tag, op.code, .done, status, op.restart, []⟩, completeReply 10 cmd q []])
                      ∧ (op.origin ≠ cmd.link →
                        (t.part.outs.get op.origin).replies =
                            (q.outs.get op.origin).replies ++ [⟨op.tag, op.code, .done, status, op.restart, []⟩]
                          ∧ (t.part.outs.get cmd.link).replies =
                            (q.outs.get cmd.link).replies ++ [completeReply 10 cmd q []]))))

/-- A RESUME that is taken is refused in the order BAD_TARGET, BAD_LENGTH, WRONG_STATE when the lane is not FAULTED,
the part is in device fatal, or the lane's log holds an error; otherwise it is answered DONE COMPLETE and sets the
timecode counter to 0 (R136) with the fresh flag set (R151), the hold count to 0 and the lane STOPPED, and nothing
else changes. (R136, R151) -/
def Obligations.ResumeReturnsAFaultedLane : Prop :=
  ∀ (env : Env) (cmd : Command) (s : State), takenNow 11 env cmd s →
    (laneTarget cmd = none → exec (.resume env cmd) s = refusedNow 11 env cmd s .badTarget)
      ∧ (∀ n, laneTarget cmd = some n → cmd.payload ≠ [] →
          exec (.resume env cmd) s = refusedNow 11 env cmd s .badLength)
      ∧ (∀ n, laneTarget cmd = some n → cmd.payload = [] →
          ((s.part.lanes.get n).state ≠ .faulted ∨ s.part.fault.deviceFatal = true
            ∨ (s.part.fault.laneLogs.get n).isSome = true) →
          exec (.resume env cmd) s = refusedNow 11 env cmd s .wrongState)
      ∧ (∀ n, laneTarget cmd = some n → cmd.payload = [] → (s.part.lanes.get n).state = .faulted →
          s.part.fault.deviceFatal = false → s.part.fault.laneLogs.get n = none →
          exec (.resume env cmd) s =
            doneNow 11 env cmd s []
              { partAt 11 env cmd s with
                lanes := (partAt 11 env cmd s).lanes.modify n (fun l =>
                  { l with tcCount := 0, fresh := true, holdCount := 0, state := .stopped }) })

/-- A MUTE or UNMUTE that is taken, targeted at the device with an empty payload, is answered DONE COMPLETE and sets
or clears the mute flag, in every state; a SET ALARM MASK with two words of at most 511 replaces the mask and re-
evaluates the alarm line over the set latches; nothing else changes. Other targets, lengths and values are refused
BAD_TARGET, BAD_LENGTH and BAD_VALUE, in this order (the model's, log entry 28). (R137, R187) -/
def Obligations.MuteAndMaskChangeOneThing : Prop :=
  (∀ (env : Env) (cmd : Command) (s : State), takenNow 12 env cmd s →
      (targetOf cmd.target ≠ .device → exec (.mute env cmd) s = refusedNow 12 env cmd s .badTarget)
        ∧ (targetOf cmd.target = .device → cmd.payload ≠ [] →
            exec (.mute env cmd) s = refusedNow 12 env cmd s .badLength)
        ∧ (targetOf cmd.target = .device → cmd.payload = [] →
            exec (.mute env cmd) s = doneNow 12 env cmd s [] { partAt 12 env cmd s with mute := true }))
    ∧ (∀ (env : Env) (cmd : Command) (s : State), takenNow 13 env cmd s →
      (targetOf cmd.target ≠ .device → exec (.unmute env cmd) s = refusedNow 13 env cmd s .badTarget)
        ∧ (targetOf cmd.target = .device → cmd.payload ≠ [] →
            exec (.unmute env cmd) s = refusedNow 13 env cmd s .badLength)
        ∧ (targetOf cmd.target = .device → cmd.payload = [] →
            exec (.unmute env cmd) s = doneNow 13 env cmd s [] { partAt 13 env cmd s with mute := false }))
    ∧ (∀ (env : Env) (cmd : Command) (s : State), takenNow 25 env cmd s →
      (targetOf cmd.target ≠ .device → exec (.setAlarmMask env cmd) s = refusedNow 25 env cmd s .badTarget)
        ∧ (targetOf cmd.target = .device → cmd.payload.length ≠ 2 →
            exec (.setAlarmMask env cmd) s = refusedNow 25 env cmd s .badLength)
        ∧ (∀ hi lo : Byte, targetOf cmd.target = .device → cmd.payload = [hi, lo] →
            if 511 < 256 * hi.toNat + lo.toNat then
              exec (.setAlarmMask env cmd) s = refusedNow 25 env cmd s .badValue
            else
              exec (.setAlarmMask env cmd) s =
                doneNow 25 env cmd s []
                  { partAt 25 env cmd s with
                    fault := { s.part.fault with
                      mask := BitVec.ofNat 9 (256 * hi.toNat + lo.toNat)
                      alarm := s.part.fault.latches.any (fun c =>
                        (BitVec.ofNat 9 (256 * hi.toNat + lo.toNat)).getLsbD (condKind c - 1)) } }))

/-- A LOAD SEGMENT that is taken is refused in the order BAD_TARGET, BAD_LENGTH unless the payload is 2 + 8 x N words
for an N of 1..31, BAD_VALUE for a table above 2 or rows past the table's end, BUSY with a COMMIT pending; otherwise
it is answered DONE COMPLETE, row first + i of the named table's shadow bank takes the four big-endian coefficients of
row i with fresh parity, every other row of it, the active bank, the other tables and everything else stand. (R160) -/
def Obligations.LoadSegmentWritesTheShadow : Prop :=
  ∀ (env : Env) (cmd : Command) (s : State) (q : Part), takenNow 14 env cmd s → q = partAt 14 env cmd s →
    (laneTarget cmd = none → exec (.loadSegment env cmd) s = refusedNow 14 env cmd s .badTarget)
      ∧ (∀ n, laneTarget cmd = some n → (∀ k, 1 ≤ k → k ≤ 31 → cmd.payload.length ≠ 2 + 8 * k) →
          exec (.loadSegment env cmd) s = refusedNow 14 env cmd s .badLength)
      ∧ (∀ (n : Ix) (k : Nat) (t first : Byte) (rest : List Byte), laneTarget cmd = some n → 1 ≤ k → k ≤ 31 →
          cmd.payload = t :: first :: rest → rest.length = 8 * k →
          (2 < t.toNat ∨ (t.toNat = 0 ∧ 256 < first.toNat + k) ∨ (1 ≤ t.toNat ∧ 16 < first.toNat + k) →
              exec (.loadSegment env cmd) s = refusedNow 14 env cmd s .badValue)
            ∧ (∀ tab, tableOf t = some tab → first.toNat + k ≤ tableRows tab →
              if (s.part.lanes.get n).commit.isSome = true then
                exec (.loadSegment env cmd) s = refusedNow 14 env cmd s .busy
              else
                ∃ rows : List TRow, rows.length = (getTable tab (q.lanes.get n).tables).shadow.length
                  ∧ (∀ i < rows.length, rows[i]? =
                    if first.toNat ≤ i ∧ i < first.toNat + k then
                      some ⟨rest.getD (8 * (i - first.toNat)) 0 ++ rest.getD (8 * (i - first.toNat) + 1) 0,
                        rest.getD (8 * (i - first.toNat) + 2) 0 ++ rest.getD (8 * (i - first.toNat) + 3) 0,
                        rest.getD (8 * (i - first.toNat) + 4) 0 ++ rest.getD (8 * (i - first.toNat) + 5) 0,
                        rest.getD (8 * (i - first.toNat) + 6) 0 ++ rest.getD (8 * (i - first.toNat) + 7) 0, true⟩
                    else (getTable tab (q.lanes.get n).tables).shadow[i]?)
                  ∧ exec (.loadSegment env cmd) s =
                    doneNow 14 env cmd s []
                      { q with lanes := q.lanes.modify n (fun l =>
                        { l with tables := modTable tab (fun b => { b with shadow := rows }) l.tables }) }))

/-- A COMMIT that is taken is refused BAD_TARGET, for its payload (BAD_LENGTH empty, BAD_VALUE for a mask outside
1..7, BAD_LENGTH otherwise), BUSY with an operation pending, or for its tables with the payload of Table 45; otherwise
it is ACCEPTED. On a STOPPED, SLATE or FAULTED lane the tables are swapped in the same event and DONE COMPLETE
follows; on a lane that runs jobs the commit record holds the named CRCs, the lane's record holds the COMMIT and one
place is kept for the DONE. Nothing else changes. The record holds the CRC words of the payload for the tables that
its mask names, in the order TT, HC, VC. The tables pass exactly when every row of every named shadow bank has its
parity, its range and its sum and the CRC given is that of the bank; otherwise the first table in that order that
fails is named, with its first bad row and the reason (3 parity, 1 range, 2 sum), or with the CRC computed. A swap
gives both banks of a named table the shadow contents with fresh parity and the CRC carried, and leaves the other
tables; a job in flight goes on with the rows it started with. (R77, R161, R163, R170, R174) -/
def Obligations.CommitChecksAndSwaps : Prop :=
  (∀ (env : Env) (cmd : Command) (s : State) (q : Part), takenNow 15 env cmd s → q = partAt 15 env cmd s →
      (laneTarget cmd = none → exec (.commit env cmd) s = refusedNow 15 env cmd s .badTarget)
        ∧ (∀ n d, laneTarget cmd = some n → parseCommit cmd.payload = .error d →
          exec (.commit env cmd) s = refusedWith 15 env cmd s d.status d.payload)
        ∧ (∀ n c, laneTarget cmd = some n → parseCommit cmd.payload = .ok c →
          if (s.part.mgmt.laneOps.get n).isSome = true then
            exec (.commit env cmd) s = refusedNow 15 env cmd s .busy
          else match checkTables c (q.lanes.get n).tables with
            | some d => exec (.commit env cmd) s = refusedWith 15 env cmd s d.status d.payload
            | none =>
              if runsJobs (s.part.lanes.get n).state then
                exec (.commit env cmd) s = .next { s with
                  part := { acceptedLane n .commit 15 cmd q with
                    lanes := q.lanes.modify n (fun l => { l with commit := some c }) } }
              else
                exec (.commit env cmd) s = .next { s with
                  part := { acceptedAndDone 15 cmd q with
                    lanes := q.lanes.modify n (fun l =>
                      { l with
                        commit := none, tables := swapTables c l.tables
                        job := if l.job.inFlight = true ∧ l.job.kept = none then
                          { l.job with kept := some ⟨l.tables.tt.active, l.tables.hc.active, l.tables.vc.active⟩ }
                          else l.job }) } }))
    ∧ (∀ ws : List Byte,
      (ws = [] → parseCommit ws = .error ⟨.badLength, []⟩)
        ∧ (∀ m rest, ws = m :: rest → (m.toNat = 0 ∨ 7 < m.toNat) → parseCommit ws = .error ⟨.badValue, []⟩)
        ∧ (∀ m rest, ws = m :: rest → 1 ≤ m.toNat → m.toNat ≤ 7 →
          rest.length ≠ 2 * (m.toNat % 2 + m.toNat / 2 % 2 + m.toNat / 4 % 2) →
          parseCommit ws = .error ⟨.badLength, []⟩)
        ∧ (∀ m rest, ws = m :: rest → 1 ≤ m.toNat → m.toNat ≤ 7 →
          rest.length = 2 * (m.toNat % 2 + m.toNat / 2 % 2 + m.toNat / 4 % 2) →
          ∃ c : CommitRec, parseCommit ws = .ok c
            ∧ c.tt = (if m.toNat % 2 = 1 then some (rest.getD 0 0 ++ rest.getD 1 0) else none)
            ∧ c.hc = (if m.toNat / 2 % 2 = 1 then
                some (rest.getD (2 * (m.toNat % 2)) 0 ++ rest.getD (2 * (m.toNat % 2) + 1) 0) else none)
            ∧ c.vc = (if m.toNat / 4 % 2 = 1 then
                some (rest.getD (2 * (m.toNat % 2 + m.toNat / 2 % 2)) 0
                  ++ rest.getD (2 * (m.toNat % 2 + m.toNat / 2 % 2) + 1) 0) else none)))
    ∧ (∀ (c : CommitRec) (ts : Tables),
      checkTables c ts =
        (checkTable .tt c.tt ts.tt.shadow <|> checkTable .hc c.hc ts.hc.shadow <|> checkTable .vc c.vc ts.vc.shadow))
    ∧ (∀ (t : Table) (shadow : List TRow) (crc : BitVec 16) (number : Byte),
      number = (match t with | .tt => 0 | .hc => 1 | .vc => 2) →
      checkTable t none shadow = none
        ∧ (checkTable t (some crc) shadow = none ↔
          (∀ r ∈ shadow, r.parityOk = true ∧ rowValid t r) ∧ rowsCrc shadow = crc)
        ∧ ((∀ r ∈ shadow, r.parityOk = true ∧ rowValid t r) → rowsCrc shadow ≠ crc →
          checkTable t (some crc) shadow = some ⟨.crcMismatch, [number, 0, 0,
            BitVec.ofNat 8 ((rowsCrc shadow).toNat / 256), BitVec.ofNat 8 ((rowsCrc shadow).toNat % 256)]⟩)
        ∧ (∀ (i : Nat) (r : TRow), shadow[i]? = some r →
          (∀ j < i, ∀ x, shadow[j]? = some x → x.parityOk = true ∧ rowValid t x) →
          ¬(r.parityOk = true ∧ rowValid t r) →
          checkTable t (some crc) shadow = some ⟨.tableInvalid, [number, BitVec.ofNat 8 i,
            if r.parityOk = false then 3
            else if ∀ v ∈ [r.k0.toInt, r.k1.toInt, r.k2.toInt, r.k3.toInt],
              (match t with | .tt => -512 | .hc => -128 | .vc => -128) ≤ v
                ∧ v ≤ (match t with | .tt => 1536 | .hc => 383 | .vc => 383) then 2 else 1, 0, 0]⟩))
    ∧ (∀ (p : Part) (n : Ix) (y : Nat), (p.lanes.get n).job.inFlight = true →
      (lineCtx (commitSwap n p) n y).tt = (lineCtx p n y).tt
        ∧ (lineCtx (commitSwap n p) n y).hc = (lineCtx p n y).hc
        ∧ (lineCtx (commitSwap n p) n y).vc = (lineCtx p n y).vc)
    ∧ (∀ (c : CommitRec) (ts : Tables) (t : Table),
      ((match t with | .tt => c.tt | .hc => c.hc | .vc => c.vc) = none →
          getTable t (swapTables c ts) = getTable t ts)
        ∧ (∀ crc, (match t with | .tt => c.tt | .hc => c.hc | .vc => c.vc) = some crc →
          (getTable t (swapTables c ts)).crc = crc
            ∧ (getTable t (swapTables c ts)).active = (getTable t ts).shadow.map (fun r => { r with parityOk := true })
            ∧ (getTable t (swapTables c ts)).shadow = (getTable t (swapTables c ts)).active))

/-- A RELOCK that is taken, targeted at an output with an empty payload and none pending there, is ACCEPTED: on a FREE
or LOCKED output DONE COMPLETE follows at once and the output is unchanged; in HOLDOVER it is pending on the output
and in its record, and one place is kept for the DONE. It is refused BAD_TARGET, BAD_LENGTH, and BUSY where one is
pending; the order of the tests is the model's (log entry 28). (R113, R170, R174) -/
def Obligations.RelockWaitsInHoldover : Prop :=
  ∀ (env : Env) (cmd : Command) (s : State) (q : Part), takenNow 17 env cmd s → q = partAt 17 env cmd s →
    (outTarget cmd = none → exec (.relock env cmd) s = refusedNow 17 env cmd s .badTarget)
      ∧ (∀ (n : Ix), outTarget cmd = some n →
          if cmd.payload ≠ [] then exec (.relock env cmd) s = refusedNow 17 env cmd s .badLength
          else if (s.part.outs.get n).relockPending = true then
            exec (.relock env cmd) s = refusedNow 17 env cmd s .busy
          else match (s.part.outs.get n).lock with
            | .holdover _ =>
              exec (.relock env cmd) s = .next { s with
                part := { acceptedOutput n .relock 17 cmd q with
                  outs := (acceptedOutput n .relock 17 cmd q).outs.modify n (fun o =>
                    { o with relockPending := true }) } }
            | .free =>
              s.part.mgmt.outOps.get n = none →
                exec (.relock env cmd) s = .next { s with part := acceptedAndDone 17 cmd q }
            | .locked _ =>
              s.part.mgmt.outOps.get n = none →
                exec (.relock env cmd) s = .next { s with part := acceptedAndDone 17 cmd q })

/-- A SET ROUTE that is taken is refused in the order BAD_TARGET, BAD_LENGTH (fewer than 2 words, or a length other
than 2 + 4 x N), BAD_VALUE (N above 32, or an action or match word above 1); otherwise it is answered DONE COMPLETE
and the routing table is the one of the payload, in every lane state. A SEED TIMECODE that is taken is refused in the
order BAD_TARGET, BAD_LENGTH, WRONG_STATE when the lane is FAULTED, BAD_VALUE when the label is invalid for the output
standard or its second-picture flag is set; otherwise it is answered DONE COMPLETE, the counter is the label's count
and the fresh flag is set. Nothing else changes. (R142, R154) -/
def Obligations.RouteAndSeedReplace : Prop :=
  (∀ (env : Env) (cmd : Command) (s : State), takenNow 18 env cmd s →
      (laneTarget cmd = none → exec (.setRoute env cmd) s = refusedNow 18 env cmd s .badTarget)
        ∧ (∀ n, laneTarget cmd = some n → cmd.payload.length < 2 →
          exec (.setRoute env cmd) s = refusedNow 18 env cmd s .badLength)
        ∧ (∀ (n : Ix) (d count : Byte) (rest : List Byte), laneTarget cmd = some n →
          cmd.payload = d :: count :: rest →
          (rest.length ≠ 4 * count.toNat → exec (.setRoute env cmd) s = refusedNow 18 env cmd s .badLength)
            ∧ (rest.length = 4 * count.toNat →
              (32 < count.toNat ∨ 1 < d.toNat
                ∨ (∃ i < count.toNat, 1 < (rest.getD (4 * i + 2) 0).toNat ∨ 1 < (rest.getD (4 * i + 3) 0).toNat)) →
              exec (.setRoute env cmd) s = refusedNow 18 env cmd s .badValue)
            ∧ (rest.length = 4 * count.toNat → count.toNat ≤ 32 → d.toNat ≤ 1 →
              (∀ i < count.toNat, (rest.getD (4 * i + 2) 0).toNat ≤ 1 ∧ (rest.getD (4 * i + 3) 0).toNat ≤ 1) →
              exec (.setRoute env cmd) s =
                doneNow 18 env cmd s []
                  { partAt 18 env cmd s with
                    lanes := (partAt 18 env cmd s).lanes.modify n (fun l =>
                      { l with route :=
                        ⟨if d.toNat = 0 then .carry else .drop,
                         (List.range count.toNat).map (fun i =>
                           ⟨rest.getD (4 * i) 0,
                            if (rest.getD (4 * i + 2) 0).toNat = 0 then some (rest.getD (4 * i + 1) 0) else none,
                            if (rest.getD (4 * i + 3) 0).toNat = 0 then .carry else .drop⟩)⟩ }) })))
    ∧ (∀ (env : Env) (cmd : Command) (s : State), takenNow 19 env cmd s →
      (laneTarget cmd = none → exec (.seedTimecode env cmd) s = refusedNow 19 env cmd s .badTarget)
        ∧ (∀ (n : Ix) (l : Lane), laneTarget cmd = some n → l = (partAt 19 env cmd s).lanes.get n →
          if cmd.payload.length ≠ 5 then exec (.seedTimecode env cmd) s = refusedNow 19 env cmd s .badLength
          else if l.state = .faulted then exec (.seedTimecode env cmd) s = refusedNow 19 env cmd s .wrongState
          else match parseLabel l.profile.output cmd.payload with
            | none => exec (.seedTimecode env cmd) s = refusedNow 19 env cmd s .badValue
            | some lab =>
              if lab.second then exec (.seedTimecode env cmd) s = refusedNow 19 env cmd s .badValue
              else
                exec (.seedTimecode env cmd) s =
                  doneNow 19 env cmd s []
                    { partAt 19 env cmd s with
                      lanes := (partAt 19 env cmd s).lanes.modify n (fun l =>
                        { l with
                          tcCount := labelToCount (stdRow l.profile.output).rate lab
                          fresh := true }) }))

/-- A HALT that is taken with an empty payload is refused BAD_TARGET unless its target is a lane or an output, and
NOTHING_PENDING where that target's record is empty; otherwise the operation ends with DONE HALTED, posted before the
HALT's own DONE COMPLETE: a COMMIT leaves both banks and the lane's state and clears the commit record, a RELOCK is no
longer pending and the output keeps its lock, a START leaves the lane with its job abandoned and counted, no carried
items, timecode counter 0 and no timer, STOPPED unless the part goes into device fatal, and is not counted as a STOP.
(R82, R113, R133, R151, R164, R174, R175) -/
def Obligations.HaltEndsTheOperation : Prop :=
  ∀ (env : Env) (cmd : Command) (s : State) (q : Part), takenNow 20 env cmd s → q = partAt 20 env cmd s →
    (laneTarget cmd = none → outTarget cmd = none → exec (.halt env cmd) s = refusedNow 20 env cmd s .badTarget)
      ∧ ((laneTarget cmd).isSome = true ∨ (outTarget cmd).isSome = true → cmd.payload ≠ [] →
          exec (.halt env cmd) s = refusedNow 20 env cmd s .badLength)
      ∧ (∀ n, laneTarget cmd = some n → cmd.payload = [] → s.part.mgmt.laneOps.get n = none →
          exec (.halt env cmd) s = refusedNow 20 env cmd s .nothingPending)
      ∧ (∀ n, outTarget cmd = some n → cmd.payload = [] → s.part.mgmt.outOps.get n = none →
          exec (.halt env cmd) s = refusedNow 20 env cmd s .nothingPending)
      ∧ (∀ n op, laneTarget cmd = some n → cmd.payload = [] → s.part.mgmt.laneOps.get n = some op →
          op.op = .commit →
          exec (.halt env cmd) s =
            doneNow 20 env cmd s []
              { q with
                lanes := q.lanes.modify n (fun l => { l with commit := none })
                mgmt := { q.mgmt with laneOps := q.mgmt.laneOps.set n none }
                outs := q.outs.modify op.origin (fun o =>
                  { o with
                    replies := o.replies ++ [⟨op.tag, op.code, .done, 2, op.restart, []⟩]
                    reserved := (if op.origin = cmd.link then o.reserved + 1 else o.reserved) - 1
                      - (if op.origin = cmd.link then 1 else 0) }) })
      ∧ (∀ n op, outTarget cmd = some n → cmd.payload = [] → s.part.mgmt.outOps.get n = some op →
          0 < (s.part.outs.get op.origin).reserved →
          ∃ t : State, exec (.halt env cmd) s = .next t
            ∧ (t.part.outs.get n).lock = (s.part.outs.get n).lock ∧ (t.part.outs.get n).relockPending = false
            ∧ t.part.mgmt = { servedMgmt q.mgmt cmd.link false with outOps := q.mgmt.outOps.set n none }
            ∧ (t.part.outs.get op.origin).reserved = (s.part.outs.get op.origin).reserved - 1
            ∧ (op.origin = cmd.link → (t.part.outs.get cmd.link).replies =
                (s.part.outs.get cmd.link).replies
                  ++ [⟨op.tag, op.code, .done, 2, op.restart, []⟩, completeReply 20 cmd q []])
            ∧ (op.origin ≠ cmd.link →
                (t.part.outs.get op.origin).replies =
                    (s.part.outs.get op.origin).replies ++ [⟨op.tag, op.code, .done, 2, op.restart, []⟩]
                  ∧ (t.part.outs.get cmd.link).replies =
                    (s.part.outs.get cmd.link).replies ++ [completeReply 20 cmd q []])
            ∧ t.part.lanes = q.lanes ∧ t.part.links = s.part.links ∧ t.part.fault = s.part.fault)
      ∧ (∀ (n : Ix) (op : PendingOp) (l : Lane), laneTarget cmd = some n → cmd.payload = [] →
          s.part.mgmt.laneOps.get n = some op → op.op = .start → l = q.lanes.get n →
          ∃ t : State, exec (.halt env cmd) s = .next t
            ∧ t.part.mgmt.laneOps.get n = none ∧ (t.part.lanes.get n).acquireAt = none
            ∧ (t.part.lanes.get n).job.inFlight = false ∧ (t.part.lanes.get n).carry = []
            ∧ (t.part.lanes.get n).tcCount = 0 ∧ (t.part.lanes.get n).fresh = true
            ∧ (t.part.lanes.get n).holdCount = 0 ∧ (t.part.lanes.get n).laneCtr.stops = l.laneCtr.stops
            ∧ (t.part.lanes.get n).jobCtr =
              (if l.job.inFlight then { l.jobCtr with jobsAbandoned := bump l.jobCtr.jobsAbandoned } else l.jobCtr)
            ∧ (t.part.lanes.get n).carryCtr.itemsFlushed = bumpBy l.carry.length l.carryCtr.itemsFlushed
            ∧ (t.part.fault.deviceFatal = s.part.fault.deviceFatal →
              (t.part.lanes.get n).state = .stopped
                ∧ (op.origin = cmd.link → (t.part.outs.get cmd.link).replies =
                  (q.outs.get cmd.link).replies
                    ++ [⟨op.tag, op.code, .done, 2, op.restart, []⟩, completeReply 20 cmd q []])
                ∧ (op.origin ≠ cmd.link →
                  (t.part.outs.get op.origin).replies =
                      (q.outs.get op.origin).replies ++ [⟨op.tag, op.code, .done, 2, op.restart, []⟩]
                    ∧ (t.part.outs.get cmd.link).replies =
                      (q.outs.get cmd.link).replies ++ [completeReply 20 cmd q []])))

/-- A QUERY LOG that is taken is refused BAD_TARGET unless its target is a log and BAD_LENGTH with a payload;
otherwise it is answered DONE COMPLETE with the 19 words of the record as it stands, all 0 for an empty log, and sets
the read flag of a record. A CLEAR LOG, refused alike, is answered DONE COMPLETE and changes nothing on an empty log,
empties a record with its read flag set, and is refused STALE on a record with the flag clear. Nothing else changes.
That the target is tested first is the model's order (log entry 28). (R182, R183) -/
def Obligations.LogCommandsReadAndClear : Prop :=
  (∀ (env : Env) (cmd : Command) (s : State), takenNow 21 env cmd s →
      (logTarget cmd = none → exec (.queryLog env cmd) s = refusedNow 21 env cmd s .badTarget)
        ∧ (∀ l, logTarget cmd = some l → cmd.payload ≠ [] →
          exec (.queryLog env cmd) s = refusedNow 21 env cmd s .badLength)
        ∧ (∀ l, logTarget cmd = some l → cmd.payload = [] →
          (getLog l s.part = none →
              exec (.queryLog env cmd) s = doneNow 21 env cmd s (List.replicate 19 0) (partAt 21 env cmd s))
            ∧ (∀ r, getLog l s.part = some r →
              exec (.queryLog env cmd) s =
                doneNow 21 env cmd s
                  ([1, BitVec.ofNat 8 (errNumber r.code), BitVec.ofNat 8 (severityWord r.severity)]
                    ++ beWords 8 r.time ++ detailWords r.detail
                    ++ [if r.overflow then 1 else 0, BitVec.ofNat 8 r.later, if r.read then 1 else 0])
                  (modLog l (fun _ => some { r with read := true }) (partAt 21 env cmd s)))))
    ∧ (∀ (env : Env) (cmd : Command) (s : State), takenNow 22 env cmd s →
      (logTarget cmd = none → exec (.clearLog env cmd) s = refusedNow 22 env cmd s .badTarget)
        ∧ (∀ l, logTarget cmd = some l → cmd.payload ≠ [] →
          exec (.clearLog env cmd) s = refusedNow 22 env cmd s .badLength)
        ∧ (∀ l, logTarget cmd = some l → cmd.payload = [] →
          (getLog l s.part = none → exec (.clearLog env cmd) s = doneNow 22 env cmd s [] (partAt 22 env cmd s))
            ∧ (∀ r, getLog l s.part = some r →
              if r.read then
                exec (.clearLog env cmd) s = doneNow 22 env cmd s [] (modLog l (fun _ => none) (partAt 22 env cmd s))
              else exec (.clearLog env cmd) s = refusedNow 22 env cmd s .stale)))
    ∧ (∀ (l m : LogId) (f : Option LogRec → Option LogRec) (p : Part),
      getLog m (modLog l f p) = if m = l then f (getLog l p) else getLog m p)

/-- An ACK CONDITIONS that is taken, targeted at the device with 1 to 30 pairs that name latches, is answered DONE
COMPLETE with the list of the latches set after it: a latch is cleared exactly when it was set, is named and its cause
is not present, the alarm line follows, and nothing else changes. Other targets are refused BAD_TARGET, an odd length
or one outside 2..60 BAD_LENGTH, a pair that names no latch BAD_VALUE: a pair names one exactly where its kind is 1 or
2 and its owner a feed, 3 to 6 and a lane, 7 and an output, or 8 or 9 and the device. (R184, R185, R187) -/
def Obligations.AcknowledgementClears : Prop :=
  (∀ (env : Env) (cmd : Command) (s : State), takenNow 24 env cmd s →
    (targetOf cmd.target ≠ .device → exec (.ackConditions env cmd) s = refusedNow 24 env cmd s .badTarget)
      ∧ (targetOf cmd.target = .device →
          (cmd.payload.length % 2 = 1 ∨ cmd.payload.length < 2 ∨ 60 < cmd.payload.length) →
          exec (.ackConditions env cmd) s = refusedNow 24 env cmd s .badLength)
      ∧ (targetOf cmd.target = .device → cmd.payload.length % 2 = 0 → 2 ≤ cmd.payload.length →
          cmd.payload.length ≤ 60 →
          (∃ (front back : List Byte) (owner kind : Byte), cmd.payload = front ++ owner :: kind :: back
            ∧ front.length % 2 = 0 ∧ ¬namesLatch owner kind) →
          exec (.ackConditions env cmd) s = refusedNow 24 env cmd s .badValue)
      ∧ (∀ cs : List Cond, targetOf cmd.target = .device → cs ≠ [] → cs.length ≤ 30 →
          cmd.payload = cs.flatMap (fun c => [condOwner c, BitVec.ofNat 8 (condKind c)]) →
          ∃ kept : List Cond,
            kept = s.part.fault.latches.filter (fun c => !(cs.contains c) || causePresent s.part c)
              ∧ exec (.ackConditions env cmd) s =
                doneNow 24 env cmd s
                  (BitVec.ofNat 8 kept.length :: kept.flatMap (fun c => [condOwner c, BitVec.ofNat 8 (condKind c)]))
                  { partAt 24 env cmd s with
                    fault := { s.part.fault with
                      latches := kept
                      alarm := kept.any (fun c => s.part.fault.mask.getLsbD (condKind c - 1)) } }))
    ∧ (∀ owner kind : Byte, namesLatch owner kind ↔
      ∃ c : Cond, condOwner c = owner ∧ BitVec.ofNat 8 (condKind c) = kind)

/-- A BAD_CODE command, whose code is outside 1..25, that is taken is answered REFUSED with BAD_CODE whatever its
target and payload; DL takes a NOTE BAD_CODE, BAD_CODES rises, and nothing else changes but what every refused take
changes. (R169, R171, R178) -/
def Obligations.UnknownCodesAreRefused : Prop :=
  ∀ (env : Env) (cmd : Command) (code : Byte) (s : State) (q : Part), takenNow code env cmd s →
    q = partAt code env cmd s → (code.toNat = 0 ∨ 25 < code.toNat) →
    exec (.badCode env cmd code) s = .next { s with
      part := answered cmd.link (refusalReply code cmd q .badCode []) true
        { q with
          mgmt := { q.mgmt with ctr := { q.mgmt.ctr with badCodes := bump q.mgmt.ctr.badCodes } }
          fault := { s.part.fault with
            deviceLog := logReport .badCode q.timebase .none s.part.fault.deviceLog } } }
end

