-- ==== Sys2Proof/Laws/Four.lean ====
section
/-! SUPPORT. Reading the four-fold record after a write of one of its items. -/

namespace Sys2Proof

theorem Ix.cases {P : Ix → Prop} (h0 : P 0) (h1 : P 1) (h2 : P 2) (h3 : P 3) (n : Ix) : P n := by
  match n with
  | 0 => exact h0
  | 1 => exact h1
  | 2 => exact h2
  | 3 => exact h3

@[simp] theorem Four.get_set_same {α : Type} (v : Four α) (n : Ix) (a : α) : (v.set n a).get n = a := by
  revert n; exact Ix.cases rfl rfl rfl rfl

theorem Four.get_set_other {α : Type} (v : Four α) {n m : Ix} (a : α) (h : m ≠ n) : (v.set n a).get m = v.get m := by
  have key : ∀ n m : Ix, m ≠ n → (v.set n a).get m = v.get m :=
    Ix.cases
      (Ix.cases (fun h => absurd rfl h) (fun _ => rfl) (fun _ => rfl) (fun _ => rfl))
      (Ix.cases (fun _ => rfl) (fun h => absurd rfl h) (fun _ => rfl) (fun _ => rfl))
      (Ix.cases (fun _ => rfl) (fun _ => rfl) (fun h => absurd rfl h) (fun _ => rfl))
      (Ix.cases (fun _ => rfl) (fun _ => rfl) (fun _ => rfl) (fun h => absurd rfl h))
  exact key n m h

theorem Four.get_set {α : Type} (v : Four α) (n m : Ix) (a : α) :
    (v.set n a).get m = if m = n then a else v.get m := by
  by_cases h : m = n
  · subst h; simp
  · simp [h, Four.get_set_other v a h]

@[simp] theorem Four.get_modify_same {α : Type} (v : Four α) (n : Ix) (f : α → α) :
    (v.modify n f).get n = f (v.get n) := by simp [Four.modify]

theorem Four.get_modify_other {α : Type} (v : Four α) {n m : Ix} (f : α → α) (h : m ≠ n) :
    (v.modify n f).get m = v.get m := by simp [Four.modify, Four.get_set_other v _ h]

theorem Four.get_modify {α : Type} (v : Four α) (n m : Ix) (f : α → α) :
    (v.modify n f).get m = if m = n then f (v.get m) else v.get m := by
  by_cases h : m = n
  · subst h; simp
  · simp [h, Four.get_modify_other v f h]

@[simp] theorem Four.get_all {α : Type} (a : α) (n : Ix) : (Four.all a).get n = a := by
  revert n; exact Ix.cases rfl rfl rfl rfl

@[simp] theorem Four.get_make {α : Type} (f : Ix → α) (n : Ix) : (Four.make f).get n = f n := by
  revert n; exact Ix.cases rfl rfl rfl rfl

@[ext] theorem Four.get_ext {α : Type} {v w : Four α} (h : ∀ n, v.get n = w.get n) : v = w := by
  cases v; cases w
  have h0 := h 0
  have h1 := h 1
  have h2 := h 2
  have h3 := h 3
  simp [Four.get] at h0 h1 h2 h3
  simp [h0, h1, h2, h3]

@[simp] theorem Four.set_get {α : Type} (v : Four α) (n : Ix) : v.set n (v.get n) = v := by
  ext m; by_cases h : m = n
  · subst h; simp
  · simp [Four.get_set_other v _ h]

@[simp] theorem Four.set_set {α : Type} (v : Four α) (n : Ix) (a b : α) : (v.set n a).set n b = v.set n b := by
  ext m; by_cases h : m = n
  · subst h; simp
  · simp [Four.get_set_other _ _ h]

@[simp] theorem Four.modify_modify {α : Type} (v : Four α) (n : Ix) (f g : α → α) :
    (v.modify n f).modify n g = v.modify n (fun a => g (f a)) := by simp [Four.modify]

@[simp] theorem Four.modify_id {α : Type} (v : Four α) (n : Ix) : v.modify n (fun a => a) = v := by simp [Four.modify]

end Sys2Proof
end

