-- ==== Sys2Proof/Laws/State.lean ====
section
/-! SUPPORT. One lemma per block of the part for each operation that changes one block: the block it changes, and every
other block as it was. All hold by unfolding the operation once. -/

namespace Sys2Proof.Machine

variable (p : Part)

/-! ### modLink -/

@[simp] theorem modLink_timebase (n : Ix) (f : LinkRx → LinkRx) : (modLink n f p).timebase = p.timebase := rfl
@[simp] theorem modLink_straps (n : Ix) (f : LinkRx → LinkRx) : (modLink n f p).straps = p.straps := rfl
@[simp] theorem modLink_links (n : Ix) (f : LinkRx → LinkRx) : (modLink n f p).links = p.links.modify n f := rfl
@[simp] theorem modLink_feeds (n : Ix) (f : LinkRx → LinkRx) : (modLink n f p).feeds = p.feeds := rfl
@[simp] theorem modLink_store (n : Ix) (f : LinkRx → LinkRx) : (modLink n f p).store = p.store := rfl
@[simp] theorem modLink_lanes (n : Ix) (f : LinkRx → LinkRx) : (modLink n f p).lanes = p.lanes := rfl
@[simp] theorem modLink_outs (n : Ix) (f : LinkRx → LinkRx) : (modLink n f p).outs = p.outs := rfl
@[simp] theorem modLink_refA (n : Ix) (f : LinkRx → LinkRx) : (modLink n f p).refA = p.refA := rfl
@[simp] theorem modLink_refB (n : Ix) (f : LinkRx → LinkRx) : (modLink n f p).refB = p.refB := rfl
@[simp] theorem modLink_mgmt (n : Ix) (f : LinkRx → LinkRx) : (modLink n f p).mgmt = p.mgmt := rfl
@[simp] theorem modLink_fault (n : Ix) (f : LinkRx → LinkRx) : (modLink n f p).fault = p.fault := rfl
@[simp] theorem modLink_mute (n : Ix) (f : LinkRx → LinkRx) : (modLink n f p).mute = p.mute := rfl

/-! ### modFeed -/

@[simp] theorem modFeed_timebase (n : Ix) (f : Feed → Feed) : (modFeed n f p).timebase = p.timebase := rfl
@[simp] theorem modFeed_straps (n : Ix) (f : Feed → Feed) : (modFeed n f p).straps = p.straps := rfl
@[simp] theorem modFeed_links (n : Ix) (f : Feed → Feed) : (modFeed n f p).links = p.links := rfl
@[simp] theorem modFeed_feeds (n : Ix) (f : Feed → Feed) : (modFeed n f p).feeds = p.feeds.modify n f := rfl
@[simp] theorem modFeed_store (n : Ix) (f : Feed → Feed) : (modFeed n f p).store = p.store := rfl
@[simp] theorem modFeed_lanes (n : Ix) (f : Feed → Feed) : (modFeed n f p).lanes = p.lanes := rfl
@[simp] theorem modFeed_outs (n : Ix) (f : Feed → Feed) : (modFeed n f p).outs = p.outs := rfl
@[simp] theorem modFeed_refA (n : Ix) (f : Feed → Feed) : (modFeed n f p).refA = p.refA := rfl
@[simp] theorem modFeed_refB (n : Ix) (f : Feed → Feed) : (modFeed n f p).refB = p.refB := rfl
@[simp] theorem modFeed_mgmt (n : Ix) (f : Feed → Feed) : (modFeed n f p).mgmt = p.mgmt := rfl
@[simp] theorem modFeed_fault (n : Ix) (f : Feed → Feed) : (modFeed n f p).fault = p.fault := rfl
@[simp] theorem modFeed_mute (n : Ix) (f : Feed → Feed) : (modFeed n f p).mute = p.mute := rfl

/-! ### modLane -/

@[simp] theorem modLane_timebase (n : Ix) (f : Lane → Lane) : (modLane n f p).timebase = p.timebase := rfl
@[simp] theorem modLane_straps (n : Ix) (f : Lane → Lane) : (modLane n f p).straps = p.straps := rfl
@[simp] theorem modLane_links (n : Ix) (f : Lane → Lane) : (modLane n f p).links = p.links := rfl
@[simp] theorem modLane_feeds (n : Ix) (f : Lane → Lane) : (modLane n f p).feeds = p.feeds := rfl
@[simp] theorem modLane_store (n : Ix) (f : Lane → Lane) : (modLane n f p).store = p.store := rfl
@[simp] theorem modLane_lanes (n : Ix) (f : Lane → Lane) : (modLane n f p).lanes = p.lanes.modify n f := rfl
@[simp] theorem modLane_outs (n : Ix) (f : Lane → Lane) : (modLane n f p).outs = p.outs := rfl
@[simp] theorem modLane_refA (n : Ix) (f : Lane → Lane) : (modLane n f p).refA = p.refA := rfl
@[simp] theorem modLane_refB (n : Ix) (f : Lane → Lane) : (modLane n f p).refB = p.refB := rfl
@[simp] theorem modLane_mgmt (n : Ix) (f : Lane → Lane) : (modLane n f p).mgmt = p.mgmt := rfl
@[simp] theorem modLane_fault (n : Ix) (f : Lane → Lane) : (modLane n f p).fault = p.fault := rfl
@[simp] theorem modLane_mute (n : Ix) (f : Lane → Lane) : (modLane n f p).mute = p.mute := rfl

/-! ### modOut -/

@[simp] theorem modOut_timebase (n : Ix) (f : OutUnit → OutUnit) : (modOut n f p).timebase = p.timebase := rfl
@[simp] theorem modOut_straps (n : Ix) (f : OutUnit → OutUnit) : (modOut n f p).straps = p.straps := rfl
@[simp] theorem modOut_links (n : Ix) (f : OutUnit → OutUnit) : (modOut n f p).links = p.links := rfl
@[simp] theorem modOut_feeds (n : Ix) (f : OutUnit → OutUnit) : (modOut n f p).feeds = p.feeds := rfl
@[simp] theorem modOut_store (n : Ix) (f : OutUnit → OutUnit) : (modOut n f p).store = p.store := rfl
@[simp] theorem modOut_lanes (n : Ix) (f : OutUnit → OutUnit) : (modOut n f p).lanes = p.lanes := rfl
@[simp] theorem modOut_outs (n : Ix) (f : OutUnit → OutUnit) : (modOut n f p).outs = p.outs.modify n f := rfl
@[simp] theorem modOut_refA (n : Ix) (f : OutUnit → OutUnit) : (modOut n f p).refA = p.refA := rfl
@[simp] theorem modOut_refB (n : Ix) (f : OutUnit → OutUnit) : (modOut n f p).refB = p.refB := rfl
@[simp] theorem modOut_mgmt (n : Ix) (f : OutUnit → OutUnit) : (modOut n f p).mgmt = p.mgmt := rfl
@[simp] theorem modOut_fault (n : Ix) (f : OutUnit → OutUnit) : (modOut n f p).fault = p.fault := rfl
@[simp] theorem modOut_mute (n : Ix) (f : OutUnit → OutUnit) : (modOut n f p).mute = p.mute := rfl

/-! ### modStore -/

@[simp] theorem modStore_timebase (f : Store → Store) : (modStore f p).timebase = p.timebase := rfl
@[simp] theorem modStore_straps (f : Store → Store) : (modStore f p).straps = p.straps := rfl
@[simp] theorem modStore_links (f : Store → Store) : (modStore f p).links = p.links := rfl
@[simp] theorem modStore_feeds (f : Store → Store) : (modStore f p).feeds = p.feeds := rfl
@[simp] theorem modStore_store (f : Store → Store) : (modStore f p).store = f p.store := rfl
@[simp] theorem modStore_lanes (f : Store → Store) : (modStore f p).lanes = p.lanes := rfl
@[simp] theorem modStore_outs (f : Store → Store) : (modStore f p).outs = p.outs := rfl
@[simp] theorem modStore_refA (f : Store → Store) : (modStore f p).refA = p.refA := rfl
@[simp] theorem modStore_refB (f : Store → Store) : (modStore f p).refB = p.refB := rfl
@[simp] theorem modStore_mgmt (f : Store → Store) : (modStore f p).mgmt = p.mgmt := rfl
@[simp] theorem modStore_fault (f : Store → Store) : (modStore f p).fault = p.fault := rfl
@[simp] theorem modStore_mute (f : Store → Store) : (modStore f p).mute = p.mute := rfl

/-! ### modMgmt -/

@[simp] theorem modMgmt_timebase (f : Mgmt → Mgmt) : (modMgmt f p).timebase = p.timebase := rfl
@[simp] theorem modMgmt_straps (f : Mgmt → Mgmt) : (modMgmt f p).straps = p.straps := rfl
@[simp] theorem modMgmt_links (f : Mgmt → Mgmt) : (modMgmt f p).links = p.links := rfl
@[simp] theorem modMgmt_feeds (f : Mgmt → Mgmt) : (modMgmt f p).feeds = p.feeds := rfl
@[simp] theorem modMgmt_store (f : Mgmt → Mgmt) : (modMgmt f p).store = p.store := rfl
@[simp] theorem modMgmt_lanes (f : Mgmt → Mgmt) : (modMgmt f p).lanes = p.lanes := rfl
@[simp] theorem modMgmt_outs (f : Mgmt → Mgmt) : (modMgmt f p).outs = p.outs := rfl
@[simp] theorem modMgmt_refA (f : Mgmt → Mgmt) : (modMgmt f p).refA = p.refA := rfl
@[simp] theorem modMgmt_refB (f : Mgmt → Mgmt) : (modMgmt f p).refB = p.refB := rfl
@[simp] theorem modMgmt_mgmt (f : Mgmt → Mgmt) : (modMgmt f p).mgmt = f p.mgmt := rfl
@[simp] theorem modMgmt_fault (f : Mgmt → Mgmt) : (modMgmt f p).fault = p.fault := rfl
@[simp] theorem modMgmt_mute (f : Mgmt → Mgmt) : (modMgmt f p).mute = p.mute := rfl

/-! ### modFault -/

@[simp] theorem modFault_timebase (f : FaultUnit → FaultUnit) : (modFault f p).timebase = p.timebase := rfl
@[simp] theorem modFault_straps (f : FaultUnit → FaultUnit) : (modFault f p).straps = p.straps := rfl
@[simp] theorem modFault_links (f : FaultUnit → FaultUnit) : (modFault f p).links = p.links := rfl
@[simp] theorem modFault_feeds (f : FaultUnit → FaultUnit) : (modFault f p).feeds = p.feeds := rfl
@[simp] theorem modFault_store (f : FaultUnit → FaultUnit) : (modFault f p).store = p.store := rfl
@[simp] theorem modFault_lanes (f : FaultUnit → FaultUnit) : (modFault f p).lanes = p.lanes := rfl
@[simp] theorem modFault_outs (f : FaultUnit → FaultUnit) : (modFault f p).outs = p.outs := rfl
@[simp] theorem modFault_refA (f : FaultUnit → FaultUnit) : (modFault f p).refA = p.refA := rfl
@[simp] theorem modFault_refB (f : FaultUnit → FaultUnit) : (modFault f p).refB = p.refB := rfl
@[simp] theorem modFault_mgmt (f : FaultUnit → FaultUnit) : (modFault f p).mgmt = p.mgmt := rfl
@[simp] theorem modFault_fault (f : FaultUnit → FaultUnit) : (modFault f p).fault = f p.fault := rfl
@[simp] theorem modFault_mute (f : FaultUnit → FaultUnit) : (modFault f p).mute = p.mute := rfl

/-! ### advance -/

@[simp] theorem advance_timebase (t : Nat) : (advance t p).timebase = max p.timebase t := rfl
@[simp] theorem advance_straps (t : Nat) : (advance t p).straps = p.straps := rfl
@[simp] theorem advance_links (t : Nat) : (advance t p).links = p.links := rfl
@[simp] theorem advance_feeds (t : Nat) : (advance t p).feeds = p.feeds := rfl
@[simp] theorem advance_store (t : Nat) : (advance t p).store = p.store := rfl
@[simp] theorem advance_lanes (t : Nat) : (advance t p).lanes = p.lanes := rfl
@[simp] theorem advance_outs (t : Nat) : (advance t p).outs = p.outs := rfl
@[simp] theorem advance_refA (t : Nat) : (advance t p).refA = p.refA := rfl
@[simp] theorem advance_refB (t : Nat) : (advance t p).refB = p.refB := rfl
@[simp] theorem advance_mgmt (t : Nat) : (advance t p).mgmt = p.mgmt := rfl
@[simp] theorem advance_fault (t : Nat) : (advance t p).fault = p.fault := rfl
@[simp] theorem advance_mute (t : Nat) : (advance t p).mute = p.mute := rfl

/-! ### modSlot -/

@[simp] theorem modSlot_slots (k : SlotIx) (f : SlotRec → SlotRec) :
    (modSlot k f p).store.slots = p.store.slots.set k.val { f p.store.slots[k.val] with intact := true } := rfl
@[simp] theorem modSlot_freeList (k : SlotIx) (f : SlotRec → SlotRec) : (modSlot k f p).store.freeList = p.store.freeList := rfl
@[simp] theorem modSlot_quarantine (k : SlotIx) (f : SlotRec → SlotRec) : (modSlot k f p).store.quarantine = p.store.quarantine := rfl
@[simp] theorem modSlot_initRunning (k : SlotIx) (f : SlotRec → SlotRec) : (modSlot k f p).store.initRunning = p.store.initRunning := rfl
@[simp] theorem modSlot_initNext (k : SlotIx) (f : SlotRec → SlotRec) : (modSlot k f p).store.initNext = p.store.initNext := rfl
@[simp] theorem modSlot_initDue (k : SlotIx) (f : SlotRec → SlotRec) : (modSlot k f p).store.initDue = p.store.initDue := rfl
@[simp] theorem modSlot_mem (k : SlotIx) (f : SlotRec → SlotRec) : (modSlot k f p).store.mem = p.store.mem := rfl
@[simp] theorem modSlot_ecc (k : SlotIx) (f : SlotRec → SlotRec) : (modSlot k f p).store.ecc = p.store.ecc := rfl
@[simp] theorem modSlot_ctr (k : SlotIx) (f : SlotRec → SlotRec) : (modSlot k f p).store.ctr = p.store.ctr := rfl
@[simp] theorem modSlot_timebase (k : SlotIx) (f : SlotRec → SlotRec) : (modSlot k f p).timebase = p.timebase := rfl
@[simp] theorem modSlot_straps (k : SlotIx) (f : SlotRec → SlotRec) : (modSlot k f p).straps = p.straps := rfl
@[simp] theorem modSlot_links (k : SlotIx) (f : SlotRec → SlotRec) : (modSlot k f p).links = p.links := rfl
@[simp] theorem modSlot_feeds (k : SlotIx) (f : SlotRec → SlotRec) : (modSlot k f p).feeds = p.feeds := rfl
@[simp] theorem modSlot_lanes (k : SlotIx) (f : SlotRec → SlotRec) : (modSlot k f p).lanes = p.lanes := rfl
@[simp] theorem modSlot_outs (k : SlotIx) (f : SlotRec → SlotRec) : (modSlot k f p).outs = p.outs := rfl
@[simp] theorem modSlot_refA (k : SlotIx) (f : SlotRec → SlotRec) : (modSlot k f p).refA = p.refA := rfl
@[simp] theorem modSlot_refB (k : SlotIx) (f : SlotRec → SlotRec) : (modSlot k f p).refB = p.refB := rfl
@[simp] theorem modSlot_mgmt (k : SlotIx) (f : SlotRec → SlotRec) : (modSlot k f p).mgmt = p.mgmt := rfl
@[simp] theorem modSlot_fault (k : SlotIx) (f : SlotRec → SlotRec) : (modSlot k f p).fault = p.fault := rfl
@[simp] theorem modSlot_mute (k : SlotIx) (f : SlotRec → SlotRec) : (modSlot k f p).mute = p.mute := rfl

/-! ### setRef -/

@[simp] theorem setRef_timebase (r : RefId) (v : RefInput) : (setRef r v p).timebase = p.timebase := by cases r <;> rfl
@[simp] theorem setRef_straps (r : RefId) (v : RefInput) : (setRef r v p).straps = p.straps := by cases r <;> rfl
@[simp] theorem setRef_links (r : RefId) (v : RefInput) : (setRef r v p).links = p.links := by cases r <;> rfl
@[simp] theorem setRef_feeds (r : RefId) (v : RefInput) : (setRef r v p).feeds = p.feeds := by cases r <;> rfl
@[simp] theorem setRef_store (r : RefId) (v : RefInput) : (setRef r v p).store = p.store := by cases r <;> rfl
@[simp] theorem setRef_lanes (r : RefId) (v : RefInput) : (setRef r v p).lanes = p.lanes := by cases r <;> rfl
@[simp] theorem setRef_outs (r : RefId) (v : RefInput) : (setRef r v p).outs = p.outs := by cases r <;> rfl
@[simp] theorem setRef_mgmt (r : RefId) (v : RefInput) : (setRef r v p).mgmt = p.mgmt := by cases r <;> rfl
@[simp] theorem setRef_fault (r : RefId) (v : RefInput) : (setRef r v p).fault = p.fault := by cases r <;> rfl
@[simp] theorem setRef_mute (r : RefId) (v : RefInput) : (setRef r v p).mute = p.mute := by cases r <;> rfl

@[simp] theorem getRef_setRef_same (r : RefId) (v : RefInput) : getRef (setRef r v p) r = v := by cases r <;> rfl

/-! ### One event of the part -/

theorem event_next (env : Env) (f : Part → Part) (s : State) :
    event env f s = .next { s with part := settle (f (begin env.time env.upsets s.part)) } := rfl

theorem settle_quiet {p : Part} (h : p.fault.fatalDue = false) : settle p = p := by simp [settle, h]

end Sys2Proof.Machine
end

