-- ==== Sys2Proof/Laws/Takes.lean ====
section
/-! SUPPORT. What the take of a command does, once for all commands: a taken command runs its take on the part as it was
found; an immediate command whose rule accepts answers DONE COMPLETE, whose rule refuses REFUSED; a time-taking one
ACCEPTED or REFUSED (R169 to R171, R174). -/

namespace Sys2Proof.Machine

variable {code : Byte} {env : Env} {cmd : Command} {s : State}

/-! ### The takes that are due -/

theorem dueTake_none {p : Part} (h : arbiter p = none) : dueTake p = none := by simp [dueTake, h]

/-- Where no queue is eligible nothing is taken. -/
theorem takesDue_idle {p : Part} (h : arbiter p = none) (k : Nat) : takesDue k p = p := by
  cases k <;> simp [takesDue, dueTake_none h]

theorem afterTakes_idle (h : arbiter s.part = none) : afterTakes s = s := by
  cases s; simp_all [afterTakes, takesDue_idle]

/-- In a quiet state an event of the outside is that event alone. -/
theorem happens_quiet (env : Env) (f : Part → Part) (h : quiet s) :
    happens env f s = .next { s with part := settle (f (begin env.time env.upsets s.part)) } := by
  simp [happens, event_next, afterTakes_idle h.2]

/-- In a quiet state an event that the part times itself is that event at its due instant. -/
theorem fallsDue_quiet (due : Part → Option Nat) (upsets : List Upset) (f : Part → Part) (h : quiet s) :
    fallsDue due upsets f s =
      match due s.part with
      | some t => .next { s with part := settle (f (begin t upsets s.part)) }
      | none => .next { s with part := settle (begin s.part.timebase upsets s.part) } := by
  unfold fallsDue; rw [afterTakes_idle h.2]; cases due s.part <;> rfl

/-! ### The arrival of a command and its take -/

theorem word_toNat_address (a : Fin 16) : (word a.val).toNat = a.val := by
  simp [word, BitVec.toNat_ofNat]; omega

/-- On a link that extracts packets with listen on, the block of a command arrives at its queue (R14, R15, R168). -/
theorem present_listening (p : Part) (hx : extracts (p.links.get cmd.link).state = true)
    (hl : (p.links.get cmd.link).settings.listen = true) :
    present code cmd p = arrive cmd.link (commandWords p code cmd) p := by
  simp [present, dispatch, isCommand, commandPacket, commandWords, hx, hl, word_toNat_address]

/-- On another link it is not extracted, and nothing is lost or counted (R14, R179). -/
theorem present_deaf (p : Part) (hx : extracts (p.links.get cmd.link).state = false) : present code cmd p = p := by
  simp [present, hx]

theorem found_links_eq (env : Env) (s : State) : (foundBy env s).links = s.part.links := by
  have h : ∀ (us : List Upset) (p : Part), (forAll us applyUpset p).links = p.links := by
    intro us
    induction us with
    | nil => intro p; rfl
    | cons u us ih =>
      intro p
      have e : (applyUpset u p).links = p.links := by cases u <;> rfl
      simp only [forAll, List.foldl_cons] at ih ⊢
      rw [ih, e]
  simp [foundBy, begin, h]

/-- A command that is taken now has the effect of its take, and the step ends as every step does (R58, R169). -/
theorem command_taken (take : Part → Part) (h : takenNow code env cmd s) :
    command code env cmd take s = .next { s with part := settle (take (partAt code env cmd s)) } := by
  obtain ⟨hq, hx, hl, ht⟩ := h
  have hp : present code cmd (begin env.time env.upsets s.part) = partAt code env cmd s :=
    present_listening _ (by simpa [foundBy] using (found_links_eq env s) ▸ hx)
      (by simpa [foundBy] using (found_links_eq env s) ▸ hl)
  simp [command, happens_quiet _ _ hq, hp, ht]

/-- An immediate command that is taken now. -/
theorem immediate_taken (rule : Command → Part → Verdict) (h : takenNow code env cmd s) :
    command code env cmd (takeImmediate code cmd (rule cmd)) s =
      .next { s with part := settle (takeImmediate code cmd (rule cmd) (partAt code env cmd s)) } :=
  command_taken _ h

/-- A time-taking command that is taken now. -/
theorem timed_taken (kind : PendingKind) (test : Command → Part → Except Denied OpTarget)
    (start : Command → OpTarget → Part → Part) (h : takenNow code env cmd s) :
    command code env cmd (takeTimed code kind cmd (test cmd) (start cmd)) s =
      .next { s with part := settle (takeTimed code kind cmd (test cmd) (start cmd) (partAt code env cmd s)) } :=
  command_taken _ h

/-! ### Physical failures and presenting leave the fault unit as it stood -/

@[simp] theorem applyUpset_fault (u : Upset) (p : Part) : (applyUpset u p).fault = p.fault := by cases u <;> rfl

theorem forAll_keeps {α β : Type} (g : Part → β) (f : α → Part → Part) (h : ∀ x p, g (f x p) = g p) :
    ∀ (xs : List α) (p : Part), g (forAll xs f p) = g p := by
  intro xs
  induction xs with
  | nil => intro p; rfl
  | cons x xs ih => intro p; simp only [forAll, List.foldl_cons] at ih ⊢; rw [ih, h]

@[simp] theorem begin_fault (t : Nat) (us : List Upset) (p : Part) : (begin t us p).fault = p.fault := by
  simp [begin, forAll_keeps (fun p => p.fault) applyUpset applyUpset_fault]

@[simp] theorem begin_timebase (t : Nat) (us : List Upset) (p : Part) :
    (begin t us p).timebase = max p.timebase t := by
  have h : ∀ (u : Upset) (p : Part), (applyUpset u p).timebase = p.timebase := by intro u p; cases u <;> rfl
  simp [begin, forAll_keeps (fun p => p.timebase) applyUpset h]

@[simp] theorem countLost_fault (n : Ix) (p : Part) : (countLost n p).fault = p.fault := rfl

@[simp] theorem bumpMgmt_fault (f : MgmtCounters → MgmtCounters) (p : Part) : (bumpMgmt f p).fault = p.fault := rfl

@[simp] theorem arrive_fault (n : Ix) (ws : List Byte) (p : Part) : (arrive n ws p).fault = p.fault := by
  unfold arrive; split
  · simp
  · split <;> simp

theorem partAt_fault : (partAt code env cmd s).fault = s.part.fault := by simp [partAt, foundBy]

/-! ### What an answer leaves -/

@[simp] theorem reservePlaces_fault (n : Ix) (k : Nat) (p : Part) : (reservePlaces n k p).fault = p.fault := rfl
@[simp] theorem openTake_fault (code : Byte) (n : Ix) (p : Part) : (openTake code n p).fault = p.fault := rfl

/-- The outputs that a take with one place reserved leaves are as they stood but for that place (R169). -/
theorem openTake_eq (code : Byte) (n : Ix) (p : Part) :
    openTake code n p =
      { p with
        outs := p.outs.modify n (fun o => { o with reserved := o.reserved + need code })
        mgmt := { p.mgmt with
          queues := p.mgmt.queues.modify n (fun bs => bs.drop 1), lastServed := n, restart := false } } := rfl

/-- One place reserved and a reply posted into it: the reply is all that is left (R170). -/
theorem reserve_post (outs : Four OutUnit) (n : Ix) (r : Reply) :
    (outs.modify n (fun o => { o with reserved := o.reserved + 1 })).modify n
        (fun o => { o with replies := o.replies ++ [r], reserved := o.reserved - 1 })
      = withReplies outs n [r] := by
  simp [withReplies, Four.modify_modify]

/-- The answer of an immediate command whose rule leaves outputs and management alone: `q` is what its own effect makes
of the part (R170, R171). -/
theorem answered_done {q q' : Part} {n : Ix} {r : Reply} (hneed : need code = 1)
    (ho : q'.outs = (openTake code n q).outs) (hm : q'.mgmt = (openTake code n q).mgmt) :
    countTake false (postReply n r q') = answered n r false { q' with outs := q.outs, mgmt := q.mgmt } := by
  simp only [countTake, postReply, bumpMgmt, modMgmt, modOut, answered, ho, hm, openTake_eq, hneed, reserve_post,
    servedMgmt]

/-- A refusal of an immediate command leaves the part as the take found it but for the answer (R171). -/
theorem answered_refused {q : Part} {n : Ix} {r : Reply} (hneed : need code = 1) :
    countTake true (postReply n r (openTake code n q)) = answered n r true q := by
  simp only [countTake, postReply, bumpMgmt, modMgmt, modOut, answered, openTake_eq, hneed, reserve_post, servedMgmt]

@[simp] theorem answered_fault (n : Ix) (r : Reply) (b : Bool) (q : Part) : (answered n r b q).fault = q.fault := rfl

/-- An immediate command that its rule refuses: the one reply, the take counted, nothing else (R170, R171). -/
theorem immediate_refused (rule : Command → Part → Verdict) (h : takenNow code env cmd s) (hneed : need code = 1)
    {st : Refused} {ws : List Byte}
    (hd : rule cmd (openTake code cmd.link (partAt code env cmd s)) = .error ⟨st, ws⟩) :
    command code env cmd (takeImmediate code cmd (rule cmd)) s = refusedWith code env cmd s st ws := by
  rw [immediate_taken rule h]
  have e : takeImmediate code cmd (rule cmd) (partAt code env cmd s) =
      answered cmd.link (refusalReply code cmd (partAt code env cmd s) st ws) true (partAt code env cmd s) := by
    simp only [takeImmediate, answerNow, hd]
    exact answered_refused hneed
  have hq : s.part.fault.fatalDue = false := h.1.1
  rw [e, settle_quiet, refusedWith]
  simp [partAt_fault, hq]

/-- An immediate command that its rule accepts: DONE COMPLETE with the payload over `q''`, wherever the answer of the
rule's part is that of `q''` (R170, R171). -/
theorem immediate_accepted (rule : Command → Part → Verdict) (h : takenNow code env cmd s)
    {q' q'' : Part} {ws : List Byte}
    (hr : rule cmd (openTake code cmd.link (partAt code env cmd s)) = .ok (q', ws))
    (ha : ∀ r, countTake false (postReply cmd.link r q') = answered cmd.link r false q'')
    (hf : q''.fault.fatalDue = false) :
    command code env cmd (takeImmediate code cmd (rule cmd)) s = doneNow code env cmd s ws q'' := by
  rw [immediate_taken rule h]
  have e : takeImmediate code cmd (rule cmd) (partAt code env cmd s) =
      answered cmd.link (completeReply code cmd (partAt code env cmd s) ws) false q'' := by
    simp only [takeImmediate, answerNow, hr]
    exact ha _
  rw [e, settle_quiet, doneNow]
  simpa using hf

/-- An immediate command that its rule accepts, leaving outputs and management alone: what the rule made of the rest
stands (R170, R171). -/
theorem immediate_done (rule : Command → Part → Verdict) (h : takenNow code env cmd s) (hneed : need code = 1)
    {q' : Part} {ws : List Byte}
    (hr : rule cmd (openTake code cmd.link (partAt code env cmd s)) = .ok (q', ws))
    (ho : q'.outs = (openTake code cmd.link (partAt code env cmd s)).outs)
    (hm : q'.mgmt = (openTake code cmd.link (partAt code env cmd s)).mgmt)
    (hf : q'.fault.fatalDue = false) :
    command code env cmd (takeImmediate code cmd (rule cmd)) s =
      doneNow code env cmd s ws { q' with outs := (partAt code env cmd s).outs, mgmt := (partAt code env cmd s).mgmt } :=
  immediate_accepted rule h hr (fun _ => answered_done hneed ho hm) hf

end Sys2Proof.Machine
end

