-- ==== Sys2Proof/Laws/Found.lean ====
section
/-! SUPPORT. What the instant of an event, its physical failures and the arrival of a block leave as it stood: an upset
changes integrity marks, errors of the memory, table parity and carry parity only (log entry 5), the arrival of a
block changes the command queues, lost counts and management counters only (R168). -/

namespace Sys2Proof.Machine

/-! ### The arrival of a block -/

/-- All that an arrival can do (R168): the management unit alone is changed, its records and its restart flag are not. -/
theorem arrive_cases (n : Ix) (ws : List Byte) (p : Part) :
    ∃ m : Mgmt, arrive n ws p = { p with mgmt := m } ∧ m.laneOps = p.mgmt.laneOps ∧ m.outOps = p.mgmt.outOps
      ∧ m.restart = p.mgmt.restart ∧ m.lastServed = p.mgmt.lastServed := by
  unfold arrive; split
  · exact ⟨_, rfl, rfl, rfl, rfl, rfl⟩
  · split <;> exact ⟨_, rfl, rfl, rfl, rfl, rfl⟩

variable (code : Byte) (env : Env) (cmd : Command) (s : State)

@[simp] theorem partAt_straps : (partAt code env cmd s).straps = (foundBy env s).straps := by
  obtain ⟨m, h, -⟩ := arrive_cases cmd.link (commandWords (foundBy env s) code cmd) (foundBy env s); simp [partAt, h]
@[simp] theorem partAt_links : (partAt code env cmd s).links = (foundBy env s).links := by
  obtain ⟨m, h, -⟩ := arrive_cases cmd.link (commandWords (foundBy env s) code cmd) (foundBy env s); simp [partAt, h]
@[simp] theorem partAt_feeds : (partAt code env cmd s).feeds = (foundBy env s).feeds := by
  obtain ⟨m, h, -⟩ := arrive_cases cmd.link (commandWords (foundBy env s) code cmd) (foundBy env s); simp [partAt, h]
@[simp] theorem partAt_lanes : (partAt code env cmd s).lanes = (foundBy env s).lanes := by
  obtain ⟨m, h, -⟩ := arrive_cases cmd.link (commandWords (foundBy env s) code cmd) (foundBy env s); simp [partAt, h]
@[simp] theorem partAt_outs : (partAt code env cmd s).outs = (foundBy env s).outs := by
  obtain ⟨m, h, -⟩ := arrive_cases cmd.link (commandWords (foundBy env s) code cmd) (foundBy env s); simp [partAt, h]
@[simp] theorem partAt_store : (partAt code env cmd s).store = (foundBy env s).store := by
  obtain ⟨m, h, -⟩ := arrive_cases cmd.link (commandWords (foundBy env s) code cmd) (foundBy env s); simp [partAt, h]
@[simp] theorem partAt_timebase : (partAt code env cmd s).timebase = (foundBy env s).timebase := by
  obtain ⟨m, h, -⟩ := arrive_cases cmd.link (commandWords (foundBy env s) code cmd) (foundBy env s); simp [partAt, h]
@[simp] theorem partAt_refA : (partAt code env cmd s).refA = (foundBy env s).refA := by
  obtain ⟨m, h, -⟩ := arrive_cases cmd.link (commandWords (foundBy env s) code cmd) (foundBy env s); simp [partAt, h]
@[simp] theorem partAt_refB : (partAt code env cmd s).refB = (foundBy env s).refB := by
  obtain ⟨m, h, -⟩ := arrive_cases cmd.link (commandWords (foundBy env s) code cmd) (foundBy env s); simp [partAt, h]
@[simp] theorem partAt_mute : (partAt code env cmd s).mute = (foundBy env s).mute := by
  obtain ⟨m, h, -⟩ := arrive_cases cmd.link (commandWords (foundBy env s) code cmd) (foundBy env s); simp [partAt, h]
@[simp] theorem partAt_fault_found : (partAt code env cmd s).fault = (foundBy env s).fault := by
  obtain ⟨m, h, -⟩ := arrive_cases cmd.link (commandWords (foundBy env s) code cmd) (foundBy env s); simp [partAt, h]
@[simp] theorem partAt_laneOps : (partAt code env cmd s).mgmt.laneOps = (foundBy env s).mgmt.laneOps := by
  obtain ⟨m, h, h1, h2, h3, h4⟩ := arrive_cases cmd.link (commandWords (foundBy env s) code cmd) (foundBy env s); simp [partAt, h, h1]
@[simp] theorem partAt_outOps : (partAt code env cmd s).mgmt.outOps = (foundBy env s).mgmt.outOps := by
  obtain ⟨m, h, h1, h2, h3, h4⟩ := arrive_cases cmd.link (commandWords (foundBy env s) code cmd) (foundBy env s); simp [partAt, h, h2]
@[simp] theorem partAt_restart : (partAt code env cmd s).mgmt.restart = (foundBy env s).mgmt.restart := by
  obtain ⟨m, h, h1, h2, h3, h4⟩ := arrive_cases cmd.link (commandWords (foundBy env s) code cmd) (foundBy env s); simp [partAt, h, h3]
@[simp] theorem partAt_lastServed : (partAt code env cmd s).mgmt.lastServed = (foundBy env s).mgmt.lastServed := by
  obtain ⟨m, h, h1, h2, h3, h4⟩ := arrive_cases cmd.link (commandWords (foundBy env s) code cmd) (foundBy env s); simp [partAt, h, h4]

/-! ### The instant of an event and its physical failures -/

/-- Whatever no upset and no advance of the timebase changes, an event finds as it stood. -/
theorem found_keeps {β : Type} (g : Part → β) (h : ∀ u p, g (applyUpset u p) = g p)
    (h2 : ∀ t p, g (advance t p) = g p) : g (foundBy env s) = g s.part := by
  simp [foundBy, begin, h2, forAll_keeps g applyUpset h]

@[simp] theorem found_timebase : (foundBy env s).timebase = max s.part.timebase env.time := by simp [foundBy]
@[simp] theorem found_straps : (foundBy env s).straps = s.part.straps :=
  found_keeps env s (fun p => p.straps) (by intro u p; cases u <;> rfl) (fun _ _ => rfl)
@[simp] theorem found_links : (foundBy env s).links = s.part.links :=
  found_keeps env s (fun p => p.links) (by intro u p; cases u <;> rfl) (fun _ _ => rfl)
@[simp] theorem found_feeds : (foundBy env s).feeds = s.part.feeds :=
  found_keeps env s (fun p => p.feeds) (by intro u p; cases u <;> rfl) (fun _ _ => rfl)
@[simp] theorem found_outs : (foundBy env s).outs = s.part.outs :=
  found_keeps env s (fun p => p.outs) (by intro u p; cases u <;> rfl) (fun _ _ => rfl)
@[simp] theorem found_refA : (foundBy env s).refA = s.part.refA :=
  found_keeps env s (fun p => p.refA) (by intro u p; cases u <;> rfl) (fun _ _ => rfl)
@[simp] theorem found_refB : (foundBy env s).refB = s.part.refB :=
  found_keeps env s (fun p => p.refB) (by intro u p; cases u <;> rfl) (fun _ _ => rfl)
@[simp] theorem found_mgmt : (foundBy env s).mgmt = s.part.mgmt :=
  found_keeps env s (fun p => p.mgmt) (by intro u p; cases u <;> rfl) (fun _ _ => rfl)
@[simp] theorem found_fault : (foundBy env s).fault = s.part.fault :=
  found_keeps env s (fun p => p.fault) (by intro u p; cases u <;> rfl) (fun _ _ => rfl)
@[simp] theorem found_mute : (foundBy env s).mute = s.part.mute :=
  found_keeps env s (fun p => p.mute) (by intro u p; cases u <;> rfl) (fun _ _ => rfl)
@[simp] theorem found_store_freeList : (foundBy env s).store.freeList = s.part.store.freeList :=
  found_keeps env s (fun p => p.store.freeList) (by intro u p; cases u <;> rfl) (fun _ _ => rfl)
@[simp] theorem found_store_quarantine : (foundBy env s).store.quarantine = s.part.store.quarantine :=
  found_keeps env s (fun p => p.store.quarantine) (by intro u p; cases u <;> rfl) (fun _ _ => rfl)
@[simp] theorem found_store_initRunning : (foundBy env s).store.initRunning = s.part.store.initRunning :=
  found_keeps env s (fun p => p.store.initRunning) (by intro u p; cases u <;> rfl) (fun _ _ => rfl)
@[simp] theorem found_store_initNext : (foundBy env s).store.initNext = s.part.store.initNext :=
  found_keeps env s (fun p => p.store.initNext) (by intro u p; cases u <;> rfl) (fun _ _ => rfl)
@[simp] theorem found_store_initDue : (foundBy env s).store.initDue = s.part.store.initDue :=
  found_keeps env s (fun p => p.store.initDue) (by intro u p; cases u <;> rfl) (fun _ _ => rfl)
@[simp] theorem found_store_mem : (foundBy env s).store.mem = s.part.store.mem :=
  found_keeps env s (fun p => p.store.mem) (by intro u p; cases u <;> rfl) (fun _ _ => rfl)
@[simp] theorem found_store_ctr : (foundBy env s).store.ctr = s.part.store.ctr :=
  found_keeps env s (fun p => p.store.ctr) (by intro u p; cases u <;> rfl) (fun _ _ => rfl)

/-- Of a lane an upset changes the parity marks of tables and carried items only. -/
theorem found_lane {β : Type} (g : Lane → β) (n : Ix) (h : ∀ l tb, g { l with tables := tb } = g l)
    (h2 : ∀ l c, g { l with carry := c } = g l) : g ((foundBy env s).lanes.get n) = g (s.part.lanes.get n) := by
  refine found_keeps env s (fun p => g (p.lanes.get n)) ?_ (fun _ _ => rfl)
  intro u p
  cases u with
  | slotRecord k => rfl
  | storedSample => rfl
  | tableRow m t b r => simp only [applyUpset, modLane_lanes, Four.get_modify]; split <;> simp [h]
  | carryItem m i => simp only [applyUpset, modLane_lanes, Four.get_modify]; split <;> simp [h2]

variable (n : Ix)

@[simp] theorem found_lane_state : ((foundBy env s).lanes.get n).state = (s.part.lanes.get n).state :=
  found_lane env s (fun l => l.state) n (fun _ _ => rfl) (fun _ _ => rfl)
@[simp] theorem found_lane_profile : ((foundBy env s).lanes.get n).profile = (s.part.lanes.get n).profile :=
  found_lane env s (fun l => l.profile) n (fun _ _ => rfl) (fun _ _ => rfl)
@[simp] theorem found_lane_commit : ((foundBy env s).lanes.get n).commit = (s.part.lanes.get n).commit :=
  found_lane env s (fun l => l.commit) n (fun _ _ => rfl) (fun _ _ => rfl)
@[simp] theorem found_lane_acquireAt : ((foundBy env s).lanes.get n).acquireAt = (s.part.lanes.get n).acquireAt :=
  found_lane env s (fun l => l.acquireAt) n (fun _ _ => rfl) (fun _ _ => rfl)
@[simp] theorem found_lane_job : ((foundBy env s).lanes.get n).job = (s.part.lanes.get n).job :=
  found_lane env s (fun l => l.job) n (fun _ _ => rfl) (fun _ _ => rfl)
@[simp] theorem found_lane_usable : ((foundBy env s).lanes.get n).usable = (s.part.lanes.get n).usable :=
  found_lane env s (fun l => l.usable) n (fun _ _ => rfl) (fun _ _ => rfl)
@[simp] theorem found_lane_holdCount : ((foundBy env s).lanes.get n).holdCount = (s.part.lanes.get n).holdCount :=
  found_lane env s (fun l => l.holdCount) n (fun _ _ => rfl) (fun _ _ => rfl)
@[simp] theorem found_lane_jobNumber : ((foundBy env s).lanes.get n).jobNumber = (s.part.lanes.get n).jobNumber :=
  found_lane env s (fun l => l.jobNumber) n (fun _ _ => rfl) (fun _ _ => rfl)
@[simp] theorem found_lane_route : ((foundBy env s).lanes.get n).route = (s.part.lanes.get n).route :=
  found_lane env s (fun l => l.route) n (fun _ _ => rfl) (fun _ _ => rfl)
@[simp] theorem found_lane_tcCount : ((foundBy env s).lanes.get n).tcCount = (s.part.lanes.get n).tcCount :=
  found_lane env s (fun l => l.tcCount) n (fun _ _ => rfl) (fun _ _ => rfl)
@[simp] theorem found_lane_fresh : ((foundBy env s).lanes.get n).fresh = (s.part.lanes.get n).fresh :=
  found_lane env s (fun l => l.fresh) n (fun _ _ => rfl) (fun _ _ => rfl)
@[simp] theorem found_lane_lastLabel : ((foundBy env s).lanes.get n).lastLabel = (s.part.lanes.get n).lastLabel :=
  found_lane env s (fun l => l.lastLabel) n (fun _ _ => rfl) (fun _ _ => rfl)
@[simp] theorem found_lane_jobCtr : ((foundBy env s).lanes.get n).jobCtr = (s.part.lanes.get n).jobCtr :=
  found_lane env s (fun l => l.jobCtr) n (fun _ _ => rfl) (fun _ _ => rfl)
@[simp] theorem found_lane_laneCtr : ((foundBy env s).lanes.get n).laneCtr = (s.part.lanes.get n).laneCtr :=
  found_lane env s (fun l => l.laneCtr) n (fun _ _ => rfl) (fun _ _ => rfl)
@[simp] theorem found_lane_carryCtr : ((foundBy env s).lanes.get n).carryCtr = (s.part.lanes.get n).carryCtr :=
  found_lane env s (fun l => l.carryCtr) n (fun _ _ => rfl) (fun _ _ => rfl)

/-- Of a slot record an upset changes the integrity mark only. -/
theorem found_slot (k : SlotIx) :
    slotOf (foundBy env s) k = { slotOf s.part k with intact := (slotOf (foundBy env s) k).intact } := by
  have h := found_keeps env s (fun p => { slotOf p k with intact := true }) ?_ (fun _ _ => rfl)
  · generalize slotOf (foundBy env s) k = a at *
    generalize slotOf s.part k = b at *
    cases a; cases b; simp_all
  · intro u p
    cases u with
    | slotRecord j =>
      simp only [applyUpset, slotOf, modStore_store, spoilSlot, Vector.getElem_set]
      split
      · next e => simp [e]
      · rfl
    | storedSample => rfl
    | tableRow => rfl
    | carryItem => rfl

end Sys2Proof.Machine
end

