-- ==== Sys2Proof/Laws/Memory.lean ====
section
/-! SUPPORT. The attached memory: a read after a write, and the canonical form that every memory operation keeps. -/

namespace Sys2Proof.Machine

section Cells
variable {α : Type}

theorem cellsGet_none_of_lt {a : Nat} {m : List (Nat × α)} (h : ∀ c ∈ m, a < c.1) : cellsGet a m = none := by
  cases m with
  | nil => rfl
  | cons c m =>
    have hc := h c (List.mem_cons_self)
    have h1 : ¬ a = c.1 := by omega
    simp [cellsGet, h1, hc]

theorem cellsPut_mem {a : Nat} {v : α} {m : List (Nat × α)} {c : Nat × α} (h : c ∈ cellsPut a v m) :
    c = (a, v) ∨ c ∈ m := by
  induction m with
  | nil => simp [cellsPut] at h; exact .inl h
  | cons d m ih =>
    simp only [cellsPut] at h
    split at h
    · rcases List.mem_cons.1 h with h | h
      · exact .inl h
      · exact .inr h
    · split at h
      · rcases List.mem_cons.1 h with h | h
        · exact .inl h
        · exact .inr (List.mem_cons_of_mem _ h)
      · rcases List.mem_cons.1 h with h | h
        · exact .inr (h ▸ List.mem_cons_self)
        · rcases ih h with h | h
          · exact .inl h
          · exact .inr (List.mem_cons_of_mem _ h)

/-- Putting a value keeps the keys strictly rising. -/
theorem cellsRising_put {a : Nat} {v : α} {m : List (Nat × α)} (h : cellsRising m) : cellsRising (cellsPut a v m) := by
  induction m with
  | nil => simp [cellsPut, cellsRising]
  | cons c m ih =>
    have hp := List.pairwise_cons.1 h
    simp only [cellsPut]
    split
    · rename_i hlt
      refine List.pairwise_cons.2 ⟨?_, h⟩
      intro d hd
      rcases List.mem_cons.1 hd with hd | hd
      · subst hd; exact hlt
      · exact Nat.lt_trans hlt (hp.1 d hd)
    · split
      · rename_i heq
        exact List.pairwise_cons.2 ⟨fun d hd => by have := hp.1 d hd; simp; omega, hp.2⟩
      · refine List.pairwise_cons.2 ⟨?_, ih hp.2⟩
        intro d hd
        rcases cellsPut_mem hd with hd | hd
        · subst hd; simp; omega
        · exact hp.1 d hd

/-- Dropping keys keeps them strictly rising. -/
theorem cellsRising_filter {f : Nat × α → Bool} {m : List (Nat × α)} (h : cellsRising m) : cellsRising (m.filter f) :=
  List.Pairwise.filter _ h

theorem cellsRising_drop {a : Nat} {m : List (Nat × α)} (h : cellsRising m) : cellsRising (cellsDrop a m) :=
  cellsRising_filter h

theorem cellsGet_put_same {a : Nat} {v : α} {m : List (Nat × α)} : cellsGet a (cellsPut a v m) = some v := by
  induction m with
  | nil => simp [cellsPut, cellsGet]
  | cons c m ih =>
    simp only [cellsPut]
    split
    · simp [cellsGet]
    · split
      · simp [cellsGet]
      · rename_i h1 h2
        simp [cellsGet, h1, h2, ih]

theorem cellsGet_put_other {a b : Nat} {v : α} {m : List (Nat × α)} (hb : b ≠ a) :
    cellsGet b (cellsPut a v m) = cellsGet b m := by
  induction m with
  | nil =>
    simp only [cellsPut, cellsGet, hb, if_false]
    split <;> rfl
  | cons c m ih =>
    simp only [cellsPut]
    split
    · rename_i h1
      simp only [cellsGet, hb, if_false]
      by_cases hlt : b < a
      · have h2 : ¬ b = c.1 := by omega
        have h3 : b < c.1 := by omega
        simp [hlt, h2, h3]
      · simp [hlt]
    · split
      · rename_i h1 h2
        simp [cellsGet, hb, ← h2]
      · simp only [cellsGet, ih]

theorem cellsGet_drop_same {a : Nat} {m : List (Nat × α)} (h : cellsRising m) : cellsGet a (cellsDrop a m) = none := by
  induction m with
  | nil => rfl
  | cons c m ih =>
    have hp := List.pairwise_cons.1 h
    by_cases hc : c.1 = a
    · have hall : ∀ d ∈ cellsDrop a m, a < d.1 := by
        intro d hd
        have := hp.1 d (List.mem_filter.1 hd).1
        omega
      have : cellsDrop a (c :: m) = cellsDrop a m := by simp [cellsDrop, hc]
      rw [this]
      exact cellsGet_none_of_lt hall
    · have hcons : cellsDrop a (c :: m) = c :: cellsDrop a m := by simp [cellsDrop, hc]
      have h1 : ¬ a = c.1 := fun e => hc e.symm
      rw [hcons]
      simp only [cellsGet, h1, if_false, ih hp.2, ite_self]

theorem cellsGet_drop_other {a b : Nat} {m : List (Nat × α)} (h : cellsRising m) (hb : b ≠ a) :
    cellsGet b (cellsDrop a m) = cellsGet b m := by
  induction m with
  | nil => rfl
  | cons c m ih =>
    have hp := List.pairwise_cons.1 h
    by_cases hc : c.1 = a
    · have hdrop : cellsDrop a (c :: m) = cellsDrop a m := by simp [cellsDrop, hc]
      rw [hdrop, ih hp.2]
      have h1 : ¬ b = c.1 := fun e => hb (e.trans hc)
      by_cases hlt : b < c.1
      · have hall : ∀ d ∈ m, b < d.1 := fun d hd => Nat.lt_trans hlt (hp.1 d hd)
        simp only [cellsGet, h1, if_false, hlt, if_true]
        exact cellsGet_none_of_lt hall
      · simp [cellsGet, h1, hlt]
    · have hcons : cellsDrop a (c :: m) = c :: cellsDrop a m := by simp [cellsDrop, hc]
      rw [hcons]
      simp only [cellsGet, ih hp.2]

end Cells

/-- A write keeps the canonical form: writing what an unlisted address reads as removes the entry. -/
theorem memoryWf_write {a : Nat} {v : Sample} {m : List (Nat × Sample)} (h : memoryWf m) :
    memoryWf (memoryWrite a v m) := by
  unfold memoryWrite
  split
  · exact ⟨cellsRising_drop h.1, fun c hc => h.2 c (List.mem_filter.1 hc).1⟩
  · rename_i hv
    refine ⟨cellsRising_put h.1, fun c hc => ?_⟩
    rcases cellsPut_mem hc with hc | hc
    · subst hc; exact hv
    · exact h.2 c hc

theorem memoryWf_blacken {k : SlotIx} {m : List (Nat × Sample)} (h : memoryWf m) : memoryWf (memoryBlacken k m) :=
  ⟨cellsRising_filter h.1, fun c hc => h.2 c (List.mem_filter.1 hc).1⟩

/-- A read after a write of the same address gives the value written. -/
theorem memoryRead_write_same {a : Nat} {v : Sample} {m : List (Nat × Sample)} (h : memoryWf m) :
    memoryRead (memoryWrite a v m) a = v := by
  unfold memoryRead memoryWrite
  split
  · rename_i hv; simp [cellsGet_drop_same h.1, hv]
  · simp [cellsGet_put_same]

/-- A write leaves every other address as it was. -/
theorem memoryRead_write_other {a b : Nat} {v : Sample} {m : List (Nat × Sample)} (h : memoryWf m) (hb : b ≠ a) :
    memoryRead (memoryWrite a v m) b = memoryRead m b := by
  unfold memoryRead memoryWrite
  split
  · simp [cellsGet_drop_other h.1 hb]
  · simp [cellsGet_put_other hb]

/-- One write keeps both canonical forms. -/
theorem writeSample_wf {a : Nat} {v : Sample} {st : Cells} (h : memoryWf st.1 ∧ cellsRising st.2) :
    memoryWf (writeSample a v st).1 ∧ cellsRising (writeSample a v st).2 :=
  ⟨memoryWf_write h.1, cellsRising_drop h.2⟩

/-- A run of writes keeps both canonical forms. -/
theorem writeRun_wf {slot : SlotIx} {comp : Component} {line : Nat} {vs : List Sample} {st : Cells}
    (h : memoryWf st.1 ∧ cellsRising st.2) :
    memoryWf (writeRun slot comp line vs st).1 ∧ cellsRising (writeRun slot comp line vs st).2 := by
  unfold writeRun
  generalize vs.zipIdx = xs
  induction xs generalizing st with
  | nil => exact h
  | cons x xs ih => exact ih (writeSample_wf h)

/-- The store of a line keeps both canonical forms. -/
theorem writeLine_wf {slot : SlotIx} {line width : Nat} {samples : List LinkSample} {st : Cells}
    (h : memoryWf st.1 ∧ cellsRising st.2) :
    memoryWf (writeLine slot line width samples st).1 ∧ cellsRising (writeLine slot line width samples st).2 :=
  writeRun_wf (writeRun_wf (writeRun_wf h))

end Sys2Proof.Machine
end

