-- ==== Sys2Proof/Laws/Tables.lean ====
section
/-! SUPPORT. The CRC of the default contents of the tables (R158, R159, R162), evaluated half by half. -/

namespace Sys2Proof.Machine

/-- One row into the CRC (R162). -/
def crcRow (c : BitVec 16) (r : TRow) : BitVec 16 :=
  crcValue 16 r.k3.toNat (crcValue 16 r.k2.toNat (crcValue 16 r.k1.toNat (crcValue 16 r.k0.toNat c)))

/-- The 2^d rows from row `i` on into the CRC. The test, which never holds, makes an evaluation finish the first half
before it begins the second. -/
def crcHalves (f : Nat → TRow) : Nat → Nat → BitVec 16 → BitVec 16
  | 0, i, c => crcRow c (f i)
  | d + 1, i, c =>
    if (crcHalves f d i c).toNat = 65536 then 0 else crcHalves f d (i + 2 ^ d) (crcHalves f d i c)

theorem crcHalves_eq_foldl (f : Nat → TRow) : ∀ (d i : Nat) (c : BitVec 16),
    crcHalves f d i c = ((List.range' i (2 ^ d)).map f).foldl crcRow c := by
  intro d
  induction d with
  | zero => intro i c; rfl
  | succ d ih =>
    intro i c
    rw [crcHalves, if_neg (Nat.ne_of_lt (BitVec.isLt _)), ih, ih, pow_succ, mul_two, ← List.range'_append_1,
      List.map_append, List.foldl_append]

theorem rowsCrc_default_eq_halves (t : Table) (d : Nat) (h : tableRows t = 2 ^ d) :
    rowsCrc (defaultRows t) = crcHalves (defaultRow t) d 0 0xFFFF#16 := by
  rw [crcHalves_eq_foldl, rowsCrc, defaultRows, h, List.range_eq_range']; rfl

/-- The CRC that R162 computes over the default contents of R159 is the one that a reset gives (R158). -/
theorem rowsCrc_defaultRows (t : Table) : rowsCrc (defaultRows t) = defaultCrc t := by
  cases t
  · rw [rowsCrc_default_eq_halves .tt 8 rfl]; decide +kernel
  · rw [rowsCrc_default_eq_halves .hc 4 rfl]; decide +kernel
  · rw [rowsCrc_default_eq_halves .vc 4 rfl]; decide +kernel

@[simp] theorem defaultRows_length (t : Table) : (defaultRows t).length = tableRows t := by simp [defaultRows]

/-- Every default row is valid (R157, R159). -/
theorem defaultRows_valid (t : Table) : rowsValid t (defaultRows t) := by
  refine ⟨defaultRows_length t, ?_⟩
  have h : ∀ i < tableRows t, coefsInRange t (defaultRow t i) = true ∧ (rowCoefs (defaultRow t i)).sum = rowSum t := by
    cases t <;> decide +kernel
  intro r hr
  obtain ⟨i, hi, rfl⟩ := List.mem_map.mp hr
  exact h i (List.mem_range.mp hi)

/-- Both banks of a table as a reset leaves them obey the law of the table's CRC, with no COMMIT pending (R158). -/
theorem resetTable_bankOk (t : Table) : bankOk t (resetTable t) none :=
  ⟨defaultRows_valid t, defaultRows_length t, (rowsCrc_defaultRows t).symm, fun _ h => by simp at h⟩

end Sys2Proof.Machine
end

