-- ==== Sys2Proof/WellFormed.lean ====
section
/-! DEFINITION. Which commands the outside can bring about: each operand in the range that the spec gives it. The
meanings are total and need none of this. -/

namespace Sys2Proof

/-- An upset names an item that the part has: a line and a column of a slot's region (chapter 3), a row of the table
(Table 42), an item of a carry queue (R143). -/
def Upset.wf (u : Upset) : Bool :=
  match u with
  | .slotRecord _ => true
  | .storedSample _ comp line col _ =>
    decide (line < 1080) && (match comp with
      | .y => decide (col < 1920)
      | .cb => decide (col < 960)
      | .cr => decide (col < 960))
  | .tableRow _ t _ row => (match t with
      | .tt => decide (row < 256)
      | .hc => decide (row < 16)
      | .vc => decide (row < 16))
  | .carryItem _ i => decide (i < 64)

/-- The timebase is a 64-bit count (R20), and the upsets name items of the part. -/
def Env.wf (e : Env) : Bool := decide (e.time < 2 ^ 64) && e.upsets.all Upset.wf

/-- Luma samples of a line and co-sited chroma samples, one of each for two luma samples (R1, Table 26). -/
def samplesWf (ss : List LinkSample) : Bool :=
  let y := ss.countP (fun s => s.comp == .y)
  let cb := ss.countP (fun s => s.comp == .cb)
  let cr := ss.countP (fun s => s.comp == .cr)
  y == 2 * cb && cb == cr

/-- The words of a packet as they arrive: never more than its count calls for, count + 4 (R3). -/
def wordsWf (ws : List (BitVec 10)) : Bool :=
  match ws with
  | _ :: _ :: c :: _ => decide (ws.length ≤ (c.setWidth 8).toNat + 4)
  | _ => true

/-- "P = count − 4, so 0..251" (Table 47). -/
def Command.wf (c : Command) : Bool := decide (c.payload.length ≤ 251)

/-- "The line number, counted from 1" (R1). -/
def lineNumberWf (number : Nat) : Bool := decide (1 ≤ number)

/-- The well-formed commands. -/
def WellFormed (i : Instr) : Bool :=
  match i with
  | .pinReset _ _ => true
  | .activityGained env _ => env.wf
  | .activityLost env _ _ => env.wf
  | .pictureMarker env _ number _ _ _ => env.wf && lineNumberWf number
  | .lineStart env _ number _ _ _ => env.wf && lineNumberWf number
  | .lineEnd env _ samples _ => env.wf && samplesWf samples
  | .ancillaryPacket env _ words => env.wf && wordsWf words
  | .refMarker env _ => env.wf
  | .refExpiry upsets _ => upsets.all Upset.wf
  | .outputBoundary upsets _ => upsets.all Upset.wf
  | .outputLine env _ => env.wf
  | .jobEnd env _ => env.wf
  | .slotInitialisationEnd upsets => upsets.all Upset.wf
  | .acquireTimeout upsets _ => upsets.all Upset.wf
  | .identify env cmd => env.wf && cmd.wf
  | .queryStatus env cmd => env.wf && cmd.wf
  | .queryCounters env cmd => env.wf && cmd.wf
  | .deviceReset env cmd => env.wf && cmd.wf
  | .setFeed env cmd => env.wf && cmd.wf
  | .feedReset env cmd => env.wf && cmd.wf
  | .releaseQuarantine env cmd => env.wf && cmd.wf
  | .setLane env cmd => env.wf && cmd.wf
  | .start env cmd => env.wf && cmd.wf
  | .stop env cmd => env.wf && cmd.wf
  | .resume env cmd => env.wf && cmd.wf
  | .mute env cmd => env.wf && cmd.wf
  | .unmute env cmd => env.wf && cmd.wf
  | .loadSegment env cmd => env.wf && cmd.wf
  | .commit env cmd => env.wf && cmd.wf
  | .setOutput env cmd => env.wf && cmd.wf
  | .relock env cmd => env.wf && cmd.wf
  | .setRoute env cmd => env.wf && cmd.wf
  | .seedTimecode env cmd => env.wf && cmd.wf
  | .halt env cmd => env.wf && cmd.wf
  | .queryLog env cmd => env.wf && cmd.wf
  | .clearLog env cmd => env.wf && cmd.wf
  | .queryConditions env cmd => env.wf && cmd.wf
  | .ackConditions env cmd => env.wf && cmd.wf
  | .setAlarmMask env cmd => env.wf && cmd.wf
  | .badCode env cmd code => env.wf && cmd.wf && !decide (1 ≤ code.toNat ∧ code.toNat ≤ 25)

end Sys2Proof
end

