-- ==== Sys2Proof/Tests/Slice0.lean ====
section
/-! SUPPORT. The model's own tests: the well-formedness checks, the spec's worked values, small steps of single
commands, and for every statement with hypotheses a concrete state and operands that meet them together (names
`witness_`, after the statement they serve). Expected values come from the rule or table named at each test. -/

set_option Elab.async false

namespace Sys2Proof.Tests

open Sys2Proof.Machine

/-! ### Small states -/

/-- A link in the given state whose established structure is that of 1920 × 1080 interlaced (S03, S04), whose picture has
been handed on, at line 1. -/
def linkAt (st : LinkState) : Part → Part :=
  modLink 0 (fun l =>
    { l with
      activity := true
      state := st
      est := some ⟨540, 1920, .alternating, some 563, some 562⟩
      lastCode := some .s03
      cur := some ⟨563, 540, some 1920, .top, .top, true, true⟩
      lastNumber := some 1125
      line := some true })

/-- The state after reset with IN0 MEASURING, so that commands on it are extracted (R14), and one change of the part. -/
def onPart (f : Part → Part) : State := { State.reset with part := f (linkAt .measuring State.reset.part) }

/-- The state after reset with IN0 MEASURING. -/
def ready : State := onPart id

/-- An event at timebase 1000 with no physical failure. -/
def now1 : Env := ⟨1000, []⟩

/-- A command on IN0 with tag 7. -/
def send (target : Byte) (payload : List Byte) : Command := ⟨0, 7, target, payload⟩

/-- The part that an outcome leaves. -/
def after (o : Host.Outcome State Fault Refusal) : Option Part :=
  match o with
  | .next t => some t.part
  | _ => none

/-- The kind, status and payload of the newest reply of OUT0. -/
def lastReply (o : Host.Outcome State Fault Refusal) : Option (ReplyKind × Byte × List Byte) :=
  ((after o).bind (fun p => (p.outs.get 0).replies.getLast?)).map (fun r => (r.kind, r.status, r.payload))

/-- IN0 LOCKED with S03 and a running window. -/
def lockedLink (p : Part) : Part := modLink 0 (fun l => { l with window := some ⟨0, 3⟩ }) (linkAt (.locked .s03) p)

/-- Lane 0 in a state. -/
def laneIn (st : LaneState) : Part → Part := modLane 0 (fun l => { l with state := st, usable := true })

/-- Slots 0, 1 of feed 0 in HISTORY and FILLING, the others FREE. -/
def storeReady (p : Part) : Part :=
  { p with
    store := { p.store with
      slots := Vector.ofFn (fun k : Fin 64 =>
        if k.val = 0 then ⟨.history, some 0, 0, false, 0, true⟩
        else if k.val = 1 then ⟨.filling, some 0, 0, false, 0, true⟩
        else ⟨.free, none, 0, false, 0, true⟩)
      freeList := (List.finRange 64).drop 2
      initRunning := false
      initNext := 64 } }

/-- Feed 0 capturing, with a complete picture in slot 0 and an open one in slot 1. -/
def feedReady (p : Part) : Part :=
  modFeed 0 (fun f =>
    { f with
      captureOn := true
      lastStamp := some 1080000
      nextSeq := 2
      history := [⟨0, 0, 540000, .picture 0 540000, some .top, true, 0, none⟩,
                  ⟨1, 0, 1080000, .picture 1 1080000, some .bottom, false, 0, none⟩] }) (storeReady p)

/-- IN0 locked with S03, feed 0 capturing, lane 0 CONVERTING. -/
def running (p : Part) : Part := p |> lockedLink |> laneIn .converting |> feedReady

/-- Lane 0 ACQUIRING with a START pending whose DONE has its place on OUT0, and a sample of slot 0 that is not black. -/
def busyPart (p : Part) : Part :=
  let q := p |> running |> laneIn .acquiring
    |> modLane 0 (fun l => { l with acquireAt := some 135000000 })
    |> modOut 0 (fun o => { o with reserved := 1 })
    |> modStore (fun st => { st with mem := [(5, 100#10)] })
  { q with mgmt := { q.mgmt with laneOps := q.mgmt.laneOps.set 0 (some ⟨.start, 0, 3, 9, true⟩) } }

/-! ### Well-formedness: an ill-formed term for each check, and a boundary value that passes -/

theorem test_wf_time : WellFormed (.refMarker ⟨2 ^ 64, []⟩ .a) = false ∧ WellFormed (.refMarker ⟨2 ^ 64 - 1, []⟩ .a) = true := by
  decide
theorem test_wf_upset_line : WellFormed (.outputLine ⟨0, [.storedSample 0 .y 1080 0 .correctable]⟩ 0) = false := by decide
theorem test_wf_upset_luma : WellFormed (.outputLine ⟨0, [.storedSample 0 .y 0 1920 .correctable]⟩ 0) = false := by decide
theorem test_wf_upset_cb : WellFormed (.outputLine ⟨0, [.storedSample 0 .cb 0 960 .correctable]⟩ 0) = false := by decide
theorem test_wf_upset_cr : WellFormed (.outputLine ⟨0, [.storedSample 0 .cr 0 960 .correctable]⟩ 0) = false := by decide
theorem test_wf_upset_tt : WellFormed (.acquireTimeout [.tableRow 0 .tt .active 256] 0) = false := by decide
theorem test_wf_upset_hc : WellFormed (.acquireTimeout [.tableRow 0 .hc .active 16] 0) = false := by decide
theorem test_wf_upset_vc : WellFormed (.outputBoundary [.tableRow 0 .vc .shadow 16] 0) = false := by decide
theorem test_wf_upset_item : WellFormed (.refExpiry [.carryItem 0 64] .a) = false := by decide
theorem test_wf_line_number : WellFormed (.lineStart now1 0 0 .top false false) = false := by decide
theorem test_wf_marker_number : WellFormed (.pictureMarker now1 0 0 .top false false) = false := by decide
theorem test_wf_chroma : WellFormed (.lineEnd now1 0 [⟨.y, 64⟩, ⟨.cb, 512⟩, ⟨.cr, 512⟩] 0) = false
    ∧ WellFormed (.lineEnd now1 0 [⟨.cb, 512⟩, ⟨.y, 64⟩, ⟨.cr, 512⟩, ⟨.y, 64⟩] 0) = true := by decide
theorem test_wf_chroma_pairs : WellFormed (.lineEnd now1 0 [⟨.y, 64⟩, ⟨.cb, 512⟩, ⟨.y, 64⟩] 0) = false := by decide
theorem test_wf_words : WellFormed (.ancillaryPacket now1 0 [0x60, 1, 0, 0x61, 0]) = false
    ∧ WellFormed (.ancillaryPacket now1 0 [0x60, 1, 0, 0x61]) = true := by decide
theorem test_wf_payload : WellFormed (.identify now1 (send 0 (List.replicate 252 0))) = false
    ∧ WellFormed (.identify now1 (send 0 (List.replicate 251 0))) = true := by decide +kernel
theorem test_wf_bad_code : WellFormed (.badCode now1 (send 0 []) 25) = false
    ∧ WellFormed (.badCode now1 (send 0 []) 26) = true ∧ WellFormed (.badCode now1 (send 0 []) 0) = true := by decide

/-! ### The words of the table -/

/-- No row of the table gives bits, so no word spells a command, and the state stays as it is (log entry 1). -/
theorem test_no_word_spells : decodeTableWord 32 0x12345678 = none ∧ (State.reset.withFetchWord 8 1) = State.reset :=
  ⟨rfl, rfl⟩

/-! ### The spec's worked values -/

/-- The check values that R162 and R159 give. -/
theorem test_crc_check : bytesCrc [0x31, 0x32, 0x33, 0x34, 0x35, 0x36, 0x37, 0x38, 0x39] = 0x29B1#16 := by decide +kernel
/-- The default contents of R159 have the CRCs that the reset gives: 48,855 over 2,048 bytes for TT. -/
theorem test_crc_default : rowsCrc (defaultRows .tt) = 48855#16 ∧ rowsCrc (defaultRows .hc) = 8517#16 :=
  ⟨rowsCrc_defaultRows .tt, rowsCrc_defaultRows .hc⟩
/-- R162: the row (−32, 720, 352, −16) gives the bytes FFh E0h, 02h D0h, 01h 60h, FFh F0h. -/
theorem test_crc_row : rowsCrc [⟨-32, 720, 352, -16, true⟩] = bytesCrc [0xFF, 0xE0, 0x02, 0xD0, 0x01, 0x60, 0xFF, 0xF0] := by
  decide +kernel
/-- Table 6 note B: the checksum word of the example packet is EAh. -/
theorem test_checksum : packetChecksum ⟨65, 5, [5, 9, 21, 255, 200, 180]⟩ = 0xEA#9 := by decide
/-- The worked identification of chapter 1: the window sum 7,207,920 is S08's. -/
theorem test_identification : identifyWindow ⟨1080, 1920, .allTop, some 1125, none⟩ 7207920 = some .s08 := by decide
/-- The worked timeline of chapter 2: marker 2 is absorbed with n_e 12,160,001 and d 53. -/
theorem test_stamp : stampOf (some 11080000) 27 1080000 8 12160054 = .absorbed 0 12160001 53 := by decide
/-- The same: marker 7 is absorbed with two holes from 15,400,014 on and d_prev 175. -/
theorem test_stamp_holes : stampOf (some 14320008) 100 1080000 8 17560189 = .absorbed 2 15400014 175 := by decide
/-- The worked phase sequence of chapter 4, jobs 0 and 2. -/
theorem test_phase : bracketPhase 10340000 10000000 11080000 = 20 ∧ bracketPhase 12141800 11080000 12160000 = 62 := by decide
/-- The worked substitution of chapter 4 across two holes, with the loaded row and with the default one. -/
theorem test_substitution : substitute ⟨true, false, false, true⟩ ⟨-32, 720, 352, -16⟩ = ⟨688, 0, 0, 336⟩
    ∧ substitute ⟨true, false, false, true⟩ ⟨0, 1024, 0, 0⟩ = ⟨1024, 0, 0, 0⟩ := by decide
/-- The worked blends of chapter 4: interior, overshoot, undershoot. -/
theorem test_blend : blendOut 558080 = 545 ∧ blendOut 1294720 = 1019 ∧ blendOut (-241920) = 4 := by decide
/-- The worked mappings of chapter 5: 1920 to 720 at x = 719, 720 to 1920 at x = 0. -/
theorem test_mapping : sixteenths 719 1920 720 = 30690 ∧ neighbourhood (wholePart 30690) 1920 = [1917, 1918, 1919, 1919]
    ∧ phasePart 30690 = 2 ∧ sixteenths 0 720 1920 = -5 ∧ phasePart (-5) = 11 ∧ neighbourhood (-1) 720 = [0, 0, 0, 1] := by
  decide
/-- The worked vertical mapping of chapter 5, BOTTOM 287 of S03 to S01. -/
theorem test_field_mapping : sixteenths 575 1080 576 = 17257 ∧ fieldSixteenths 17257 .top = 8628
    ∧ fieldSixteenths 17257 .bottom = 8620 ∧ fieldSixteenths 7 .bottom = -5 := by decide
/-- The worked spatial values of chapter 5. -/
theorem test_spatial : spatialOut 27770880 = 424 ∧ spatialOut 94519296 = 1023 := by decide
/-- Table 39: drop-frame counts at minute boundaries. -/
theorem test_drop_frame : countToLabel .df30 1799 = ⟨0, 0, 59, 29, true, false⟩ ∧ countToLabel .df30 1800 = ⟨0, 1, 0, 2, true, false⟩
    ∧ countToLabel .df30 17982 = ⟨0, 10, 0, 0, true, false⟩ ∧ countToLabel .df30 2589407 = ⟨23, 59, 59, 29, true, false⟩ := by
  decide
/-- The worked timecode conversion of chapter 8, jobs 0 and 2. -/
theorem test_follow : followCount .s07 .s08 ⟨10, 0, 0, 0, false, false⟩ 10340000 10000000 = 1078921
    ∧ followCount .s07 .s08 ⟨10, 0, 0, 1, false, false⟩ 12141800 11080000 = 1078923
    ∧ labelToCount .df30 ⟨10, 0, 0, 1, true, false⟩ = 1078921 := by decide
/-- The worked lock of chapter 6: k = 2 with Pm 450,495, and the aligned instant 3,702,880 at index 2. -/
theorem test_lock : compatible 450450 900990 = some (false, 2) ∧ measuredPeriod false 2 900990 = 450495
    ∧ firstIndex 2801980 450450 3603600 = 2 ∧ alignedInstant 2801980 450450 2 = 3702880 := by decide

/-! ### Witnesses: steps and laws -/

theorem witness_StepTakesFrontCommand :
    ({ State.reset with pending := [.mute now1 (send 0 []), .unmute now1 (send 0 [])] } : State).pending
      = .mute now1 (send 0 []) :: [.unmute now1 (send 0 [])] := rfl

/-- A MUTE waits in the command queue of IN2. -/
def oneWaits : State :=
  onPart (fun p => { p with mgmt := { p.mgmt with queues := p.mgmt.queues.set 2 [⟨9, 12, 0, []⟩] } })

theorem witness_EveryStepAnswersNext :
    (State.reset.pending = [] ∧ arbiter State.reset.part = none)
      ∧ (oneWaits.pending = [] ∧ arbiter oneWaits.part = some 2 ∧ headBlock oneWaits.part 2 = some ⟨9, 12, 0, []⟩)
      ∧ takenNow 12 now1 (send 0 []) ready := by
  unfold takenNow quiet; decide +kernel

/-- The block that waits is taken in a step without a command (R169, log entry 2). -/
theorem test_unprompted_take : ∃ t : State, step oneWaits = .next t ∧ t.part.mute = true ∧ t.part.mgmt.queues.get 2 = [] :=
  ⟨_, rfl, by decide +kernel⟩

/-- "A take follows at once": the block that waits is taken before the row that comes next has its effect (R169). -/
theorem test_take_comes_first :
    ∃ t, exec (.refMarker now1 .a) oneWaits = .next t ∧ t.part.mute = true ∧ t.part.refA.last = some 1000 :=
  ⟨_, rfl, by decide +kernel⟩

/-- The state after one command packet, MUTE to the device, on IN0. -/
def afterPacket (s : State) : State :=
  match exec (.ancillaryPacket now1 0 (packetWords ⟨0x61, 0x0B, [0, 9, 12, 0]⟩)) s with
  | .next t => t
  | _ => s

/-- Nine command packets in a row lose none: each is taken before the next arrives (R168, R169). -/
theorem test_nine_packets :
    (afterPacket^[9] ready).part.mgmt.lost.get 0 = 0 ∧ (afterPacket^[9] ready).part.mgmt.ctr.commandsTaken = 8
      ∧ ((afterPacket^[9] ready).part.mgmt.queues.get 0).length = 1 := by decide +kernel

/-- A command on a DARK link is not extracted, and not counted as lost (R14, R179). -/
theorem test_dark_link : exec (.mute ⟨0, []⟩ (send 0 [])) State.reset = .next State.reset := rfl

/-- With listen off a command packet is routed like any other (R14, R17). -/
theorem test_listen_off :
    ∃ t, exec (.mute now1 (send 0 []))
        (onPart (fun p => p |> running |> modLink 0 (fun l => { l with settings := { l.settings with listen := false } })))
        = .next t
      ∧ t.part.mute = false ∧ ((t.part.lanes.get 0).carry.map (fun i => i.packet.kind)) = [0x61#8] :=
  ⟨_, rfl, by decide +kernel⟩

/-- A NOTE in FL0 that has been read, LINK_LOST of feed 0 and POOL_DEGRADED latched, device fatal. -/
def logged : State :=
  onPart (fun p =>
    { p with
      store := { p.store with quarantine := 16 }
      fault := { p.fault with
        feedLogs := p.fault.feedLogs.set 0 (some ⟨.badPacket, .note, 5, .none, false, 0, true⟩)
        latches := [.slip 0, .poolDegraded]
        alarm := true
        deviceFatal := true } })

/-- The state from which the laws' witnesses step: a START pending, a feed capturing, a STOP at the front. -/
def busy : State := { onPart busyPart with pending := [.stop now1 (send 32 [])] }

theorem busy_tables (n : Ix) : (busy.part.lanes.get n).tables = ⟨resetTable .tt, resetTable .hc, resetTable .vc⟩
    ∧ (busy.part.lanes.get n).commit = none := by
  fin_cases n <;> exact ⟨rfl, rfl⟩

theorem busy_history : historyOk busy.part := by
  intro n
  fin_cases n
  · exact ⟨by decide +kernel, by decide +kernel, by decide +kernel, ⟨rfl, rfl⟩, (by decide +kernel :
      ∀ e ∈ (busy.part.feeds.get 0).history, e.stamp ≤ 1080000)⟩
  all_goals exact ⟨List.Pairwise.nil, Nat.zero_le 8, by decide +kernel, trivial, rfl⟩

/-- The law of MemoryStaysCanonical, BoundsStay, ReplyPlacesStay, IdleLanesHoldNothing, SlotsAndFreeListAgree and
FaultUnitLawsStay holds of a busy part that takes a STOP. -/
theorem witness_laws_of_a_busy_part :
    memoryOk busy.part ∧ boundsOk busy.part ∧ repliesOk busy.part ∧ recordsOk busy.part ∧ idleOk busy.part
      ∧ storeOk busy.part ∧ alarmOk busy.part ∧ fatalOk busy.part := by
  unfold memoryOk boundsOk repliesOk recordsOk idleOk storeOk pinsOk alarmOk fatalOk
  refine ⟨?_, ?_, ?_, ?_, ?_, ?_, ?_, ?_⟩ <;> decide +kernel

theorem witness_FaultUnitLawsStay : latchesOk logged.part := by unfold latchesOk; decide +kernel

theorem witness_TablesKeepTheirCrc : tablesOk busy.part := by
  intro n
  rw [(busy_tables n).1, (busy_tables n).2]
  exact ⟨resetTable_bankOk .tt, resetTable_bankOk .hc, resetTable_bankOk .vc, fun k hk => by
    have h : (busy.part.lanes.get n).job.kept = none := by fin_cases n <;> rfl
    rw [h] at hk; cases hk⟩

theorem witness_HistoryStaysOrdered : historyOk busy.part := busy_history

/-- The step of the busy part: the STOP is answered last, after the DONE HALTED of the START. -/
theorem witness_a_busy_step :
    ∃ t : State, step busy = .next t ∧ (t.part.lanes.get 0).state = .stopped
      ∧ (t.part.outs.get 0).replies.map (fun r => (r.tag, r.kind, r.status)) = [(3, .done, 2), (7, .done, 0)]
      ∧ (t.part.feeds.get 0).history = [] :=
  ⟨_, rfl, by decide +kernel⟩

theorem witness_LogsAndLatchesStay :
    quiet logged ∧ (∃ t, exec (.ancillaryPacket now1 0 []) logged = .next t)
      ∧ getLog (.fl 0) logged.part = some ⟨.badPacket, .note, 5, .none, false, 0, true⟩
      ∧ (∃ t, exec (.clearLog now1 (send 64 [])) logged = .next t ∧ getLog (.fl 0) t.part = none)
      ∧ Cond.slip 0 ∈ logged.part.fault.latches
      ∧ (∃ t, exec (.ackConditions now1 (send 0 [16, 2, 0, 8])) logged = .next t
        ∧ t.part.fault.latches = [.poolDegraded])
      ∧ Cond.poolDegraded ∈ logged.part.fault.latches ∧ causePresent logged.part .poolDegraded = true
      ∧ logged.part.fault.deviceFatal = true :=
  ⟨⟨rfl, by decide +kernel⟩, ⟨_, rfl⟩, rfl, ⟨_, rfl, by decide +kernel⟩, by decide, ⟨_, rfl, by decide +kernel⟩, by decide, by decide, rfl⟩

theorem witness_SettingsChangeByTheirCommands :
    quiet ready ∧ ∃ t, exec (.setFeed now1 (send 16 [0, 1, 64, 255, 5, 6])) ready = .next t
      ∧ (t.part.links.get 0).settings = ⟨false, .pass, 64, 255, 5, 6⟩ := ⟨⟨rfl, by decide +kernel⟩, _, rfl, by decide +kernel⟩

theorem witness_LinkEventsStayLocal :
    linkEvent (.activityLost now1 0 false) = some (0, now1) ∧ now1.upsets = [] ∧ quiet (onPart running)
      ∧ (∃ t, exec (.activityLost now1 0 false) (onPart running) = .next t
        ∧ t.part.fault.deviceFatal = (onPart running).part.fault.deviceFatal)
      ∧ ((onPart running).part.lanes.get 1).profile.source ≠ 0 :=
  ⟨rfl, rfl, ⟨rfl, by decide +kernel⟩, ⟨_, rfl, by decide +kernel⟩, by decide +kernel⟩

/-- OUT0 in a lock state at an offset, its next boundary at 5,000,000, REF A selected and last seen there. -/
def outAt (lock : Lock) (offset : Nat) : State :=
  onPart (fun p =>
    { modOut 0 (fun o => { o with lock := lock, offset := offset, next := 5000000, select := some .a }) p with
      refA := ⟨true, some 5000000, [540000], some 540000⟩ })

/-- OUT0 in a lock state at its greatest offset. -/
def outIn (lock : Lock) : State := outAt lock 539999

/-- OUT0 in HOLDOVER under LATCHED, a RELOCK pending or not. -/
def latched (pending : Bool) : State :=
  { outIn (.holdover 540162) with
    part := modOut 0 (fun o => { o with policy := .latched, relockPending := pending }) (outIn (.holdover 540162)).part }

theorem witness_BoundaryIntervalLaw :
    (∀ s ∈ [State.reset, outIn .free, outIn (.holdover 540162), latched true, latched false,
        outIn (.locked ⟨false, 1, 540000, 5000000, 0⟩), outAt (.locked ⟨false, 2, 540000, 5000000, 0⟩) 270000],
      quiet s ∧ (s.part.lanes.get 0).profile.output = (s.part.outs.get 0).standard
        ∧ (after (exec (.outputBoundary [] 0) s)).isSome = true
        ∧ (s.part.outs.get 0).offset < periodOf (s.part.outs.get 0).standard)
    ∧ ((State.reset.part.outs.get 0).lock = .free ∧ lockable State.reset.part (State.reset.part.outs.get 0) = none)
    ∧ (∀ s ∈ [outIn .free, outIn (.holdover 540162), latched true],
      lockable s.part (s.part.outs.get 0) = some (false, 1, 540000, 5000000))
    ∧ (((outIn .free).part.outs.get 0).lock = .free ∧ ((outIn (.holdover 540162)).part.outs.get 0).policy = .auto
      ∧ ((latched true).part.outs.get 0).lock = .holdover 540162
      ∧ ((latched true).part.outs.get 0).relockPending = true)
    ∧ (((latched false).part.outs.get 0).policy = .latched ∧ ((latched false).part.outs.get 0).relockPending = false
      ∧ (540162 - (540000 : Int)).natAbs ≤ 540000 * 300 / 1000000) := by
  unfold quiet; decide +kernel

/-- Both cases of a LOCKED output: an aligned instant within floor(Po/1024) of one period later, and none. -/
theorem witness_BoundaryIntervalLaw_locked :
    ((outIn (.locked ⟨false, 1, 540000, 5000000, 0⟩)).part.outs.get 0).lock = .locked ⟨false, 1, 540000, 5000000, 0⟩
      ∧ (∃ j : Nat, ((5000000 : Int) + 539999 + ((j * 540000 : Nat) : Int) - 5540000).natAbs ≤ 540000 / 1024)
      ∧ (∀ j : Nat, 540000 / 1024 < ((5000000 : Int) + 270000 + ((j * 540000 : Nat) : Int) - 5540000).natAbs) :=
  ⟨by decide +kernel, ⟨0, by decide⟩, fun j => by omega⟩

/-- The extremes of the law: a stretch from the aligned instant just past, a pull-in, and a phase step with the parity of
the even-k rule (R108, R109, R110). -/
theorem test_boundary_extremes :
    (∃ t, exec (.outputBoundary [] 0) (outIn (.locked ⟨false, 1, 540000, 5000000, 0⟩)) = .next t
      ∧ (t.part.outs.get 0).next = 5539999)
    ∧ (∃ t, exec (.outputBoundary [] 0) (outIn .free) = .next t ∧ (t.part.outs.get 0).next = 6079999) :=
  ⟨⟨_, rfl, by decide +kernel⟩, ⟨_, rfl, by decide +kernel⟩⟩

theorem test_phase_step :
    ∃ t, exec (.outputBoundary [] 0) (outAt (.locked ⟨false, 2, 540000, 5000000, 0⟩) 270000) = .next t
      ∧ (t.part.outs.get 0).next = 5810000 ∧ (t.part.outs.get 0).nextParity = some .bottom
      ∧ (t.part.outs.get 0).ctr.phaseSteps = 1 := ⟨_, rfl, by decide +kernel⟩

/-- The first boundary belongs to the reset: instant 0, parity TOP, counted, the next one a period later (R106, log
entry 8). -/
theorem test_reset_boundary :
    (State.reset.part.outs.get 0).last = ⟨0, some .top⟩ ∧ (State.reset.part.outs.get 0).next = 540000
      ∧ (State.reset.part.outs.get 0).ctr.boundaries = 1 := by decide +kernel

/-! ### Witnesses: pure functions -/

theorem witness_PacketWordsRoundTrip (k : Packet) (hk : k = ⟨0x60, 1, List.replicate 255 1⟩) :
    k.user.length ≤ 255 ∧ 258 < k.user.length + 4 ∧ (0#9) ≠ packetChecksum k := by subst hk; decide +kernel

theorem witness_LabelsAndCountsAreInverse :
    labelOk .df30 ⟨23, 59, 59, 29, true, true⟩ ∧ labelOk .df30 ⟨0, 1, 0, 2, true, false⟩
      ∧ 2589407 < labelsPerDay .df30 ∧ labelOk (stdRow .s04).rate ⟨23, 59, 59, 29, true, true⟩
      ∧ (stdRow .s04).perLabel = 2 := by unfold labelOk; decide

theorem witness_SubstitutionKeepsTheSum :
    (⟨false, false, false, true⟩ : Presence).some = true ∧ (⟨true, true, true, true⟩ : Presence).some = true := by decide

theorem witness_StampsStayNearArrivals :
    8 ∈ [4, 8, 16, 32, 64]
      ∧ stampOf (some 0) 0 (periodOf .s03) 8 (4 * 540000 + 67500) = .absorbed 3 540000 67500
      ∧ stampOf (some 0) 0 (periodOf .s03) 8 (4 * 540000 + 67501) = .reanchor (4 * 540000 + 67501)
      ∧ stampOf (some 0) 0 (periodOf .s03) 8 0 = .reanchor 1 := by decide

/-! ### Witnesses: events -/

/-- Lane 0 with a COMMIT of its HC table pending that arrived on link `n`. -/
def committing (n : Ix) : State :=
  onPart (fun p =>
    { running p with
      lanes := (running p).lanes.modify 0 (fun l => { l with commit := some ⟨none, some 0x2145, none⟩ })
      outs := p.outs.modify n (fun o => { o with reserved := 1 })
      mgmt := { p.mgmt with laneOps := p.mgmt.laneOps.set 0 (some ⟨.commit, n, 3, 15, false⟩) } })

/-- OUT0 with one line of its picture left; the slate colour at the ends of the range. -/
def lastLine : State :=
  onPart (fun p => p
    |> modOut 0 (fun o => { o with lineNext := 539 })
    |> modLane 0 (fun l => { l with profile := { l.profile with slateY := 4, slateCb := 1019, slateCr := 4 } }))

theorem witness_EmittedSamplesInRange :
    quiet lastLine ∧ (lastLine.part.outs.get 0).lineNext < linesPerPicture (lastLine.part.outs.get 0).standard
      ∧ inEmittedRange (lastLine.part.lanes.get 0).profile.slateY
      ∧ inEmittedRange (lastLine.part.lanes.get 0).profile.slateCb
      ∧ inEmittedRange (lastLine.part.lanes.get 0).profile.slateCr
      ∧ (({ lastLine with part := { lastLine.part with mute := true } } : State).part.mute = true)
      ∧ (lastLine.part.mute = false ∧ (lastLine.part.lanes.get 0).job.inFlight = false) := by
  unfold quiet inEmittedRange; decide +kernel

theorem witness_ActivityMovesTheLink :
    (quiet State.reset ∧ (State.reset.part.links.get 0).state = .dark)
      ∧ (quiet (onPart (linkAt .measuring)) ∧ isLocked ((onPart (linkAt .measuring)).part.links.get 0).state = false)
      ∧ (quiet (onPart running) ∧ isLocked ((onPart running).part.links.get 0).state = true)
      ∧ ((onPart running).part.lanes.get 0).profile.source = 0
      ∧ newest ((onPart running).part.feeds.get 0)
        = some ⟨1, 0, 1080000, .picture 1 1080000, some .bottom, false, 0, none⟩
      ∧ (slotOf (foundBy now1 (onPart running)) 1).intact = true
      ∧ slotOf (onPart running).part 1 = ⟨.filling, some 0, 0, false, 0, true⟩ := by unfold quiet; decide +kernel

/-- Lane 0 of a LOCKED feed with a hold limit and a COMMIT of its HC table pending that arrived on IN1. -/
def holdAt (limit : Nat) : State :=
  onPart (fun p =>
    { modLane 0 (fun l => { l with
        commit := some ⟨none, some 0x2145, none⟩, profile := { l.profile with holdLimit := limit } }) (running p) with
      mgmt := { p.mgmt with laneOps := p.mgmt.laneOps.set 0 (some ⟨.commit, 1, 3, 15, false⟩) } })

/-- The loss of the input (R129, R130), by each event that ends LOCKED, where the part stays out of device fatal. -/
theorem witness_input_loss :
    ∀ limit ∈ [0, 1], (((holdAt limit).part.lanes.get 0).usable = true ∧ quiet (holdAt limit))
      ∧ (∃ t, exec (.activityLost now1 0 false) (holdAt limit) = .next t ∧ t.part.fault.deviceFatal = false)
      ∧ (∃ t, exec (.lineStart now1 0 9 .top false false) (holdAt limit) = .next t ∧ t.part.fault.deviceFatal = false)
      ∧ (∃ t, exec (.pictureMarker now1 0 9 .top false false) (holdAt limit) = .next t
        ∧ t.part.fault.deviceFatal = false) := by
  unfold quiet
  intro limit h
  simp only [List.mem_cons, List.not_mem_nil, or_false] at h
  rcases h with rfl | rfl <;>
    exact ⟨by decide +kernel, ⟨_, rfl, by decide +kernel⟩, ⟨_, rfl, by decide +kernel⟩, ⟨_, rfl, by decide +kernel⟩⟩

/-- A hold limit of 0 goes on to SLATE, which swaps the pending COMMIT and posts its DONE to OUT1 (R130, R163, R174). -/
theorem test_input_loss :
    (∃ t, exec (.activityLost now1 0 false) (holdAt 1) = .next t ∧ (t.part.lanes.get 0).state = .holding
      ∧ Cond.inputLost 0 ∈ t.part.fault.latches ∧ ((t.part.lanes.get 0).commit).isSome = true)
    ∧ (∃ t, exec (.activityLost now1 0 false) (holdAt 0) = .next t ∧ (t.part.lanes.get 0).state = .slate
      ∧ (t.part.outs.get 1).replies = [⟨3, 15, .done, 0, false, []⟩] ∧ Cond.slate 0 ∈ t.part.fault.latches) :=
  ⟨⟨_, rfl, by decide +kernel⟩, ⟨_, rfl, by decide +kernel⟩⟩

/-- IN0 MEASURING with seven periods counted since 0, or LOCKED with six. -/
def windowAt (st : LinkState) (count : Nat) (p : Part) : Part :=
  modLink 0 (fun l => { l with window := some ⟨0, count⟩ }) (linkAt st p)

theorem witness_MarkerIdentifiesTheLink (s : State) (hs : s = onPart (windowAt .measuring 7)) :
    (s.part.links.get 0).state = .measuring
      ∧ (s.part.links.get 0).est = some ⟨540, 1920, .alternating, some 563, some 562⟩
      ∧ (s.part.links.get 0).cur = some ⟨563, 540, some 1920, .top, .top, true, true⟩
      ∧ outOfSequence (s.part.links.get 0).lastNumber 1 true = false
      ∧ (true && breaks ⟨540, 1920, .alternating, some 563, some 562⟩ ⟨563, 540, some 1920, .top, .top, true, true⟩) = false
      ∧ (s.part.links.get 0).window = some ⟨0, 7⟩ ∧ 4321296 = max s.part.timebase 4321296
      ∧ identifyWindow ⟨540, 1920, .alternating, some 563, some 562⟩ (4321296 - 0) = some .s03
      ∧ (s.part.lanes.get 0).profile.source = 0 ∧ quiet s := by subst hs; unfold quiet; decide +kernel

/-- IN0 MEASURING at the eighth marker of S03 with a last identified code, feed 0 holding the pictures of slots 0 and 1,
and lane 0, which sources it, in a state. -/
def reidentifying (last : Option Std) (st : LaneState) : State :=
  onPart (fun p => p |> feedReady |> laneIn st |> windowAt .measuring 7 |> modLink 0 (fun l => { l with lastCode := last }))

theorem witness_MarkerIdentifiesTheLink_flush :
    (∀ st ∈ [LaneState.stopped, .holding], ∀ last ∈ [some Std.s04, some .s03, none],
      ∃ t, exec (.pictureMarker ⟨4321296, []⟩ 0 1 .bottom true false) (reidentifying last st) = .next t
        ∧ ((reidentifying last st).part.links.get 0).lastCode = last
        ∧ t.part.fault.deviceFatal = (reidentifying last st).part.fault.deviceFatal)
      ∧ runningCount (reidentifying (some .s04) .stopped).part 0 = 0
      ∧ runningCount (reidentifying (some .s04) .holding).part 0 = 1
      ∧ (flushFeed 0 (foundBy ⟨4321296, []⟩ (reidentifying (some .s04) .holding))).fault.fatalDue = false := by
  refine ⟨?_, by decide +kernel, by decide +kernel, by decide +kernel⟩
  intro st hst last hl
  simp only [List.mem_cons, List.not_mem_nil, or_false] at hst hl
  rcases hst with rfl | rfl <;> rcases hl with rfl | rfl | rfl <;> exact ⟨_, rfl, rfl, by decide +kernel⟩

/-- Another code flushes, and the marker anchors a new segment; the same code keeps the history (R9). -/
theorem test_reidentification :
    (∃ t, exec (.pictureMarker ⟨4321296, []⟩ 0 1 .bottom true false) (reidentifying (some .s04) .holding) = .next t
      ∧ (t.part.feeds.get 0).history = [⟨2, 1, 4321296, .picture 2 4321296, some .bottom, false, 0, none⟩]
      ∧ (slotOf t.part 0).state = .free ∧ (slotOf t.part 1).state = .free)
    ∧ (∃ t, exec (.pictureMarker ⟨4321296, []⟩ 0 1 .bottom true false) (reidentifying (some .s03) .stopped) = .next t
      ∧ (t.part.feeds.get 0).history.length = 2) := ⟨⟨_, rfl, by decide +kernel⟩, ⟨_, rfl, by decide +kernel⟩⟩

/-- Lane 0 in HOLDING with its input not usable and the input standard given, at an identification of S03. -/
def returning (input : Std) : State :=
  { reidentifying (some .s03) .holding with
    part := modLane 0 (fun l => { l with usable := false, profile := { l.profile with input := input } })
      (reidentifying (some .s03) .holding).part }

theorem witness_MarkerIdentifiesTheLink_return :
    ∀ input ∈ [Std.s03, .s04], ((foundBy ⟨4321296, []⟩ (returning input)).lanes.get 0).usable = false
      ∧ ((foundBy ⟨4321296, []⟩ (returning input)).lanes.get 0).profile.source = 0
      ∧ isRunning ((foundBy ⟨4321296, []⟩ (returning input)).lanes.get 0).state = true := by decide +kernel

/-- The input standard takes HOLDING to ACQUIRING; another code latches STD_MISMATCH (R123, R131). -/
theorem test_input_return :
    (∃ t, exec (.pictureMarker ⟨4321296, []⟩ 0 1 .bottom true false) (returning .s03) = .next t
      ∧ (t.part.lanes.get 0).state = .acquiring ∧ Cond.stdMismatch 0 ∉ t.part.fault.latches)
    ∧ (∃ t, exec (.pictureMarker ⟨4321296, []⟩ 0 1 .bottom true false) (returning .s04) = .next t
      ∧ (t.part.lanes.get 0).state = .holding ∧ Cond.stdMismatch 0 ∈ t.part.fault.latches) :=
  ⟨⟨_, rfl, by decide +kernel⟩, ⟨_, rfl, by decide +kernel⟩⟩

/-- IN0 in SEEKING before its first candidate, with one begun, and with one recorded. -/
def searching (cur : Option Current) (recorded : Option Measured) : State :=
  onPart (fun p => p |> linkAt .seeking |> modLink 0 (fun l => { l with cur := cur, recorded := recorded }))

theorem witness_MarkerIdentifiesTheLink_by_state :
    (quiet State.reset ∧ (State.reset.part.links.get 0).state = .dark)
      ∧ (∀ s ∈ [searching none none, searching (some ⟨563, 540, some 1920, .top, .top, true, false⟩) none,
          searching (some ⟨563, 540, some 1920, .top, .top, true, false⟩) (some ⟨562, 540, 1920, .bottom⟩)],
        quiet s ∧ (s.part.links.get 0).state = .seeking ∧ outOfSequence (s.part.links.get 0).lastNumber 1 true = false
          ∧ outOfSequence (s.part.links.get 0).lastNumber 9 true = true)
      ∧ (∀ st ∈ [LinkState.measuring, .locked .s03], quiet (onPart (windowAt st 7))
        ∧ extracts ((onPart (windowAt st 7)).part.links.get 0).state = true
        ∧ outOfSequence ((onPart (windowAt st 7)).part.links.get 0).lastNumber 9 true = true
        ∧ outOfSequence ((onPart (windowAt st 7)).part.links.get 0).lastNumber 1126 true = false)
      ∧ breaks ⟨540, 1920, .alternating, some 563, some 562⟩ ⟨564, 540, some 1920, .top, .top, true, true⟩ = true
      ∧ (identifyWindow ⟨540, 1920, .alternating, some 563, some 562⟩ (4321297 - 0) = none
        ∧ ((onPart id).part.links.get 0).window = none)
      ∧ 8 * periodOf .s03 * 300 / 1000000
        < (((4321297 - 0 : Nat) : Int) - ((8 * periodOf .s03 : Nat) : Int)).natAbs
      ∧ (rowMatches ⟨540, 1920, .alternating, none, none⟩ 4321296 .s03 = true) := by unfold quiet; decide +kernel

/-- The structure of `linkAt` and the picture that its next marker ends. -/
def est0 : Established := ⟨540, 1920, .alternating, some 563, some 562⟩
def cur0 : Current := ⟨563, 540, some 1920, .top, .top, true, true⟩

/-- IN0 LOCKED with S03 and the window given, capture OFF. -/
def lockedAt (w : Option Window) : State :=
  onPart (fun p => p |> linkAt (.locked .s03) |> modLink 0 (fun l => { l with window := w }))

/-- A marker is handed on after a missed one, within a window, and at the end of one at the edge of the tolerance. -/
theorem witness_MarkerIdentifiesTheLink_handed_on :
    (∀ w ∈ [none, some ⟨0, 6⟩, some ⟨0, 7⟩], quiet (lockedAt w) ∧ ((lockedAt w).part.feeds.get 0).captureOn = false)
      ∧ handsOn (lockedAt none) 0 1 .s03 est0 cur0 4321296
      ∧ handsOn (lockedAt (some ⟨0, 6⟩)) 0 1 .s03 est0 cur0 4321296
      ∧ handsOn (lockedAt (some ⟨0, 7⟩)) 0 1 .s03 est0 cur0 4321296 :=
  ⟨by unfold quiet; decide +kernel, ⟨rfl, rfl, rfl, rfl, rfl, fun _ h => (by cases h)⟩,
    ⟨rfl, rfl, rfl, rfl, rfl, fun _ h => (by cases h; decide)⟩,
    ⟨rfl, rfl, rfl, rfl, rfl, fun _ h => (by cases h; decide)⟩⟩

/-- The eighth period inside the tolerance begins a new window at the marker (R10). -/
theorem test_rate_check_passes :
    ∃ t, exec (.pictureMarker ⟨4321296, []⟩ 0 1 .bottom true false) (lockedAt (some ⟨0, 7⟩)) = .next t
      ∧ (t.part.links.get 0).state = .locked .s03 ∧ (t.part.links.get 0).window = some ⟨4321296, 0⟩ :=
  ⟨_, rfl, by decide +kernel⟩

/-- The search: a consistent pair takes the link to MEASURING (R6); a window outside the tolerance of 1296 loses the lock
(R10). -/
theorem test_search_and_rate :
    (∃ t, exec (.pictureMarker now1 0 1 .bottom true false)
        (searching (some ⟨563, 540, some 1920, .top, .top, true, false⟩) (some ⟨562, 540, 1920, .bottom⟩)) = .next t
      ∧ (t.part.links.get 0).est = some ⟨540, 1920, .alternating, some 563, some 562⟩
      ∧ (t.part.links.get 0).window = some ⟨1000, 0⟩)
    ∧ (∃ t, exec (.pictureMarker ⟨4321297, []⟩ 0 1 .bottom true false) (onPart (windowAt (.locked .s03) 7)) = .next t
      ∧ (t.part.links.get 0).state = .seeking) := ⟨⟨_, rfl, by decide +kernel⟩, ⟨_, rfl, by decide +kernel⟩⟩


/-- IN0 LOCKED, feed 0 capturing with an empty history. -/
def anchoring : State :=
  onPart (fun p => p |> windowAt (.locked .s03) 6 |> storeReady |> laneIn .acquiring
    |> modFeed 0 (fun f => { f with captureOn := true }))

theorem witness_MarkerAnchorsAPicture :
    handsOn anchoring 0 1 .s03 est0 cur0 1000 ∧ quiet anchoring
      ∧ (anchoring.part.feeds.get 0).captureOn = true ∧ (anchoring.part.feeds.get 0).history = []
      ∧ (anchoring.part.feeds.get 0).lastStamp = none ∧ heldBy anchoring.part 0 < 11
      ∧ anchoring.part.store.freeList = 2 :: (List.finRange 64).drop 3
      ∧ (slotOf (foundBy now1 anchoring) 2).intact = true ∧ (slotOf anchoring.part 2).state = .free :=
  ⟨⟨rfl, rfl, rfl, rfl, rfl, fun _ h => (by cases h; decide)⟩, by unfold quiet; decide +kernel⟩

/-- IN0 LOCKED within a window, feed 0 capturing with settled entries, the last stamp 540,000. -/
def capturing (history : List Entry) (g : Part → Part) : State :=
  onPart (fun p => p |> windowAt (.locked .s03) 6 |> storeReady
    |> modFeed 0 (fun f => { f with captureOn := true, lastStamp := some 540000, nextSeq := 8, history := history }) |> g)

/-- A complete picture in slot 0, and a MISSED hole. -/
def oldPicture : Entry := ⟨0, 0, 540000, .picture 0 540000, some .top, true, 0, none⟩
def oldHole (q : Nat) : Entry := ⟨q, 0, 540000 + q, .hole .missed, some .top, true, 0, none⟩

/-- A full history, its oldest entry the picture in slot 0. -/
def fullHistory : List Entry := oldPicture :: (List.range 7).map (fun i => oldHole (i + 1))

/-- Feed 0 at the ceiling of 11 slots. -/
def atCeiling (p : Part) : Part :=
  modStore (fun st => { st with
    slots := st.slots.mapFinIdx (fun i r _ => if i < 11 then { r with state := .history, owner := some 0 } else r) }) p

theorem witness_PictureStartsKeepTheTimeline_handed_on (now : Nat) :
    handsOn (capturing [oldPicture] id) 0 1 .s03 est0 cur0 now ∧ handsOn (capturing fullHistory id) 0 1 .s03 est0 cur0 now
      ∧ handsOn (capturing [oldPicture] atCeiling) 0 1 .s03 est0 cur0 now
      ∧ handsOn (capturing [oldPicture] (modStore (fun st => { st with freeList := [] }))) 0 1 .s03 est0 cur0 now := by
  refine ⟨?_, ?_, ?_, ?_⟩ <;> exact ⟨rfl, rfl, rfl, rfl, rfl, fun _ h => (by cases h; exact Or.inl (by decide))⟩

theorem witness_PictureStartsKeepTheTimeline :
    (∀ s ∈ [capturing [oldPicture] id, capturing fullHistory id, capturing [oldPicture] atCeiling,
        capturing [oldPicture] (modStore (fun st => { st with freeList := [] }))],
      quiet s ∧ (s.part.feeds.get 0).captureOn = true
        ∧ (newest (s.part.feeds.get 0)).any isOpenPicture = false ∧ (s.part.feeds.get 0).nextSeq = 8)
      ∧ (stampOf (some 540000) 0 (periodOf .s03) 8 1300000 = .reanchor 1300000
        ∧ stampOf (some 540000) 0 (periodOf .s03) 8 2700000 = .absorbed 3 1080000 0
        ∧ stampOf (some 540000) 0 (periodOf .s03) 8 1080000 = .absorbed 0 1080000 0
        ∧ stampOf none 0 (periodOf .s03) 8 1080000 = .anchor)
      ∧ (∀ h ∈ [[oldPicture], fullHistory], heldBy (capturing h id).part 0 < 11
        ∧ (capturing h id).part.store.freeList = 2 :: (List.finRange 64).drop 3
        ∧ (slotOf (foundBy now1 (capturing h id)) 2).intact = true ∧ (slotOf (capturing h id).part 2).state = .free)
      ∧ 11 ≤ heldBy (capturing [oldPicture] atCeiling).part 0
      ∧ (fullHistory.drop 1).length = 7
      ∧ slotOf (foundBy now1 (capturing fullHistory id)) 0 = ⟨.history, some 0, 0, false, 0, true⟩ := by
  unfold quiet; decide +kernel

/-- Feed 0 with an incomplete PICTURE in slot 1 as its newest entry. -/
def leftover : State := capturing [oldPicture, ⟨7, 0, 540000, .picture 1 540000, some .bottom, false, 0, none⟩] id

theorem witness_PictureStartsKeepTheTimeline_leftover :
    handsOn leftover 0 1 .s03 est0 cur0 1080000 ∧ quiet leftover ∧ (leftover.part.feeds.get 0).captureOn = true
      ∧ newest (leftover.part.feeds.get 0) = some ⟨7, 0, 540000, .picture 1 540000, some .bottom, false, 0, none⟩
      ∧ slotOf (foundBy ⟨1080000, []⟩ leftover) 1 = ⟨.filling, some 0, 0, false, 0, true⟩ :=
  ⟨⟨rfl, rfl, rfl, rfl, rfl, fun _ h => (by cases h; exact Or.inl (by decide))⟩, by unfold quiet; decide +kernel⟩

/-- The leftover entry is an ABANDONED hole before the picture is appended (R31, R36). -/
theorem test_leftover :
    ∃ t, exec (.pictureMarker ⟨1080000, []⟩ 0 1 .bottom true false) leftover = .next t
      ∧ (t.part.feeds.get 0).history.map Entry.kind
        = [.picture 0 540000, .hole .abandoned, .picture 2 1080000]
      ∧ (slotOf t.part 1).state = .free ∧ (t.part.feeds.get 0).ctr.holesAbandoned = 1
      ∧ (getLog (.fl 0) t.part).map (fun r => (r.code, r.detail)) = some (.abandoned, .sequence 7) :=
  ⟨_, rfl, by decide +kernel⟩

/-- Three MISSED holes of the gap and then the picture (R26); a full history gives up its oldest (R30). -/
theorem test_gap_and_room :
    (∃ t, exec (.pictureMarker ⟨2700000, []⟩ 0 1 .bottom true false) (capturing [oldPicture] id) = .next t
      ∧ (t.part.feeds.get 0).history.map (fun e => (e.seq, e.stamp, e.parity))
        = [(0, 540000, some .top), (8, 1080000, some .bottom), (9, 1620000, some .top), (10, 2160000, some .bottom),
          (11, 2700000, some .bottom)])
    ∧ (∃ t, exec (.pictureMarker ⟨1080000, []⟩ 0 1 .bottom true false) (capturing fullHistory id) = .next t
      ∧ (t.part.feeds.get 0).history.length = 8 ∧ (slotOf t.part 0).state = .free
      ∧ t.part.store.freeList.getLast? = some 0) := ⟨⟨_, rfl, by decide +kernel⟩, ⟨_, rfl, by decide +kernel⟩⟩

/-- At the ceiling the picture is a NO_BUFFER hole, and the refusal is counted (R32, R49). -/
theorem test_no_buffer :
    ∃ t, exec (.pictureMarker ⟨1080000, []⟩ 0 1 .bottom true false) (capturing [oldPicture] atCeiling) = .next t
      ∧ (newest (t.part.feeds.get 0)).map Entry.kind = some (.hole .noBuffer) ∧ t.part.store.ctr.refusedCeiling = 1 :=
  ⟨_, rfl, by decide +kernel⟩


/-- IN0 with a run of missed markers. -/
def missedAt (st : LinkState) (run : Nat) : State :=
  onPart (fun p => p |> linkAt st |> modLink 0 (fun l => { l with missedRun := run }))

theorem witness_MissedMarkersCount :
    (quiet (missedAt (.locked .s03) 1) ∧ extracts ((missedAt (.locked .s03) 1).part.links.get 0).state = true
      ∧ ((missedAt (.locked .s03) 1).part.links.get 0).est = some ⟨540, 1920, .alternating, some 563, some 562⟩
      ∧ ((missedAt (.locked .s03) 1).part.links.get 0).cur = some ⟨563, 540, some 1920, .top, .top, true, true⟩
      ∧ ((missedAt (.locked .s03) 1).part.links.get 0).missedRun < 2)
    ∧ (extracts ((missedAt .measuring 2).part.links.get 0).state = true
      ∧ ((missedAt .measuring 2).part.links.get 0).missedRun = 2
      ∧ ((missedAt (.locked .s03) 2).part.links.get 0).missedRun = 2)
    ∧ (∀ st ∈ [LinkState.seeking, .measuring, .locked .s03], quiet (onPart (linkAt st))
      ∧ ((onPart (linkAt st)).part.links.get 0).state = st
      ∧ outOfSequence ((onPart (linkAt st)).part.links.get 0).lastNumber 7 false = true
      ∧ outOfSequence ((onPart (linkAt st)).part.links.get 0).lastNumber 1126 false = false)
    ∧ (quiet State.reset ∧ (State.reset.part.links.get 0).state = .dark) := by
  unfold quiet; decide +kernel

theorem witness_LineEndChecksTheLine :
    (∀ f ∈ [running, linkAt .seeking, lockedLink], quiet (onPart f) ∧ memoryOk (onPart f).part
      ∧ ((onPart f).part.links.get 0).line = some true)
    ∧ (((onPart running).part.links.get 0).state = .locked .s03
      ∧ ((onPart running).part.links.get 0).cur = some ⟨563, 540, some 1920, .top, .top, true, true⟩
      ∧ ((onPart running).part.feeds.get 0).captureOn = true
      ∧ newest ((onPart running).part.feeds.get 0)
        = some ⟨1, 0, 1080000, .picture 1 1080000, some .bottom, false, 0, none⟩
      ∧ 540 - 1 < linesPerPicture .s03 ∧ 1919 < componentWidth .s03 .y ∧ 959 < componentWidth .s03 .cr
      ∧ ((List.replicate 1920 (⟨.y, 100⟩ : LinkSample)).filter (fun x => x.comp == .y))[1919]?.isSome = true)
    ∧ (isLocked ((onPart (linkAt .seeking)).part.links.get 0).state = false
      ∧ ((onPart lockedLink).part.feeds.get 0).captureOn = false) := by
  unfold quiet memoryOk; decide +kernel

/-- The samples of the last line go to line 539 of the slot, component by component (R33, R47); elsewhere it is black. -/
theorem test_line_is_stored :
    ∃ t, exec (.lineEnd now1 0 [⟨.cb, 600⟩, ⟨.y, 100⟩, ⟨.cr, 700⟩, ⟨.y, 101⟩] 0) (onPart running) = .next t
      ∧ memoryRead t.part.store.mem (sampleAddress 1 .y 539 1) = 101
      ∧ memoryRead t.part.store.mem (sampleAddress 1 .cb 539 0) = 600
      ∧ memoryRead t.part.store.mem (sampleAddress 1 .cr 539 0) = 700
      ∧ memoryRead t.part.store.mem (sampleAddress 1 .y 539 2) = 64 := ⟨_, rfl, by decide +kernel⟩

/-- The last active line of a picture ends with `errors` line errors. -/
def completing (errors : Nat) : State :=
  onPart (fun p => p |> running |> modLink 0 (fun l => { l with lineErrors := errors }))

theorem witness_CompletionSettlesThePicture (errors : Nat) (h : errors = 4 ∨ errors = 3) :
    quiet (completing errors) ∧ ((completing errors).part.links.get 0).state = .locked .s03
      ∧ ((completing errors).part.links.get 0).line = some true
      ∧ ((completing errors).part.links.get 0).cur = some ⟨563, 540, some 1920, .top, .top, true, true⟩
      ∧ ((completing errors).part.links.get 0).est = some ⟨540, 1920, .alternating, some 563, some 562⟩
      ∧ ((completing errors).part.feeds.get 0).captureOn = true
      ∧ newest ((completing errors).part.feeds.get 0)
        = some ⟨1, 0, 1080000, .picture 1 1080000, some .bottom, false, 0, none⟩
      ∧ (slotOf (foundBy now1 (completing errors)) 1).intact = true
      ∧ (slotOf (completing errors).part 1) = ⟨.filling, some 0, 0, false, 0, true⟩
      ∧ ((completing errors).part.links.get 0).settings.threshold = 4
      ∧ errors = (if (0xFFFF#16) = lineCheck [] then ((completing errors).part.links.get 0).lineErrors
        else saturate 65535 ((completing errors).part.links.get 0).lineErrors) := by
  unfold quiet; rcases h with rfl | rfl <;> decide +kernel

/-- At the threshold the picture is discarded, below it kept (R34). -/
theorem test_completion_threshold :
    (∃ t, exec (.lineEnd now1 0 [] 0xFFFF#16) (completing 4) = .next t ∧ (slotOf t.part 1).state = .free)
    ∧ (∃ t, exec (.lineEnd now1 0 [] 0xFFFF#16) (completing 3) = .next t ∧ (slotOf t.part 1).state = .history) :=
  ⟨⟨_, rfl, by decide +kernel⟩, ⟨_, rfl, by decide +kernel⟩⟩

theorem witness_PacketsReachTheCommandQueue :
    (quiet State.reset ∧ extracts (State.reset.part.links.get 0).state = false)
      ∧ (quiet (onPart running) ∧ extracts ((onPart running).part.links.get 0).state = true
        ∧ acceptPacket [0x61, 0x0B, 0, 0] = none)
      ∧ (acceptPacket (packetWords ⟨0x61, 0x0B, [0, 9, 1]⟩) = some ⟨0x61, 0x0B, [0, 9, 1]⟩
        ∧ acceptPacket (packetWords ⟨0x61, 0x0B, [0, 9, 1, 0]⟩) = some ⟨0x61, 0x0B, [0, 9, 1, 0]⟩
        ∧ ((onPart running).part.links.get 0).settings.listen = true
        ∧ (BitVec.ofNat 8 (onPart running).part.straps.address.val : Byte) = 0) := by
  unfold quiet; decide +kernel

/-- Eight blocks wait at IN0 for a full reply queue: the ninth is lost and counted (R168, R169). -/
theorem test_queue_full :
    ∃ t, exec (.ancillaryPacket now1 0 (packetWords ⟨0x61, 0x0B, [0, 9, 1, 0]⟩))
        (onPart (fun p => { running p with
          outs := p.outs.modify 0 (fun o => { o with replies := List.replicate 16 ⟨1, 1, .done, 0, false, []⟩ })
          mgmt := { p.mgmt with queues := p.mgmt.queues.set 0 (List.replicate 8 ⟨1, 1, 0, []⟩) } }))
        = .next t
      ∧ (t.part.mgmt.queues.get 0).length = 8 ∧ t.part.mgmt.lost.get 0 = 1 ∧ t.part.mgmt.ctr.commandsLost = 1 :=
  ⟨_, rfl, by decide +kernel⟩

theorem witness_LanesTakeRoutingOffers :
    quiet (onPart running) ∧ extracts ((onPart running).part.links.get 0).state = true
      ∧ acceptPacket (packetWords ⟨0x41, 5, [1]⟩) = some ⟨0x41, 5, [1]⟩
      ∧ isCommand (onPart running).part 0 ⟨0x41, 5, [1]⟩ = false
      ∧ isTimecode (onPart running).part 0 ⟨0x41, 5, [1]⟩ = false
      ∧ currentEntry (onPart running).part 0 = some ⟨1, 0, 1080000, .picture 1 1080000, some .bottom, false, 0, none⟩
      ∧ currentEntry (onPart lockedLink).part 0 = none := by
  unfold quiet; decide +kernel

/-- Two entries match, the first of them decides; without a match the default does (R140, R141). -/
theorem witness_LanesTakeRoutingOffers_table :
    (∀ e, (fun x : RouteEntry => x.kind = 1 ∧ (x.subkind = none ∨ x.subkind = some 2)) e ↔
        e.kind = (1 : Byte) ∧ (e.subkind = none ∨ e.subkind = some 2))
      ∧ routeOf ⟨.carry, [⟨1, some 3, .carry⟩] ++ ⟨1, none, .drop⟩ :: [⟨1, some 2, .carry⟩]⟩ ⟨1, 2, []⟩ = .drop
      ∧ routeOf ⟨.carry, [⟨1, some 3, .drop⟩]⟩ ⟨1, 2, []⟩ = .carry := ⟨fun _ => Iff.rfl, by decide⟩

theorem witness_LabelsReachTheNewestEntry :
    quiet (onPart running) ∧ acceptPacket (packetWords ⟨0x60, 1, [23, 59, 59, 24, 2]⟩) = some ⟨0x60, 1, [23, 59, 59, 24, 2]⟩
      ∧ isCommand (onPart running).part 0 ⟨0x60, 1, [23, 59, 59, 24, 2]⟩ = false
      ∧ isTimecode (onPart running).part 0 ⟨0x60, 1, [23, 59, 59, 24, 2]⟩ = true
      ∧ (extracts ((onPart lockedLink).part.links.get 0).state = true ∧ currentEntry (onPart lockedLink).part 0 = none)
      ∧ ((onPart running).part.links.get 0).state = .locked .s03
      ∧ currentEntry (onPart running).part 0 = some ⟨1, 0, 1080000, .picture 1 1080000, some .bottom, false, 0, none⟩
      ∧ (labelOk (stdRow .s03).rate ⟨23, 59, 59, 24, false, true⟩ ∧ (stdRow .s03).perLabel = 2
        ∧ [23, 59, 59, 24, 2] = labelWords ⟨23, 59, 59, 24, false, true⟩)
      ∧ ((onPart running).part.lanes.get 0).profile.source = 0
      ∧ isRunning ((onPart running).part.lanes.get 0).state = true := by
  unfold quiet labelOk; decide +kernel

/-- Words that fail the frames, the drop flag, the dropped label and the number of words (R147). -/
theorem witness_invalid_labels :
    labelInvalid .s03 [23, 59, 59, 25, 2] ∧ labelInvalid .s03 [23, 59, 59, 24, 3] ∧ labelInvalid .s04 [0, 9, 0, 1, 1]
      ∧ labelInvalid .s03 [] := by
  refine ⟨?_, ?_, ?_, trivial⟩ <;> exact of_decide_eq_true (p := _ ∨ _) rfl

/-- REF A as given. -/
def refIs (v : RefInput) : State := onPart (fun p => { p with refA := v })

/-- REF A with OUT0 LOCKED to it from `al`, OUT1 FREE. -/
def lockedTo (v : RefInput) : State :=
  { outIn (.locked ⟨false, 1, 540000, 5000000, 0⟩) with
    part := setRef .a v (outIn (.locked ⟨false, 1, 540000, 5000000, 0⟩)).part }

/-- REF A PRESENT with OUT0 LOCKED to it. -/
def followed : State :=
  { outIn (.locked ⟨false, 1, 540000, 5000000, 0⟩) with part := (outIn (.locked ⟨false, 1, 540000, 5000000, 0⟩)).part }

theorem witness_ReferenceMarkersQualify :
    (∀ v ∈ ([⟨false, some 400, [200000], none⟩, ⟨false, some 400, [], none⟩] : List RefInput),
      quiet (refIs v) ∧ v = getRef (refIs v).part .a ∧ v.present = false ∧ v.pr = none ∧ v.last = some 400)
    ∧ (getRef followed.part .a = ⟨true, some 5000000, [540000], some 540000⟩
      ∧ ((((5540162 - 5000000 : Nat) : Int) - (540000 : Int)).natAbs ≤ 540000 * 300 / 1000000)
      ∧ (followed.part.outs.get 0).lock = .locked ⟨false, 1, 540000, 5000000, 0⟩
      ∧ (followed.part.outs.get 0).select = some .a
      ∧ relationHolds false 1 (periodOf (followed.part.outs.get 0).standard) (([540000] ++ [540162]).sum / 2) = true)
    ∧ (quiet (refIs ⟨false, none, [], none⟩) ∧ getRef (refIs ⟨false, none, [], none⟩).part .a = ⟨false, none, [], none⟩)
    ∧ (quiet (lockedTo ⟨true, some 5000000, [540260], some 540260⟩)
      ∧ ((((5540400 - 5000000 : Nat) : Int) - (540260 : Int)).natAbs ≤ 540260 * 300 / 1000000)
      ∧ relationHolds false 1 (periodOf .s03) (([540260] ++ [540400]).sum / 2) = false)
    ∧ (quiet followed ∧ 540000 * 300 / 1000000 < (((5540163 - 5000000 : Nat) : Int) - (540000 : Int)).natAbs
      ∧ (∀ al, (followed.part.outs.get 1).lock = .locked al → (followed.part.outs.get 1).select ≠ some .a)) := by
  refine ⟨?_, ?_, ?_, ?_, ?_, ?_, fun _ h => (by cases h)⟩ <;> (try unfold quiet) <;> decide +kernel

/-- A marker that disagrees by 163 TU ends the reference, its interval kept (R103); one that agrees while the mean leaves
the tolerance of 270 ends the lock with Pm as it stood (R109, R111). -/
theorem test_reference_lost :
    (∃ t, exec (.refMarker ⟨5540163, []⟩ .a) followed = .next t
      ∧ getRef t.part .a = ⟨false, some 5540163, [540163], none⟩ ∧ (t.part.outs.get 0).lock = .holdover 540000)
    ∧ (∃ t, exec (.refMarker ⟨5540400, []⟩ .a) (lockedTo ⟨true, some 5000000, [540260], some 540260⟩) = .next t
      ∧ getRef t.part .a = ⟨true, some 5540400, [540260, 540400], some 540330⟩
      ∧ (t.part.outs.get 0).lock = .holdover 540000) := ⟨⟨_, rfl, by decide +kernel⟩, ⟨_, rfl, by decide +kernel⟩⟩

theorem witness_ReferenceExpires :
    (getRef followed.part .a = ⟨true, some 5000000, [540000], some 540000⟩
      ∧ (followed.part.outs.get 0).lock = .locked ⟨false, 1, 540000, 5000000, 0⟩
      ∧ (followed.part.outs.get 0).select = some .a)
    ∧ (quiet State.reset ∧ expiryOf (getRef State.reset.part .b) = none) := by
  unfold quiet; decide +kernel

/-- OUT0 has three replies and a notice; its lane's output standard is the one given. -/
def idleOut (std : Std) : State :=
  onPart (fun p => p
    |> modOut 0 (fun o => { o with replies := List.replicate 3 ⟨1, 1, .done, 0, false, []⟩, notices := [.slip 0], offset := 539999 })
    |> modLane 0 (fun l => { l with profile := { l.profile with output := std } }))

theorem witness_BoundaryOfAnIdleOutput :
    (∀ std ∈ [Std.s03, .s04], quiet (idleOut std) ∧ runsJobs ((idleOut std).part.lanes.get 0).state = false
      ∧ ((idleOut std).part.lanes.get 0).job.inFlight = false ∧ ((idleOut std).part.outs.get 0).select = none
      ∧ ((idleOut std).part.outs.get 0).lock = .free ∧ (idleOut std).part.mgmt.outOps.get 0 = none)
    ∧ ((idleOut .s04).part.lanes.get 0).profile.output ≠ ((idleOut .s04).part.outs.get 0).standard := by
  unfold quiet; decide +kernel

/-- OUT0 in HOLDOVER with a RELOCK pending that arrived on link `origin`, a reply waiting, REF A selected or not, and its
lane's output standard the one given. -/
def relockAt (origin : Ix) (select : Option RefId) (std : Std) : State :=
  onPart (fun p =>
    { p |> modOut 0 (fun o => { o with
          lock := .holdover 540000, relockPending := true, select := select, next := 5000000
          replies := [⟨1, 1, .done, 0, false, []⟩] })
        |> modOut origin (fun o => { o with reserved := 1 })
        |> modLane 0 (fun l => { l with profile := { l.profile with output := std } }) with
      refA := ⟨true, some 4990000, [540000], some 540000⟩
      mgmt := { p.mgmt with outOps := p.mgmt.outOps.set 0 (some ⟨.relock, origin, 3, 17, false⟩) } })

/-- A pending RELOCK at the boundary that aligns and at a change of standard, its own link that of the output or another. -/
theorem witness_boundary_ends_relock :
    ∀ origin ∈ [(0 : Ix), 2],
      (quiet (relockAt origin (some .a) .s03)
        ∧ ((relockAt origin (some .a) .s03).part.lanes.get 0).profile.output
          = ((relockAt origin (some .a) .s03).part.outs.get 0).standard
        ∧ lockable (relockAt origin (some .a) .s03).part ((relockAt origin (some .a) .s03).part.outs.get 0)
          = some (false, 1, 540000, 4990000)
        ∧ ∃ t, exec (.outputBoundary [] 0) (relockAt origin (some .a) .s03) = .next t
          ∧ t.part.fault.deviceFatal = false ∧ t.part.mgmt.laneOps.get 0 = none)
      ∧ (quiet (relockAt origin none .s04) ∧ ((relockAt origin none .s04).part.outs.get 0).select = none
        ∧ runsJobs ((relockAt origin none .s04).part.lanes.get 0).state = false
        ∧ ((relockAt origin none .s04).part.lanes.get 0).profile.output
          ≠ ((relockAt origin none .s04).part.outs.get 0).standard) := by
  unfold quiet
  intro origin h
  simp only [List.mem_cons, List.not_mem_nil, or_false] at h
  rcases h with rfl | rfl <;>
    exact ⟨⟨by decide +kernel, by decide +kernel, by decide +kernel, _, rfl, by decide +kernel⟩, by decide +kernel⟩

/-- The DONE of the RELOCK: after the replies placed at the alignment (R112), before them at a change of standard (R115). -/
theorem test_boundary_ends_relock :
    (∃ t, exec (.outputBoundary [] 0) (relockAt 0 (some .a) .s03) = .next t
      ∧ (t.part.outs.get 0).replies = [⟨3, 17, .done, 0, false, []⟩] ∧ (t.part.outs.get 0).packets.length = 1
      ∧ (t.part.outs.get 0).reserved = 0)
    ∧ (∃ t, exec (.outputBoundary [] 0) (relockAt 0 none .s04) = .next t ∧ (t.part.outs.get 0).replies = []
      ∧ (t.part.outs.get 0).packets.length = 2 ∧ (t.part.outs.get 0).relockPending = false) :=
  ⟨⟨_, rfl, by decide +kernel⟩, ⟨_, rfl, by decide +kernel⟩⟩

/-- Two replies are placed and no notice; a change of standard is counted (R115, R116, R117). -/
theorem test_idle_boundary :
    ∃ t, exec (.outputBoundary [] 0) (idleOut .s04) = .next t ∧ (t.part.outs.get 0).packets.length = 2
      ∧ (t.part.outs.get 0).notices = [.slip 0] ∧ (t.part.outs.get 0).next = 990450 ∧ (t.part.outs.get 0).offset = 0
      ∧ (t.part.outs.get 0).last = ⟨540000, some .top⟩ ∧ (t.part.outs.get 0).ctr.standardChanges = 1 :=
  ⟨_, rfl, by decide +kernel⟩

/-- Lane 0 in a state with a hold limit of 1, its next boundary at 3,000,000. -/
def startingIn (st : LaneState) : State :=
  onPart (fun p => p |> running |> laneIn st
    |> modOut 0 (fun o => { o with next := 3000000 })
    |> modLane 0 (fun l => { l with profile := { l.profile with holdLimit := 1 } }))

theorem witness_BoundaryStartsAJob (st : LaneState) (h : st = .acquiring ∨ st = .converting ∨ st = .holding) :
    quiet (startingIn st)
      ∧ ((foundBy ⟨((startingIn st).part.outs.get 0).next.toNat, []⟩ (startingIn st)).lanes.get 0).profile.output
        = ((startingIn st).part.outs.get 0).standard
      ∧ runsJobs ((foundBy ⟨((startingIn st).part.outs.get 0).next.toNat, []⟩ (startingIn st)).lanes.get 0).state = true
      ∧ (∀ i ∈ ((foundBy ⟨((startingIn st).part.outs.get 0).next.toNat, []⟩ (startingIn st)).lanes.get 0).carry,
        i.parityOk = true)
      ∧ ∃ t, exec (.outputBoundary [] 0) (startingIn st) = .next t
        ∧ t.part.fault.deviceFatal = (startingIn st).part.fault.deviceFatal := by
  unfold quiet
  rcases h with rfl | rfl | rfl
  · exact ⟨by decide +kernel, by decide +kernel, by decide +kernel, by decide +kernel, _, rfl, by decide +kernel⟩
  · exact ⟨by decide +kernel, by decide +kernel, by decide +kernel, by decide +kernel, _, rfl, by decide +kernel⟩
  · exact ⟨by decide +kernel, by decide +kernel, by decide +kernel, by decide +kernel, _, rfl, by decide +kernel⟩

theorem startingIn_history (st : LaneState) : historyOk (startingIn st).part := by
  have h : (startingIn st).part.feeds = busy.part.feeds := rfl
  unfold historyOk
  rw [h]
  exact busy_history

/-- The hypotheses of the clauses on taps and fallback, those of JobsPinAndUnpin on the pins of a job start, and a job
without a usable entry. -/
theorem witness_BoundaryStartsAJob_search :
    historyOk (startingIn .converting).part
      ∧ (((startingIn .converting).part.lanes.get 0).job.inFlight = false
        ∧ ((startingIn .converting).part.lanes.get 0).profile.source = 0
        ∧ slotOf (foundBy ⟨3000000, []⟩ (startingIn .converting)) 0 = ⟨.history, some 0, 0, false, 0, true⟩)
      ∧ (∃ t, exec (.outputBoundary [] 0) (startingIn .converting) = .next t
        ∧ (t.part.lanes.get 0).job.t0.entry = some ⟨0, 0, 540000, .picture 0 540000, some .top, true, 0, none⟩
        ∧ jobSlots (t.part.lanes.get 0).job = [0])
      ∧ (quiet { startingIn .converting with part := modFeed 0 (fun f => { f with history := [] }) (startingIn .converting).part }
        ∧ (∃ t, exec (.outputBoundary [] 0)
            { startingIn .converting with
              part := modFeed 0 (fun f => { f with history := [] }) (startingIn .converting).part } = .next t
          ∧ (t.part.lanes.get 0).job.kase = .slate)) :=
  ⟨startingIn_history _, by decide +kernel, ⟨_, rfl, by decide +kernel⟩, ⟨rfl, by decide +kernel⟩, ⟨_, rfl, by decide +kernel⟩⟩

/-- Lane 0 ACQUIRING at a boundary with a START pending, or CONVERTING with a COMMIT of its HC table pending, from IN2. -/
def endingAt (op : PendingOp) (commit : Option CommitRec) (st : LaneState) : State :=
  { startingIn st with
    part := { modLane 0 (fun l => { l with commit := commit, acquireAt := some 77 }) (startingIn st).part with
      mgmt := { (startingIn st).part.mgmt with laneOps := (startingIn st).part.mgmt.laneOps.set 0 (some op) } } }

/-- A job start ends a pending START, its timer cleared, and swaps a pending COMMIT, each with its DONE (R128, R163, R174). -/
theorem test_job_start_ends :
    (∃ t, exec (.outputBoundary [] 0) (endingAt ⟨.start, 2, 3, 9, false⟩ none .acquiring) = .next t
      ∧ (t.part.lanes.get 0).acquireAt = none ∧ (t.part.outs.get 2).replies = [⟨3, 9, .done, 0, false, []⟩])
    ∧ (∃ t, exec (.outputBoundary [] 0)
        (endingAt ⟨.commit, 2, 3, 15, false⟩ (some ⟨none, some 0x2145, none⟩) .converting) = .next t
      ∧ (t.part.lanes.get 0).tables.hc.crc = 0x2145 ∧ (t.part.lanes.get 0).acquireAt = some 77
      ∧ (t.part.outs.get 2).replies = [⟨3, 15, .done, 0, false, []⟩] ∧ t.part.mgmt.laneOps.get 0 = none) :=
  ⟨⟨_, rfl, by decide +kernel⟩, ⟨_, rfl, by decide +kernel⟩⟩

theorem witness_BoundaryStartsAJob_ends :
    quiet (endingAt ⟨.start, 2, 3, 9, false⟩ none .acquiring)
      ∧ laneOpKind (endingAt ⟨.start, 2, 3, 9, false⟩ none .acquiring).part 0 = some .start
      ∧ quiet (endingAt ⟨.commit, 2, 3, 15, false⟩ (some ⟨none, some 0x2145, none⟩) .converting) := by
  unfold quiet; decide +kernel

/-- The target 1,380,000 lies 380,000 TU past the first of two pictures 540,000 apart: BRACKET with φ = floor(64 × 380,000
/ 540,000) = 45, both slots pinned (R67, R69, R71). -/
theorem test_bracket_job :
    ∃ t, exec (.outputBoundary [] 0) (onPart (fun p => p |> running |> modSlot 1 (fun r => { r with state := .history })
        |> modOut 0 (fun o => { o with next := 3000000 })
        |> modFeed 0 (fun f => { f with
            history := [⟨0, 0, 1000000, .picture 0 1000000, some .top, true, 0, none⟩,
                        ⟨1, 0, 1540000, .picture 1 1540000, some .bottom, true, 0, none⟩] }))) = .next t
      ∧ (t.part.lanes.get 0).job.kase = .bracket ∧ (t.part.lanes.get 0).job.phase = some 45
      ∧ (t.part.lanes.get 0).job.pinned = [0, 1] ∧ (slotOf t.part 1).pins = 1 := ⟨_, rfl, by decide +kernel⟩

/-- A job over one usable picture is EARLY_CLAMP with one pin and takes the lane to CONVERTING (R67, R71, R128). -/
theorem test_job_start :
    ∃ t, exec (.outputBoundary [] 0) (startingIn .acquiring) = .next t ∧ (t.part.lanes.get 0).state = .converting
      ∧ (t.part.lanes.get 0).job.kase = .earlyClamp ∧ (t.part.lanes.get 0).job.pinned = [0]
      ∧ (slotOf t.part 0).pins = 1 := ⟨_, rfl, by decide +kernel⟩

/-- Lane 0 CONVERTING in a timecode mode with one picture that carries a label, or none, and one carried packet due; the
parity of the last boundary is given. -/
def timing (mode : TcMode) (label : Option Label) (last : Parity) : State :=
  onPart (fun p => p |> running
    |> modFeed 0 (fun f => { f with history := [⟨0, 0, 540000, .picture 0 540000, some .top, true, 0, label⟩] })
    |> modOut 0 (fun o => { o with next := 3000000, last := ⟨2460000, some last⟩ })
    |> modLane 0 (fun l => { l with
        profile := { l.profile with tcMode := mode }, fresh := false, tcCount := 5
        carry := [⟨⟨0x41, 5, [1]⟩, 540000, some 0, true⟩, ⟨⟨0x41, 5, [2]⟩, 1500000, none, true⟩] }))

/-- The hypotheses of the clauses on carriage and timecode, each mode with q = 0 (after BOTTOM) and q = 1. -/
theorem witness_BoundaryStartsAJob_timecode :
    ∀ s ∈ [timing .off none .bottom, timing .free none .bottom, timing .free none .top, timing .follow none .bottom,
        timing .follow (some ⟨10, 0, 0, 0, false, false⟩) .top,
        timing .follow (some ⟨10, 0, 0, 0, false, false⟩) .bottom],
      quiet s ∧ (s.part.lanes.get 0).profile.output = (s.part.outs.get 0).standard
        ∧ runsJobs (s.part.lanes.get 0).state = true
        ∧ ((s.part.lanes.get 0).carry.all (fun i => i.parityOk)) = true
        ∧ ((after (exec (.outputBoundary [] 0) s)).map (fun p => p.fault.deviceFatal)) = some s.part.fault.deviceFatal := by
  unfold quiet; decide +kernel

/-- FOLLOW takes the source's count (R153): 10:00:00:00 is 900,000, and the target 1,380,000 lies 840,000 TU after the
picture, within the first label frame. The item due is delivered, the one after the target stays (R145). -/
theorem test_follow_and_deliver :
    ∃ t, exec (.outputBoundary [] 0) (timing .follow (some ⟨10, 0, 0, 0, false, false⟩) .bottom) = .next t
      ∧ (t.part.lanes.get 0).tcCount = 900000 ∧ (t.part.lanes.get 0).carryCtr.tcReseeds = 1
      ∧ (t.part.outs.get 0).packets
        = [sendPacket ⟨0x60, 1, [10, 0, 0, 0, 0]⟩, sendPacket ⟨0x41, 5, [1]⟩]
      ∧ ((t.part.lanes.get 0).carry.map CarryItem.stamp) = [1500000]
      ∧ (t.part.lanes.get 0).job.t0.entry.bind Entry.label = some ⟨10, 0, 0, 0, false, false⟩ :=
  ⟨_, rfl, by decide +kernel⟩

/-- Lane 0 converts S03 to S02 over the picture in slot 0 as T0, its first line next; `g` is what has come about. -/
def showing (g : Part → Part) : State :=
  onPart (fun p => p |> running
    |> modLane 0 (fun l => { l with
        profile := { l.profile with output := .s02 }
        job := { l.job with
          inFlight := true, kase := .earlyClamp, picStd := some .s02, picParity := some .top, phase := some 0
          t0 := ⟨some ⟨0, 0, 540000, .picture 0 540000, some .top, true, 0, none⟩, .present, none⟩ } })
    |> modOut 0 (fun o => { o with standard := .s02 }) |> g)

/-- How the computation of the first line ends: with a line, at a sample, or at a row. -/
def ending (s : State) : Option (Src × SlotIx) × Option (Table × Nat) × List SlotIx :=
  match (computeOnce (lineCtx (foundBy now1 s) 0 0)).run ⟨[], (s.part.lanes.get 0).job.blocks⟩ with
  | (.ok _, t) => (none, none, t.corrected)
  | (.error (.badSample a k), t) => (some (a, k), none, t.corrected)
  | (.error (.badRow a r), t) => (none, some (a, r), t.corrected)

/-- A row of TT with weight 0 for every tap, so that the line needs no read. -/
def noWeight (p : Part) : Part :=
  modLane 0 (fun l => { l with
    tables := modTable .tt (fun b => { b with active := List.replicate 256 ⟨0, 0, 0, 0, true⟩ }) l.tables }) p

/-- The first sample of slot 0 cannot be corrected. -/
def badFirst (p : Part) : Part := applyUpset (.storedSample 0 .y 0 0 .uncorrectable) p

/-- One sample in three reads the sample beneath it alone, and the first of them needs correction. -/
def oneCorrected (p : Part) : Part :=
  p |> modLane 0 (fun l => { l with
        tables := l.tables
          |> modTable .hc (fun b => { b with
              active := (List.replicate 16 ⟨0, 0, 0, 0, true⟩).set (phasePart (sixteenths 0 1920 720)) ⟨0, 256, 0, 0, true⟩ })
          |> modTable .vc (fun b => { b with active := List.replicate 16 ⟨0, 256, 0, 0, true⟩ }) })
    |> applyUpset (.storedSample 0 .y 0 0 .correctable)

/-- The line is computed with one corrected read. -/
theorem witness_LinesComeFromTheTaps_corrected :
    quiet (showing oneCorrected) ∧ ending (showing oneCorrected) = (none, none, [0])
      ∧ (slotOf (foundBy now1 (showing oneCorrected)) 0).intact = true := by
  unfold quiet; decide +kernel

theorem witness_LinesComeFromTheTaps :
    (∀ g ∈ [noWeight, badFirst], quiet (showing g) ∧ (showing g).part.mute = false
      ∧ ((showing g).part.outs.get 0).lineNext < linesPerPicture ((showing g).part.outs.get 0).standard
      ∧ ((showing g).part.lanes.get 0).job.inFlight = true ∧ jobShows ((showing g).part.lanes.get 0).job = true)
    ∧ ending (showing noWeight) = (none, none, []) ∧ ending (showing badFirst) = (some (.t0, 0), none, [])
    ∧ (slotOf (foundBy now1 (showing badFirst)) 0).intact = true := by
  unfold quiet; decide +kernel

/-- The job lost T0 from its line 0, or holds a fallback that is POISONED from there, or is of case SLATE. -/
def slateJobs : List (Part → Part) :=
  [modLane 0 (fun l => { l with job := poisonJob .s03 .t0 0 l.job }),
   modLane 0 (fun l => { l with job := { l.job with
     t0 := emptyTap, fallback := some ⟨⟨0, 0, 540000, .picture 0 540000, some .top, true, 0, none⟩, some 0⟩ } }),
   modLane 0 (fun l => { l with job := { l.job with kase := .slate, t0 := emptyTap } })]

/-- A job in flight that shows nothing (EmittedSamplesInRange). -/
theorem witness_EmittedSamplesInRange_slate :
    ∀ g ∈ slateJobs, quiet (showing g) ∧ (showing g).part.mute = false
      ∧ ((showing g).part.outs.get 0).lineNext < linesPerPicture ((showing g).part.outs.get 0).standard
      ∧ ((showing g).part.lanes.get 0).job.inFlight = true ∧ jobShows ((showing g).part.lanes.get 0).job = false := by
  unfold quiet; decide +kernel

/-- Its lines carry the slate colour, whose reset value is Y 64, Cb 512, Cr 512 (R66, R73, R79, R80, Table 31). -/
theorem test_slate_of_a_job :
    ∀ g ∈ slateJobs, (after (exec (.outputLine now1 0) (showing g))).bind (fun p => (p.outs.get 0).lineOut)
      = some ⟨0, List.replicate 720 64, List.replicate 360 512, List.replicate 360 512⟩ := by decide +kernel

theorem defaultRows_parity (t : Table) : ∀ r ∈ defaultRows t, r.parityOk = true := by
  intro r hr
  obtain ⟨i, -, rfl⟩ := List.mem_map.mp hr
  cases t
  · simp only [defaultRow, mkRow]; split <;> [rfl; split <;> rfl]
  · rfl
  · rfl

/-- A line over the tables as they stand after reset and a memory without errors. -/
theorem witness_LinesComeFromTheTaps_clean : readsClean (lineCtx (showing id).part 0 0) :=
  ⟨fun _ h => (by cases h), defaultRows_parity .tt, defaultRows_parity .hc, defaultRows_parity .vc⟩


/-- A job of lane 0 in flight that pins slot 0. -/
def inFlight : State :=
  onPart (fun p => p |> running |> modSlot 0 (fun r => { r with pins := 1 })
    |> modLane 0 (fun l => { l with job := { l.job with inFlight := true, kase := .earlyClamp, pinned := [0] } }))

theorem witness_JobsPinAndUnpin :
    quiet inFlight ∧ ((foundBy now1 inFlight).lanes.get 0).job.inFlight = true
      ∧ (∃ t, exec (.jobEnd now1 0) inFlight = .next t ∧ t.part.fault.deviceFatal = inFlight.part.fault.deviceFatal)
      ∧ ((foundBy now1 inFlight).lanes.get 0).job.pinned.count 0 = 1
      ∧ (slotOf (foundBy now1 inFlight) 0).intact = true ∧ (slotOf inFlight.part 0).state = .history
      ∧ 0 < (slotOf inFlight.part 0).pins ∧ 1 ∉ ((foundBy now1 inFlight).lanes.get 0).job.pinned :=
  ⟨⟨rfl, by decide +kernel⟩, by decide +kernel, ⟨_, rfl, by decide +kernel⟩, by decide +kernel, by decide +kernel,
    by decide +kernel, by decide +kernel, by decide +kernel⟩

/-- Slot 0 RETIRING, with its pins and poisoned as given. -/
def retiring (pins : Nat) (poisoned : Bool) : State :=
  { inFlight with
    part := modSlot 0 (fun r => { r with state := .retiring, pins := pins, poisoned := poisoned })
      (modStore (fun st => { st with quarantine := 15 }) inFlight.part) }

/-- The last pin, poisoned or not, and one of two. -/
theorem witness_JobsPinAndUnpin_of_a_retiring_slot :
    ∀ s ∈ [retiring 1 false, retiring 1 true, retiring 2 false], quiet s ∧ (s.part.lanes.get 0).job.inFlight = true
      ∧ (s.part.lanes.get 0).job.pinned = [0] ∧ (slotOf (foundBy now1 s) 0).intact = true
      ∧ (slotOf s.part 0).state = .retiring ∧ 0 < (slotOf s.part 0).pins
      ∧ ((after (exec (.jobEnd now1 0) s)).map (fun p => p.fault.deviceFatal)) = some s.part.fault.deviceFatal := by
  unfold quiet; decide +kernel

/-- The last pin of a RETIRING slot frees it at the tail, or quarantines it as the sixteenth (R53, R56). -/
theorem test_last_pin :
    (∃ t, exec (.jobEnd now1 0) (retiring 1 false) = .next t ∧ t.part.store.freeList = (List.finRange 64).drop 2 ++ [0]
      ∧ slotOf t.part 0 = ⟨.free, none, 0, false, 0, true⟩)
    ∧ (∃ t, exec (.jobEnd now1 0) (retiring 1 true) = .next t ∧ t.part.store.quarantine = 16
      ∧ slotOf t.part 0 = ⟨.quarantined, none, 0, true, 0, true⟩ ∧ t.part.fault.latches = [.poolDegraded]) :=
  ⟨⟨_, rfl, by decide +kernel⟩, ⟨_, rfl, by decide +kernel⟩⟩

/-- Row 3 of TT, the row of phase 0 and class 3, has lost its parity. -/
def badRow (p : Part) : Part := applyUpset (.tableRow 0 .tt .active 3) p

/-- Lane 0 in a state at a boundary, with a carried item whose parity fails. -/
def badItem (st : LaneState) : State :=
  { startingIn st with
    part := modLane 0 (fun l => { l with carry := [⟨⟨0x41, 5, [1]⟩, 540000, some 4, false⟩] }) (startingIn st).part }

/-- Slot 0's record fails its check at the event. -/
def upset0 : Env := ⟨1000, [.slotRecord 0]⟩

theorem witness_LaneAndDeviceFaults :
    (quiet (showing badRow) ∧ (showing badRow).part.mute = false
      ∧ ((showing badRow).part.outs.get 0).lineNext < linesPerPicture ((showing badRow).part.outs.get 0).standard
      ∧ isRunning ((foundBy now1 (showing badRow)).lanes.get 0).state = true
      ∧ ((foundBy now1 (showing badRow)).lanes.get 0).job.inFlight = true
      ∧ jobShows ((foundBy now1 (showing badRow)).lanes.get 0).job = true
      ∧ ending (showing badRow) = (none, some (.tt, 3), []))
    ∧ (∀ st ∈ [LaneState.acquiring, .converting, .holding], quiet (badItem st)
      ∧ ((badItem st).part.lanes.get 0).profile.output = ((badItem st).part.outs.get 0).standard
      ∧ runsJobs ((badItem st).part.lanes.get 0).state = true
      ∧ ((((badItem st).part.lanes.get 0).carry.takeWhile (fun i => decide (i.stamp ≤ 3000000 - 1620000))).take 7).find?
        (fun i => !i.parityOk) = some ⟨⟨0x41, 5, [1]⟩, 540000, some 4, false⟩)
    ∧ ((integrityError 0 (onPart running).part).fault.fatalDue = true
      ∧ (integrityError 0 (onPart running).part).fault.deviceFatal = false ∧ logged.part.fault.deviceFatal = true)
    ∧ (quiet inFlight ∧ inFlight.part.fault.deviceFatal = false ∧ (inFlight.part.lanes.get 0).job.inFlight = true
      ∧ 0 ∈ (inFlight.part.lanes.get 0).job.pinned ∧ (slotOf (foundBy upset0 inFlight) 0).intact = false) := by
  unfold quiet; decide +kernel

/-- A bad row: slate, TT_PARITY with row 3, FAULTED; a bad item: CARRY_PARITY with its sequence (R146, R165). -/
theorem test_lane_fatal :
    (∃ t, exec (.outputLine now1 0) (showing badRow) = .next t ∧ (t.part.lanes.get 0).state = .faulted
      ∧ (t.part.outs.get 0).lineOut.map (fun l => l.y.take 2) = some [64, 64]
      ∧ getLog (.ll 0) t.part = some ⟨.ttParity, .fatal, 1000, .row 3, false, 0, false⟩)
    ∧ (∃ t, exec (.outputBoundary [] 0) (badItem .converting) = .next t ∧ (t.part.lanes.get 0).state = .faulted
      ∧ getLog (.ll 0) t.part = some ⟨.carryParity, .fatal, 3000000, .sequence 4, false, 0, false⟩) :=
  ⟨⟨_, rfl, by decide +kernel⟩, ⟨_, rfl, by decide +kernel⟩⟩

/-- A failed slot record at a job end takes every lane FAULTED (R58, R135). -/
theorem test_device_fatal :
    ∃ t, exec (.jobEnd upset0 0) inFlight = .next t ∧ t.part.fault.deviceFatal = true
      ∧ (t.part.lanes.get 0).state = .faulted ∧ (t.part.lanes.get 3).state = .faulted
      ∧ getLog .dl t.part = some ⟨.slotRecord, .fatal, 1000, .slot 0, true, 1, false⟩ := ⟨_, rfl, by decide +kernel⟩

/-- Lane 0 with a COMMIT of HC pending, a hold limit of 0 and a job in flight; the HC shadow differs. -/
def swapping : State :=
  { committing 0 with
    part := modLane 0 (fun l =>
      { l with
        profile := { l.profile with holdLimit := 0 }
        tables := modTable .hc (fun b => { b with shadow := [] }) l.tables
        job := { l.job with inFlight := true } }) (committing 0).part }

theorem witness_TablesKeepTheirCrc_of_a_job :
    quiet swapping ∧ (swapping.part.lanes.get 0).job.inFlight = true
      ∧ ∃ t, exec (.activityLost now1 0 false) swapping = .next t ∧ (t.part.lanes.get 0).job.inFlight = true
        ∧ (t.part.lanes.get 0).jobNumber = (swapping.part.lanes.get 0).jobNumber :=
  ⟨⟨rfl, by decide +kernel⟩, by decide +kernel, _, rfl, by decide +kernel⟩

/-- A swap at the entry to SLATE with a job in flight: the job goes on with the rows it started with (R77, R163). -/
theorem test_job_keeps_its_rows :
    ∃ t, exec (.activityLost now1 0 false) swapping = .next t ∧ (t.part.lanes.get 0).state = .slate
      ∧ (t.part.lanes.get 0).tables.hc.active = [] ∧ (lineCtx t.part 0 0).hc.length = 16 := ⟨_, rfl, by decide +kernel⟩


/-- The run at its last slot. -/
def initLast : State := onPart (fun p => { p with store := { p.store with initNext := 63 } })

theorem witness_SlotInitialisationEnds :
    (∀ k : SlotIx, ∀ s : State, (k = 0 ∧ s = State.reset) ∨ (k = 63 ∧ s = initLast) →
      quiet s ∧ memoryOk s.part ∧ s.part.store.initRunning = true ∧ s.part.store.initNext = k.val
        ∧ (slotOf (foundBy ⟨s.part.store.initDue, []⟩ s) k).intact = true ∧ (slotOf s.part k).state = .uninitialized)
    ∧ (quiet (onPart storeReady) ∧ (onPart storeReady).part.store.initRunning = false) := by
  refine ⟨?_, ⟨rfl, by decide +kernel⟩, rfl⟩
  unfold quiet memoryOk
  rintro k s (⟨rfl, rfl⟩ | ⟨rfl, rfl⟩) <;> decide +kernel

/-- The last black write ends the run (R46). -/
theorem test_last_initialisation :
    ∃ t, exec (.slotInitialisationEnd []) initLast = .next t ∧ t.part.store.initRunning = false
      ∧ t.part.store.freeList = [63] ∧ t.part.store.initNext = 64 := ⟨_, rfl, by decide +kernel⟩

theorem witness_AcquireTimeoutEndsTheStart :
    (quiet (onPart busyPart) ∧ ((onPart busyPart).part.lanes.get 0).acquireAt = some 135000000
      ∧ (onPart busyPart).part.mgmt.laneOps.get 0 = some ⟨.start, 0, 3, 9, true⟩)
    ∧ (quiet State.reset ∧ (State.reset.part.lanes.get 0).acquireAt = none) := by unfold quiet; decide +kernel

/-! ### Witnesses: commands -/

/-- A command with this code and operands, sent on IN0 at timebase 1000, is taken in the step (all the statements
about commands have this hypothesis). -/
abbrev takes (code target : Byte) (payload : List Byte) (s : State) : Prop := takenNow code now1 (send target payload) s

theorem witness_IdentifyAnswers :
    (takes 1 16 [] ready ∧ targetOf 16 ≠ .device) ∧ (takes 1 0 [0] ready ∧ targetOf 0 = .device)
      ∧ takes 1 0 [] ready := by unfold takes takenNow quiet; decide +kernel

/-- Table 54 with the strap standard S03. -/
theorem test_identify : lastReply (exec (.identify now1 (send 0 [])) ready)
    = some (.done, 0, [72, 75, 17, 68, 1, 64, 4, 0, 3]) := by decide +kernel

theorem witness_StatusQueriesAnswer :
    (∀ t ∈ ([0, 19, 35, 51] : List Byte), takes 2 t [] (onPart running) ∧ takes 2 t [0] (onPart running)
        ∧ (statusOf (targetOf t) (openTake 2 0 (partAt 2 now1 (send t []) (onPart running))) true).isSome = true)
      ∧ (∀ t ∈ ([64, 1, 255] : List Byte), takes 2 t [] (onPart running)
        ∧ statusOf (targetOf t) (openTake 2 0 (partAt 2 now1 (send t []) (onPart running))) true = none)
      ∧ (takes 23 16 [] logged ∧ targetOf 16 ≠ .device) ∧ takes 23 0 [1] logged ∧ takes 23 0 [] logged := by
  unfold takes takenNow quiet; decide +kernel

/-- The settings of a feed after reset (Table 10), and words 12..14 of the device: poisoned slots, the highest
correctable-error count and the lowest slot that holds it (Table 20). -/
theorem test_status_words :
    (statusOf (.feed 0) ready.part true).map (fun ws => (ws.drop 4).take 6) = some [1, 0, 8, 4, 0x60, 1]
      ∧ (statusOf .device (modSlot 3 (fun r => { r with poisoned := true, corrected := 7 })
          (modSlot 5 (fun r => { r with corrected := 7 }) ready.part)) true).map (fun ws => (ws.drop 12).take 3)
        = some [1, 7, 3] := by decide +kernel

theorem witness_CounterQueriesAnswer :
    (takes 3 72 [0] ready ∧ countersOf (targetOf 72) (partAt 3 now1 (send 72 [0]) ready) = none)
      ∧ (∀ t ∈ ([0, 16, 34, 49] : List Byte),
        takes 3 t [] ready ∧ takes 3 t [2] ready ∧ takes 3 t [0] ready ∧ takes 3 t [1] ready
          ∧ (countersOf (targetOf t) (partAt 3 now1 (send t [1]) ready)).isSome = true) := by
  unfold takes takenNow quiet; decide +kernel

/-- The command's own take counts afresh after a clear of the device's counters (R178). -/
theorem test_counters_cleared :
    ∃ t, exec (.queryCounters now1 (send 0 [1])) ready = .next t ∧ t.part.mgmt.ctr = ⟨1, 0, 0, 0, 0⟩ :=
  ⟨_, rfl, by decide +kernel⟩

/-- `k` slots in QUARANTINED, with the count that goes with them; slot 0 is one of them. -/
def quarantined (k : Nat) : State :=
  onPart (fun p =>
    { p with
      store := { p.store with
        slots := Vector.ofFn (fun i : Fin 64 =>
          if i.val < k then ⟨.quarantined, none, 0, true, 7, true⟩ else ⟨.free, none, 0, false, 0, true⟩)
        quarantine := k
        freeList := (List.finRange 64).drop k
        initRunning := false
        initNext := 64 } })

theorem witness_DeviceResetResets :
    (takes 4 32 [] (quarantined 16) ∧ targetOf 32 ≠ .device) ∧ (takes 4 0 [1] (quarantined 16) ∧ targetOf 0 = .device)
      ∧ takes 4 0 [] (quarantined 16) ∧ takes 4 0 [] (quarantined 15) := by unfold takes takenNow quiet; decide +kernel

/-- 16 slots kept latch POOL_DEGRADED, 15 do not (R45, R56); the initialisation begins past them. -/
theorem test_device_reset :
    (∃ t, exec (.deviceReset now1 (send 0 [])) (quarantined 16) = .next t ∧ t.part.fault.latches = [.poolDegraded]
      ∧ t.part.store.quarantine = 16 ∧ t.part.store.initNext = 16 ∧ (t.part.outs.get 0).replies = [])
    ∧ (∃ t, exec (.deviceReset now1 (send 0 [])) (quarantined 15) = .next t ∧ t.part.fault.latches = []) :=
  ⟨⟨_, rfl, by decide +kernel⟩, ⟨_, rfl, by decide +kernel⟩⟩

/-- The reset's own take is counted after it, and its notice goes out in the first picture (R56, R106, R169). -/
theorem test_device_reset_counts :
    ∃ t, exec (.deviceReset now1 (send 0 [])) (quarantined 16) = .next t ∧ t.part.mgmt.ctr = ⟨1, 0, 0, 0, 0⟩
      ∧ (t.part.outs.get 0).packets = [sendPacket ⟨0x61, 0x0D, [0, 0, 255, 1, 0, 8]⟩] := ⟨_, rfl, by decide +kernel⟩

theorem witness_SetFeedReplacesSettings :
    (takes 5 0 [] ready ∧ feedTarget (send 0 []) = none)
      ∧ (takes 5 16 [1, 0, 8, 4, 0x60] ready ∧ feedTarget (send 16 []) = some 0)
      ∧ takes 5 19 [0, 1, 64, 1, 0x61, 0x0E] ready ∧ feedTarget (send 19 []) = some 3
      ∧ takes 5 19 [0, 1, 64, 0, 0x60, 1] ready ∧ takes 5 19 [1, 0, 4, 255, 0x61, 0x0D] ready := by
  unfold takes takenNow quiet; decide +kernel

/-- A management form as timecode form is refused BAD_VALUE (R18). -/
theorem test_set_feed_form : lastReply (exec (.setFeed now1 (send 19 [1, 0, 4, 255, 0x61, 0x0D])) ready)
    = some (.refused, 4, []) := by decide +kernel

/-- Feed 0's slots 0 and 1, slot 0 with pins and poisoned as given. -/
def flushing (pins : Nat) (poisoned : Bool) : State :=
  onPart (fun p => p |> running |> modSlot 0 (fun r => { r with pins := pins, poisoned := poisoned }))

theorem witness_FeedResetFlushes :
    (takes 6 32 [] (onPart running) ∧ feedTarget (send 32 []) = none)
      ∧ (takes 6 16 [0] (onPart running) ∧ takes 6 16 [] (onPart running) ∧ feedTarget (send 16 []) = some 0)
      ∧ (∀ x ∈ [(1, false), (0, true), (0, false)],
        ⟨0, 0, 540000, .picture 0 540000, some .top, true, 0, none⟩ ∈ ((flushing x.1 x.2).part.feeds.get 0).history
          ∧ entrySlot ⟨0, 0, 540000, .picture 0 540000, some .top, true, 0, none⟩ = some 0
          ∧ (slotOf (flushing x.1 x.2).part 0).intact = true ∧ (slotOf (flushing x.1 x.2).part 0).owner = some 0
          ∧ (slotOf (flushing x.1 x.2).part 0).state = .history
          ∧ (slotOf (flushing x.1 x.2).part 0).pins = x.1 ∧ (slotOf (flushing x.1 x.2).part 0).poisoned = x.2) := by
  unfold takes takenNow quiet; decide +kernel

theorem witness_ReleaseQuarantineFrees :
    (takes 7 16 [] (quarantined 2) ∧ targetOf 16 ≠ .device) ∧ takes 7 0 [0] (quarantined 2)
      ∧ (takes 7 0 [] logged ∧ logged.part.fault.deviceFatal = true)
      ∧ (takes 7 0 [] ready ∧ ready.part.store.initRunning = true)
      ∧ (takes 7 0 [] (quarantined 2) ∧ (quarantined 2).part.fault.deviceFatal = false
        ∧ (quarantined 2).part.store.initRunning = false
        ∧ (quarantined 2).part.store.quarantine = countSlots (quarantined 2).part .quarantined
        ∧ ∀ k : SlotIx, (slotOf (partAt 7 now1 (send 0 []) (quarantined 2)) k).state = .quarantined →
          (slotOf (partAt 7 now1 (send 0 []) (quarantined 2)) k).intact = true) := by
  unfold takes takenNow quiet; decide +kernel

/-- The payload is the number released, and the released slots join the tail of the free list (R57). -/
theorem test_release : lastReply (exec (.releaseQuarantine now1 (send 0 [])) (quarantined 2)) = some (.done, 0, [2])
    ∧ ((after (exec (.releaseQuarantine now1 (send 0 [])) (quarantined 2))).map (fun p => p.store.freeList))
      = some ((List.finRange 64).drop 2 ++ [0, 1]) := by decide +kernel

/-- A SET LANE payload at the upper ends of Table 31: F3, S14, S14, L 21,600,000, thresholds 0, 0, 1023, hold limit 1500,
slate 0, 1023, 512, timeout 600, FOLLOW. -/
def lanePayload : List Byte :=
  [3, 14, 14, 0x01, 0x49, 0x97, 0x00, 0, 0, 0, 0, 3, 255, 5, 220, 0, 0, 3, 255, 2, 0, 2, 88, 2]

theorem witness_SetLaneReplacesTheProfile :
    (takes 8 16 lanePayload ready ∧ laneTarget (send 16 []) = none)
      ∧ (takes 8 32 [0] ready ∧ takes 8 32 lanePayload (onPart running) ∧ takes 8 32 lanePayload ready
        ∧ takes 8 32 (List.replicate 24 0) ready ∧ laneTarget (send 32 []) = some 0)
      ∧ lanePayload.length = 24
      ∧ parseProfile lanePayload = some ⟨3, .s14, .s14, 21600000, 0, 0, 1023, 1500, 4, 1019, 512, 600, .follow⟩
      ∧ parseProfile (List.replicate 24 0) = none := by unfold takes takenNow quiet; decide +kernel

/-- A lane with a hold limit of 0, STOPPED, whose input is not usable. -/
def noHold : State := onPart (modLane 0 (fun l => { l with profile := { l.profile with holdLimit := 0 } }))

theorem witness_StartBeginsRunning :
    (takes 9 0 [] ready ∧ laneTarget (send 0 []) = none) ∧ (takes 9 32 [1] ready ∧ laneTarget (send 32 []) = some 0)
      ∧ (takes 9 32 [] (onPart busyPart) ∧ ((onPart busyPart).part.mgmt.laneOps.get 0).isSome = true)
      ∧ (takes 9 32 [] (onPart running) ∧ ((onPart running).part.lanes.get 0).state ≠ .stopped)
      ∧ (takes 9 32 [] ready ∧ ready.part.mgmt.laneOps.get 0 = none
        ∧ ((partAt 9 now1 (send 32 []) ready).lanes.get 0).state = .stopped
        ∧ ((partAt 9 now1 (send 32 []) ready).lanes.get 0).commit = none)
      ∧ lockedCode (onPart lockedLink).part 0 = some .s03 ∧ takes 9 32 [] (onPart lockedLink)
      ∧ takes 9 32 [] noHold ∧ ((partAt 9 now1 (send 32 []) noHold).lanes.get 0).commit = none := by
  unfold takes takenNow quiet; decide +kernel

/-- Without input the lane goes to HOLDING and latches INPUT_LOST (R126, R129); the timer runs 5 s by default. -/
theorem test_start_without_input :
    ∃ t, exec (.start now1 (send 32 [])) ready = .next t ∧ (t.part.lanes.get 0).state = .holding
      ∧ t.part.fault.latches = [.inputLost 0] ∧ (t.part.lanes.get 0).acquireAt = some 135001000
      ∧ (t.part.outs.get 0).reserved = 1 := ⟨_, rfl, by decide +kernel⟩

/-- At a hold limit of 0 it goes on to SLATE, and both entries count (R129, R130). -/
theorem test_start_without_hold :
    ∃ t, exec (.start now1 (send 32 [])) noHold = .next t ∧ (t.part.lanes.get 0).state = .slate
      ∧ t.part.fault.latches = [.inputLost 0, .slate 0]
      ∧ (t.part.lanes.get 0).laneCtr = ⟨1, 0, 0, 1, 0, 1, 0, 0⟩ := ⟨_, rfl, by decide +kernel⟩

theorem witness_StopReturnsTheLane :
    (takes 10 0 [] ready ∧ laneTarget (send 0 []) = none) ∧ takes 10 32 [1] ready
      ∧ (takes 10 32 [] (onPart (laneIn .faulted))
        ∧ ((partAt 10 now1 (send 32 []) (onPart (laneIn .faulted))).lanes.get 0).state = .faulted)
      ∧ (takes 10 32 [] ready ∧ ((partAt 10 now1 (send 32 []) ready).lanes.get 0).state = .stopped)
      ∧ (takes 10 32 [] (onPart busyPart) ∧ laneTarget (send 32 []) = some 0
        ∧ ((partAt 10 now1 (send 32 []) (onPart busyPart)).lanes.get 0).state = .acquiring
        ∧ laneOpKind (onPart busyPart).part 0 = some .start
        ∧ (onPart busyPart).part.mgmt.laneOps.get 0 = some ⟨.start, 0, 3, 9, true⟩)
      ∧ (takes 10 32 [] (committing 0) ∧ (committing 0).part.mgmt.laneOps.get 0 = some ⟨.commit, 0, 3, 15, false⟩
        ∧ ((partAt 10 now1 (send 32 []) (committing 0)).lanes.get 0).commit.isSome = true)
      ∧ (takes 10 32 [] (committing 1) ∧ (committing 1).part.mgmt.laneOps.get 0 = some ⟨.commit, 1, 3, 15, false⟩)
      ∧ (takes 10 32 [] (onPart running) ∧ (onPart running).part.mgmt.laneOps.get 0 = none) := by
  unfold takes takenNow quiet; decide +kernel

theorem witness_stop_leaves_no_running_lane :
    ∃ t, exec (.stop now1 (send 32 [])) (onPart busyPart) = .next t
      ∧ t.part.fault.deviceFatal = (onPart busyPart).part.fault.deviceFatal ∧ runningCount t.part 0 = 0 :=
  ⟨_, rfl, by decide +kernel⟩

theorem witness_ResumeReturnsAFaultedLane :
    (takes 11 0 [] ready ∧ laneTarget (send 0 []) = none) ∧ (takes 11 32 [1] ready ∧ laneTarget (send 32 []) = some 0)
      ∧ (takes 11 32 [] ready ∧ (ready.part.lanes.get 0).state ≠ .faulted)
      ∧ (takes 11 32 [] logged ∧ logged.part.fault.deviceFatal = true)
      ∧ (takes 11 32 [] (onPart (laneIn .faulted)) ∧ ((onPart (laneIn .faulted)).part.lanes.get 0).state = .faulted
        ∧ (onPart (laneIn .faulted)).part.fault.deviceFatal = false
        ∧ (onPart (laneIn .faulted)).part.fault.laneLogs.get 0 = none)
      ∧ (takes 11 32 [] (onPart (fun p => p |> laneIn .faulted |> report (.ll 0) .carryDrop .none))
        ∧ ((onPart (fun p => p |> laneIn .faulted |> report (.ll 0) .carryDrop .none)).part.fault.laneLogs.get 0).isSome
          = true) := by
  unfold takes takenNow quiet; decide +kernel

theorem witness_MuteAndMaskChangeOneThing :
    (∀ code ∈ ([12, 13] : List Byte), takes code 16 [] ready ∧ takes code 0 [0] ready ∧ takes code 0 [] ready)
      ∧ takes 25 16 [1, 255] logged ∧ takes 25 0 [1] logged ∧ takes 25 0 [1, 255] logged ∧ takes 25 0 [2, 0] logged
      ∧ targetOf 16 ≠ .device ∧ targetOf 0 = .device := by
  unfold takes takenNow quiet
  refine ⟨?_, ?_, ?_, ?_⟩ <;> decide +kernel

/-- With only kind 8 masked in, POOL_DEGRADED asserts the line; with none, nothing does (R187). -/
theorem test_alarm_mask :
    ((after (exec (.setAlarmMask now1 (send 0 [0, 128])) logged)).map (fun p => p.fault.alarm)) = some true
    ∧ ((after (exec (.setAlarmMask now1 (send 0 [0, 0])) logged)).map (fun p => p.fault.alarm)) = some false := by
  decide +kernel

/-- A segment of one row (−32, 720, 352, −16) for a row of a table. -/
def segment (table row : Byte) : List Byte := [table, row, 0xFF, 0xE0, 0x02, 0xD0, 0x01, 0x60, 0xFF, 0xF0]

theorem witness_LoadSegmentWritesTheShadow :
    (takes 14 0 (segment 0 81) ready ∧ laneTarget (send 0 []) = none)
      ∧ (takes 14 32 [0, 81] ready ∧ takes 14 32 (0 :: 81 :: List.replicate 249 0) ready
        ∧ (∀ k : Nat, 1 ≤ k → k ≤ 31 → ([0, 81] : List Byte).length ≠ 2 + 8 * k)
        ∧ (∀ k : Nat, 1 ≤ k → k ≤ 31 → (0 :: 81 :: List.replicate 249 0 : List Byte).length ≠ 2 + 8 * k))
      ∧ (takes 14 32 (segment 3 0) ready ∧ takes 14 32 (segment 1 16) ready
        ∧ takes 14 32 (segment 0 255) ready ∧ takes 14 32 (segment 2 15) ready
        ∧ (segment 0 255).length = 2 + 8 * 1 ∧ laneTarget (send 32 []) = some 0
        ∧ tableOf 0 = some .tt ∧ 255 + 1 ≤ tableRows .tt ∧ tableOf 2 = some .vc ∧ 15 + 1 ≤ tableRows .vc)
      ∧ (takes 14 32 (segment 0 81) (committing 0) ∧ ((committing 0).part.lanes.get 0).commit.isSome = true) := by
  refine ⟨?_, ⟨?_, ?_, fun k h _ => by show 2 ≠ 2 + 8 * k; omega,
    fun k h _ => by rw [show (0 :: 81 :: List.replicate 249 0 : List Byte).length = 251 by decide +kernel]; omega⟩, ?_, ?_⟩ <;>
    first
    | (unfold takes takenNow quiet; decide +kernel)

/-- The worked load of chapter 9: row 81 of TT. -/
theorem test_load_segment :
    ((after (exec (.loadSegment now1 (send 32 (segment 0 81))) ready)).bind
      (fun p => (p.lanes.get 0).tables.tt.shadow[81]?)) = some ⟨-32, 720, 352, -16, true⟩ := by decide +kernel

theorem witness_CommitChecksAndSwaps :
    (takes 15 0 [2, 0x21, 0x45] ready ∧ laneTarget (send 0 []) = none)
      ∧ (takes 15 32 [] ready ∧ parseCommit [] = .error ⟨.badLength, []⟩)
      ∧ (takes 15 32 [8, 0, 0] ready ∧ parseCommit [8, 0, 0] = .error ⟨.badValue, []⟩)
      ∧ (takes 15 32 [7, 0, 0] ready ∧ parseCommit [7, 0, 0] = .error ⟨.badLength, []⟩)
      ∧ (takes 15 32 [2, 0x21, 0x45] ready ∧ takes 15 32 [2, 0x21, 0x45] (onPart running)
        ∧ takes 15 32 [2, 0x21, 0x45] (committing 0) ∧ ((committing 0).part.mgmt.laneOps.get 0).isSome = true
        ∧ parseCommit [2, 0x21, 0x45] = .ok ⟨none, some 0x2145, none⟩ ∧ laneTarget (send 32 []) = some 0
        ∧ runsJobs ((onPart running).part.lanes.get 0).state = true) := by
  unfold takes takenNow quiet; decide +kernel

/-- What the check of a COMMIT of HC finds in rows that do not fail, by their CRC. -/
theorem checkTables_hc (rows : List TRow) (c d : BitVec 16) (ts : Tables) (hr : ts.hc.shadow = rows)
    (hf : firstFailure .hc 0 rows = none) (hd : rowsCrc rows = d) :
    checkTables ⟨none, some c, none⟩ ts
      = if d = c then none else some ⟨.crcMismatch, [1, 0, 0] ++ beWords 2 d.toNat⟩ := by
  simp only [checkTables, checkTable, hr, hf, hd]
  split <;> simp_all [word, tableNumber]

/-- The default HC table passes the checks of a COMMIT that carries its CRC, and not of one that carries another
(R161, Table 45). -/
theorem test_commit_checks :
    checkTables ⟨none, some 0x2145, none⟩ ⟨resetTable .tt, resetTable .hc, resetTable .vc⟩ = none
    ∧ checkTables ⟨none, some 0, none⟩ ⟨resetTable .tt, resetTable .hc, resetTable .vc⟩
      = some ⟨.crcMismatch, [1, 0, 0, 0x21, 0x45]⟩ := by
  have h : firstFailure .hc 0 (defaultRows .hc) = none := by decide +kernel
  exact ⟨(checkTables_hc _ _ _ ⟨resetTable .tt, resetTable .hc, resetTable .vc⟩ rfl h (rowsCrc_defaultRows .hc)).trans
      (by decide +kernel),
    (checkTables_hc _ _ _ ⟨resetTable .tt, resetTable .hc, resetTable .vc⟩ rfl h (rowsCrc_defaultRows .hc)).trans
      (by decide +kernel)⟩

theorem witness_CommitChecksAndSwaps_of_tables :
    (∀ t : Table, ∀ r ∈ defaultRows t, r.parityOk = true ∧ rowValid t r)
      ∧ (∀ t : Table, rowsCrc (defaultRows t) = defaultCrc t)
      ∧ (([⟨0, 704, 320, 0, true⟩, ⟨-32, 720, 352, -20, true⟩] : List TRow)[1]? = some ⟨-32, 720, 352, -20, true⟩
        ∧ rowFailure .tt ⟨0, 704, 320, 0, true⟩ = none ∧ rowFailure .tt ⟨-32, 720, 352, -20, true⟩ = some 2)
      ∧ (swapping.part.lanes.get 0).job.inFlight = true :=
  ⟨fun t r hr => ⟨defaultRows_parity t r hr, (defaultRows_valid t).2 r hr⟩, rowsCrc_defaultRows, by decide, by decide +kernel⟩

/-- The CRC words of a payload that names HC and VC (Table 44). -/
theorem test_commit_payload : (parseCommit [6, 0x21, 0x45, 0xAB, 0xCD]).toOption = some ⟨none, some 0x2145, some 0xABCD⟩ := by
  decide

/-- The worked mistake of chapter 9: row 81 sums to 1020, reason 2. -/
theorem test_commit_row : firstFailure .tt 80 [⟨0, 704, 320, 0, true⟩, ⟨-32, 720, 352, -20, true⟩] = some (81, 2) := by decide

/-- OUT0 with a RELOCK pending in HOLDOVER, or in a lock state without one. -/
def relocking : State :=
  onPart (fun p =>
    { modOut 0 (fun o => { o with lock := .holdover 540000, relockPending := true, reserved := 1 }) p with
      mgmt := { p.mgmt with outOps := p.mgmt.outOps.set 0 (some ⟨.relock, 0, 3, 17, false⟩) } })

theorem witness_SetFeedReplacesSettings_of_an_output :
    (takes 16 0 [] ready ∧ outTarget (send 0 []) = none) ∧ (takes 16 48 [0, 0, 0, 0] ready ∧ outTarget (send 48 []) = some 0)
      ∧ takes 16 48 [2, 0x08, 0x3D, 0x5F, 1] ready ∧ 65536 * 0x08 + 256 * 0x3D + 0x5F < periodOf (ready.part.outs.get 0).standard
      ∧ takes 16 48 [2, 0x08, 0x3D, 0x60, 1] ready ∧ takes 16 48 [3, 0, 0, 0, 0] ready
      ∧ takes 16 48 [0, 0, 0, 0, 2] ready
      ∧ takes 16 48 [1, 0, 0, 0, 0] relocking ∧ (relocking.part.outs.get 0).relockPending = true := by
  unfold takes takenNow quiet; decide +kernel

/-- The offset is below the period: 539,999 is taken and 540,000 refused (R114). -/
theorem test_output_offset :
    lastReply (exec (.setOutput now1 (send 48 [2, 0x08, 0x3D, 0x5F, 1])) ready) = some (.done, 0, [])
    ∧ lastReply (exec (.setOutput now1 (send 48 [2, 0x08, 0x3D, 0x60, 1])) ready) = some (.refused, 4, []) := by
  decide +kernel

theorem witness_RelockWaitsInHoldover :
    (takes 17 32 [] ready ∧ outTarget (send 32 []) = none) ∧ takes 17 48 [1] ready
      ∧ (takes 17 48 [] relocking ∧ (relocking.part.outs.get 0).relockPending = true)
      ∧ (takes 17 48 [] (outIn (.holdover 540000)) ∧ ((outIn (.holdover 540000)).part.outs.get 0).relockPending = false)
      ∧ (takes 17 48 [] ready ∧ (ready.part.outs.get 0).lock = .free ∧ ready.part.mgmt.outOps.get 0 = none)
      ∧ (takes 17 48 [] (outIn (.locked ⟨false, 1, 540000, 0, 0⟩))
        ∧ (outIn (.locked ⟨false, 1, 540000, 0, 0⟩)).part.mgmt.outOps.get 0 = none) := by
  unfold takes takenNow quiet; decide +kernel

/-- An immediate end: ACCEPTED and DONE COMPLETE (R113). -/
theorem test_relock_free :
    ((after (exec (.relock now1 (send 48 [])) ready)).map (fun p => (p.outs.get 0).replies.map Reply.kind))
      = some [.accepted, .done] := by decide +kernel

theorem witness_RouteAndSeedReplace :
    (takes 18 0 [0, 0] ready ∧ laneTarget (send 0 []) = none) ∧ (takes 18 32 [0] ready ∧ laneTarget (send 32 []) = some 0)
      ∧ takes 18 32 [0, 1, 0x41] ready ∧ takes 18 32 [1, 1, 0x41, 5, 1, 1] ready
      ∧ takes 18 32 [0, 1, 0x41, 5, 2, 0] ready ∧ takes 18 32 [2, 0] ready
      ∧ (takes 18 32 (0 :: 33 :: List.replicate 132 0) ready ∧ (List.replicate 132 (0 : Byte)).length = 4 * (33 : Byte).toNat)
      ∧ (takes 18 32 (0 :: 32 :: List.replicate 128 0) ready ∧ (List.replicate 128 (0 : Byte)).length = 4 * (32 : Byte).toNat)
      ∧ (takes 19 0 [0, 0, 0, 0, 0] ready ∧ takes 19 32 [0] ready
        ∧ takes 19 32 [0, 0, 0, 0, 0] (onPart (laneIn .faulted)) ∧ takes 19 32 [23, 59, 59, 24, 0] ready
        ∧ takes 19 32 [23, 59, 59, 25, 0] ready ∧ takes 19 32 [23, 59, 59, 24, 2] ready
        ∧ parseLabel .s03 [23, 59, 59, 24, 0] = some ⟨23, 59, 59, 24, false, false⟩
        ∧ parseLabel .s03 [23, 59, 59, 25, 0] = none
        ∧ parseLabel .s03 [23, 59, 59, 24, 2] = some ⟨23, 59, 59, 24, false, true⟩) := by
  unfold takes takenNow quiet
  refine ⟨?_, ?_, ?_, ?_, ?_, ?_, ?_, ?_, ?_, ?_, ?_, ?_⟩ <;> decide +kernel

/-- A route entry with ANY and DROP; a seed at the last count of a 25 NDF day. -/
theorem test_route_and_seed :
    ((after (exec (.setRoute now1 (send 32 [1, 1, 0x41, 5, 1, 1])) ready)).map (fun p => (p.lanes.get 0).route))
      = some ⟨.drop, [⟨0x41, none, .drop⟩]⟩
    ∧ ((after (exec (.seedTimecode now1 (send 32 [23, 59, 59, 24, 0])) ready)).map (fun p => (p.lanes.get 0).tcCount))
      = some 2159999 := by decide +kernel

theorem witness_HaltEndsTheOperation :
    (takes 20 0 [] ready ∧ laneTarget (send 0 []) = none ∧ outTarget (send 0 []) = none)
      ∧ (takes 20 32 [0] ready ∧ (laneTarget (send 32 [0])).isSome = true)
      ∧ (takes 20 35 [] ready ∧ laneTarget (send 35 []) = some 3 ∧ ready.part.mgmt.laneOps.get 3 = none)
      ∧ (takes 20 51 [] ready ∧ outTarget (send 51 []) = some 3 ∧ ready.part.mgmt.outOps.get 3 = none)
      ∧ (takes 20 32 [] (committing 0) ∧ (committing 0).part.mgmt.laneOps.get 0 = some ⟨.commit, 0, 3, 15, false⟩)
      ∧ (takes 20 48 [] relocking ∧ relocking.part.mgmt.outOps.get 0 = some ⟨.relock, 0, 3, 17, false⟩
        ∧ 0 < (relocking.part.outs.get 0).reserved)
      ∧ (takes 20 32 [] (onPart busyPart) ∧ (onPart busyPart).part.mgmt.laneOps.get 0 = some ⟨.start, 0, 3, 9, true⟩) := by
  unfold takes takenNow quiet; decide +kernel

/-- The halted START's lane is STOPPED, and the HALT is answered after it (R133, R175). -/
theorem test_halt_start :
    ∃ t, exec (.halt now1 (send 32 [])) (onPart busyPart) = .next t ∧ (t.part.lanes.get 0).state = .stopped
      ∧ (t.part.outs.get 0).replies.map (fun r => (r.tag, r.code, r.status)) = [(3, 9, 2), (7, 20, 0)]
      ∧ (t.part.lanes.get 0).laneCtr.stops = 0 ∧ t.part.fault.deviceFatal = (onPart busyPart).part.fault.deviceFatal :=
  ⟨_, rfl, by decide +kernel⟩

theorem witness_LogCommandsReadAndClear :
    (∀ code ∈ ([21, 22] : List Byte),
      (takes code 0 [] logged ∧ logTarget (send 0 []) = none) ∧ (takes code 64 [0] logged ∧ logTarget (send 64 []) = some (.fl 0))
        ∧ (takes code 72 [] logged ∧ logTarget (send 72 []) = some .dl ∧ getLog .dl logged.part = none)
        ∧ (takes code 64 [] logged
          ∧ getLog (.fl 0) logged.part = some ⟨.badPacket, .note, 5, .none, false, 0, true⟩))
      ∧ (takes 22 71 [] (onPart (report (.ll 3) .carryDrop (.sequence 8)))
        ∧ (getLog (.ll 3) (onPart (report (.ll 3) .carryDrop (.sequence 8))).part).map LogRec.read = some false) := by
  unfold takes takenNow quiet; decide +kernel

/-- Table 58: the words of CARRY_DROP with sequence 8, reported at timebase 0 and not yet read; a clear is STALE. -/
theorem test_logs :
    lastReply (exec (.queryLog now1 (send 71 [])) (onPart (report (.ll 3) .carryDrop (.sequence 8))))
      = some (.done, 0, [1, 21, 1, 0, 0, 0, 0, 0, 0, 0, 0, 2, 0, 0, 0, 8, 0, 0, 0])
    ∧ lastReply (exec (.clearLog now1 (send 71 [])) (onPart (report (.ll 3) .carryDrop (.sequence 8))))
      = some (.refused, 7, []) := by decide +kernel

theorem witness_AcknowledgementClears :
    (takes 24 16 [16, 2] logged ∧ targetOf 16 ≠ .device) ∧ (takes 24 0 [16, 2, 0] logged ∧ takes 24 0 [] logged)
      ∧ (takes 24 0 (List.replicate 62 0) logged ∧ 60 < (List.replicate 62 (0 : Byte)).length)
      ∧ takes 24 0 [16, 3] logged
      ∧ (takes 24 0 [16, 2, 0, 8] logged
        ∧ ([16, 2, 0, 8] : List Byte) = [Cond.slip 0, .poolDegraded].flatMap (fun c => [condOwner c, BitVec.ofNat 8 (condKind c)]))
      ∧ (takes 24 0 (allConds.flatMap (fun c => [condOwner c, BitVec.ofNat 8 (condKind c)])) logged
        ∧ allConds ≠ [] ∧ allConds.length = 30) := by unfold takes takenNow quiet; decide +kernel

/-- A feed does not carry the kind of a lane, and every other owner only its own (Table 59). -/
theorem witness_AcknowledgementClears_pairs :
    ([16, 3] : List Byte) = [] ++ 16 :: 3 :: [] ∧ ¬namesLatch 16 3 ∧ ¬namesLatch 36 3 ∧ ¬namesLatch 0 10
      ∧ namesLatch 19 2 ∧ namesLatch 32 6 ∧ namesLatch 51 7 ∧ namesLatch 0 9 := by
  unfold namesLatch; refine ⟨rfl, ?_, ?_, ?_, ?_, ?_, ?_, ?_⟩ <;> decide

/-- The latch whose cause is present stays (R185). -/
theorem test_acknowledgement : lastReply (exec (.ackConditions now1 (send 0 [16, 2, 0, 8])) logged)
    = some (.done, 0, [1, 0, 8]) := by decide +kernel

theorem witness_UnknownCodesAreRefused :
    takes 0 255 [1, 2] ready ∧ takes 26 0 [] ready ∧ (0 : Byte).toNat = 0 ∧ 25 < (26 : Byte).toNat := by
  unfold takes takenNow quiet; decide +kernel

/-- BAD_CODE is answered whatever the target, and reported as a NOTE to DL (R171). -/
theorem test_bad_code : lastReply (exec (.badCode now1 (send 255 [1, 2]) 26) ready) = some (.refused, 1, [])
    ∧ ((after (exec (.badCode now1 (send 255 [1, 2]) 26) ready)).bind (fun p => getLog .dl p))
      = some ⟨.badCode, .note, 1000, .none, false, 0, false⟩ := by decide +kernel

/-- A carry queue of 64 gives up its head to the next packet, and LL0 takes CARRY_DROP with its sequence (R144). -/
theorem test_carry_overflow :
    ∃ t, exec (.ancillaryPacket now1 0 (packetWords ⟨0x41, 5, [1]⟩))
        (onPart (fun p => p |> running |> modLane 0 (fun l =>
          { l with carry := List.replicate 64 ⟨⟨0x41, 5, [0]⟩, 0, some 3, true⟩ }))) = .next t
      ∧ (t.part.lanes.get 0).carry.length = 64
      ∧ getLog (.ll 0) t.part = some ⟨.carryDrop, .note, 1000, .sequence 3, false, 0, false⟩ := ⟨_, rfl, by decide +kernel⟩

/-- A command to a full reply queue waits in its command queue (R169, log entry 6). -/
theorem test_command_waits :
    ∃ t, exec (.identify now1 (send 0 []))
        (onPart (modOut 0 (fun o => { o with replies := List.replicate 16 ⟨1, 1, .done, 0, false, []⟩ }))) = .next t
      ∧ t.part.mgmt.queues.get 0 = [⟨7, 1, 0, []⟩] ∧ t.part.mgmt.ctr.commandsTaken = 0 := ⟨_, rfl, by decide +kernel⟩

end Sys2Proof.Tests
end

section
/-! SUPPORT. SET ROUTE (R142) and SEED TIMECODE (R154): the meaning of their payloads, then what each command leaves. -/

namespace Sys2Proof.Machine.RouteAndSeed

/-! ### Immediate commands on a lane -/

/-- A lane changed after the opening of a take, with outputs and management put back: that lane is all that differs. -/
theorem modLane_openTake (code : Byte) (link n : Ix) (f : Lane → Lane) (p : Part) :
    { modLane n f (openTake code link p) with outs := p.outs, mgmt := p.mgmt } =
      { p with lanes := p.lanes.modify n f } := rfl

/-- Where the rule accepts with one lane changed, that lane is all that the command's own effect changes (R171). -/
theorem immediate_lane_done {code : Byte} {env : Env} {cmd : Command} {s : State} (rule : Command → Part → Verdict)
    (h : takenNow code env cmd s) (hneed : need code = 1) (n : Ix) (f : Lane → Lane)
    (hr : rule cmd (openTake code cmd.link (partAt code env cmd s)) =
      .ok (modLane n f (openTake code cmd.link (partAt code env cmd s)), [])) :
    command code env cmd (takeImmediate code cmd (rule cmd)) s =
      doneNow code env cmd s []
        { partAt code env cmd s with lanes := (partAt code env cmd s).lanes.modify n f } := by
  have hf : (modLane n f (openTake code cmd.link (partAt code env cmd s))).fault.fatalDue = false := by
    simpa [partAt_fault] using h.1.1
  rw [immediate_done rule h hneed hr (modLane_outs ..) (modLane_mgmt ..) hf, modLane_openTake]

/-! ### The entries of a SET ROUTE payload -/

/-- The action that a valid action word names (Table 37). -/
def actionNamed (w : Byte) : RouteAction := if w.toNat = 0 then .carry else .drop

theorem actionOf_valid {w : Byte} (h : w.toNat ≤ 1) : actionOf w = some (actionNamed w) := by
  obtain h0 | h1 : w.toNat = 0 ∨ w.toNat = 1 := by omega
  · simp [actionOf, actionNamed, h0]
  · simp [actionOf, actionNamed, h1]

theorem actionOf_invalid {w : Byte} (h : 1 < w.toNat) : actionOf w = none := by
  have h0 : w.toNat ≠ 0 := by omega
  have h1 : w.toNat ≠ 1 := by omega
  simp [actionOf, h0, h1]

/-- The match and the action word of entry i are 0 or 1 (R142). -/
def entryValid (ws : List Byte) (i : Nat) : Prop :=
  (ws.getD (4 * i + 2) 0).toNat ≤ 1 ∧ (ws.getD (4 * i + 3) 0).toNat ≤ 1

theorem not_entryValid_iff (ws : List Byte) (i : Nat) :
    ¬ entryValid ws i ↔ 1 < (ws.getD (4 * i + 2) 0).toNat ∨ 1 < (ws.getD (4 * i + 3) 0).toNat := by
  simp only [entryValid, not_and_or, not_le]

/-- Entry i of the list, where it is valid (R142). -/
def entryAt (ws : List Byte) (i : Nat) : RouteEntry :=
  ⟨ws.getD (4 * i) 0,
   if (ws.getD (4 * i + 2) 0).toNat = 0 then some (ws.getD (4 * i + 1) 0) else none,
   actionNamed (ws.getD (4 * i + 3) 0)⟩

section Entry
variable {kind subkind m a : Byte} {rest : List Byte} {i : Nat}

theorem entryValid_zero : entryValid (kind :: subkind :: m :: a :: rest) 0 ↔ m.toNat ≤ 1 ∧ a.toNat ≤ 1 := Iff.rfl

theorem entryValid_succ :
    entryValid (kind :: subkind :: m :: a :: rest) (i + 1) ↔ entryValid rest i := by
  simp [entryValid, Nat.mul_add]

theorem entryAt_succ : entryAt (kind :: subkind :: m :: a :: rest) (i + 1) = entryAt rest i := by
  simp [entryAt, Nat.mul_add]

/-- A valid first entry is read, and the others are those of the rest. -/
theorem parseEntries_cons_valid (hv : entryValid (kind :: subkind :: m :: a :: rest) 0) :
    parseEntries (kind :: subkind :: m :: a :: rest) =
      (parseEntries rest).map (entryAt (kind :: subkind :: m :: a :: rest) 0 :: ·) := by
  obtain ⟨hm, ha⟩ := entryValid_zero.1 hv
  obtain h0 | h1 : m.toNat = 0 ∨ m.toNat = 1 := by omega
  · cases h : parseEntries rest <;> simp [parseEntries, actionOf_valid ha, entryAt, h, h0]
  · cases h : parseEntries rest <;> simp [parseEntries, actionOf_valid ha, entryAt, h, h1]

/-- An invalid first entry makes the list invalid. -/
theorem parseEntries_cons_invalid (hv : ¬ entryValid (kind :: subkind :: m :: a :: rest) 0) :
    parseEntries (kind :: subkind :: m :: a :: rest) = none := by
  rw [entryValid_zero] at hv
  by_cases ha : a.toNat ≤ 1
  · have h0 : m.toNat ≠ 0 := by omega
    have h1 : m.toNat ≠ 1 := by omega
    cases h : parseEntries rest <;> simp [parseEntries, actionOf_valid ha, h, h0, h1]
  · simp [parseEntries, actionOf_invalid (not_le.1 ha)]

end Entry

/-- A list of k groups of four words has a first group, where k is not 0. -/
theorem exists_group {k : Nat} {ws : List Byte} (hlen : ws.length = 4 * (k + 1)) :
    ∃ kind subkind m a rest, ws = kind :: subkind :: m :: a :: rest ∧ rest.length = 4 * k := by
  match ws, hlen with
  | kind :: subkind :: m :: a :: rest, hlen => exact ⟨kind, subkind, m, a, rest, rfl, by simp only [List.length_cons] at hlen; omega⟩

theorem parseEntries_valid {k : Nat} {ws : List Byte} (hlen : ws.length = 4 * k) (hv : ∀ i < k, entryValid ws i) :
    parseEntries ws = some ((List.range k).map (entryAt ws)) := by
  induction k generalizing ws with
  | zero => simp [List.length_eq_zero_iff.1 hlen, parseEntries]
  | succ k ih =>
    obtain ⟨kind, subkind, m, a, rest, rfl, hrest⟩ := exists_group hlen
    have htail : ∀ i < k, entryValid rest i := fun i hi => entryValid_succ.1 (hv (i + 1) (by omega))
    rw [parseEntries_cons_valid (hv 0 (by omega)), ih hrest htail]
    simp [List.range_succ_eq_map, entryAt_succ]

theorem parseEntries_invalid {k : Nat} {ws : List Byte} (hlen : ws.length = 4 * k)
    (hv : ∃ i < k, ¬ entryValid ws i) : parseEntries ws = none := by
  induction k generalizing ws with
  | zero => obtain ⟨i, hi, -⟩ := hv; omega
  | succ k ih =>
    obtain ⟨kind, subkind, m, a, rest, rfl, hrest⟩ := exists_group hlen
    by_cases hhead : entryValid (kind :: subkind :: m :: a :: rest) 0
    · have htail : ∃ i < k, ¬ entryValid rest i := by
        obtain ⟨i, hi, hbad⟩ := hv
        cases i with
        | zero => exact absurd hhead hbad
        | succ i => exact ⟨i, by omega, fun h => hbad (entryValid_succ.2 h)⟩
      simp [parseEntries_cons_valid hhead, ih hrest htail]
    · exact parseEntries_cons_invalid hhead

/-! ### The payload of SET ROUTE -/

theorem parseRoute_short {ws : List Byte} (h : ws.length < 2) : parseRoute ws = deny .badLength := by
  match ws, h with
  | [], _ => rfl
  | [_], _ => rfl

section Payload
variable {d count : Byte} {rest : List Byte}

theorem parseRoute_badLength (h : rest.length ≠ 4 * count.toNat) :
    parseRoute (d :: count :: rest) = deny .badLength := by simp [parseRoute, h]

/-- Too many entries, a default action that is none, or an entry that is none (R142). -/
theorem parseRoute_badValue (hlen : rest.length = 4 * count.toNat)
    (hbad : 32 < count.toNat ∨ 1 < d.toNat ∨ ∃ i < count.toNat, ¬ entryValid rest i) :
    parseRoute (d :: count :: rest) = deny .badValue := by
  by_cases hmany : 32 < count.toNat
  · simp [parseRoute, hlen, hmany]
  obtain hmany' | hd | he := hbad
  · exact absurd hmany' hmany
  · simp [parseRoute, hlen, hmany, actionOf_invalid hd]
  · simp [parseRoute, hlen, hmany, parseEntries_invalid hlen he]

theorem parseRoute_ok (hlen : rest.length = 4 * count.toNat) (hfew : count.toNat ≤ 32) (hd : d.toNat ≤ 1)
    (he : ∀ i < count.toNat, entryValid rest i) :
    parseRoute (d :: count :: rest) = .ok ⟨actionNamed d, (List.range count.toNat).map (entryAt rest)⟩ := by
  simp [parseRoute, hlen, not_lt.2 hfew, actionOf_valid hd, parseEntries_valid hlen he]

end Payload

/-! ### The rules of the two commands -/

section Rules
variable {cmd : Command} {p : Part} {n : Ix}

theorem ruleSetRoute_badTarget (hn : laneTarget cmd = none) : ruleSetRoute cmd p = deny .badTarget := by
  simp [ruleSetRoute, hn]

theorem ruleSetRoute_refused {st : Refused} (hn : laneTarget cmd = some n) (hp : parseRoute cmd.payload = deny st) :
    ruleSetRoute cmd p = deny st := by simp [ruleSetRoute, hn, hp, deny]

theorem ruleSetRoute_ok {t : RouteTable} (hn : laneTarget cmd = some n) (hp : parseRoute cmd.payload = .ok t) :
    ruleSetRoute cmd p = .ok (modLane n (fun l => { l with route := t }) p, []) := by simp [ruleSetRoute, hn, hp]

theorem ruleSeedTimecode_badTarget (hn : laneTarget cmd = none) : ruleSeedTimecode cmd p = deny .badTarget := by
  simp [ruleSeedTimecode, hn]

theorem ruleSeedTimecode_badLength (hn : laneTarget cmd = some n) (hlen : cmd.payload.length ≠ 5) :
    ruleSeedTimecode cmd p = deny .badLength := by simp [ruleSeedTimecode, hn, hlen]

theorem ruleSeedTimecode_wrongState (hn : laneTarget cmd = some n) (hlen : cmd.payload.length = 5)
    (hst : (p.lanes.get n).state = .faulted) : ruleSeedTimecode cmd p = deny .wrongState := by
  simp [ruleSeedTimecode, hn, hlen, hst]

theorem ruleSeedTimecode_badValue (hn : laneTarget cmd = some n) (hlen : cmd.payload.length = 5)
    (hst : (p.lanes.get n).state ≠ .faulted) (hp : parseSeed (p.lanes.get n).profile.output cmd.payload = none) :
    ruleSeedTimecode cmd p = deny .badValue := by simp [ruleSeedTimecode, hn, hlen, hst, hp]

/-- The lane's own output standard gives the seed its rate. -/
theorem ruleSeedTimecode_ok {lab : Label} (hn : laneTarget cmd = some n) (hlen : cmd.payload.length = 5)
    (hst : (p.lanes.get n).state ≠ .faulted)
    (hp : parseSeed (p.lanes.get n).profile.output cmd.payload = some lab) :
    ruleSeedTimecode cmd p =
      .ok (modLane n (fun l =>
        { l with tcCount := labelToCount (stdRow l.profile.output).rate lab, fresh := true }) p, []) := by
  simp [ruleSeedTimecode, hn, hlen, hst, hp, modLane, Four.modify, rateOf]

end Rules

/-! ### The seed of a payload -/

section Seed
variable {output : Std} {ws : List Byte} {lab : Label}

theorem parseSeed_invalid (hp : parseLabel output ws = none) : parseSeed output ws = none := by simp [parseSeed, hp]

theorem parseSeed_second (hp : parseLabel output ws = some lab) (hsec : lab.second = true) :
    parseSeed output ws = none := by simp [parseSeed, hp, hsec]

theorem parseSeed_ok (hp : parseLabel output ws = some lab) (hsec : ¬ lab.second = true) :
    parseSeed output ws = some lab := by simp [parseSeed, hp, hsec]

end Seed

/-! ### The commands taken -/

section Taken
variable {env : Env} {cmd : Command} {s : State}

theorem setRoute_refused {st : Refused} (h : takenNow 18 env cmd s)
    (hr : ∀ p, ruleSetRoute cmd p = deny st) : exec (.setRoute env cmd) s = refusedNow 18 env cmd s st :=
  immediate_refused ruleSetRoute h rfl (hr _)

/-- SET ROUTE replaces the whole routing table of its lane, whatever the lane's state (R142). -/
theorem setRoute_done (h : takenNow 18 env cmd s) {n : Ix} {t : RouteTable} (hn : laneTarget cmd = some n)
    (hp : parseRoute cmd.payload = .ok t) :
    exec (.setRoute env cmd) s =
      doneNow 18 env cmd s []
        { partAt 18 env cmd s with
          lanes := (partAt 18 env cmd s).lanes.modify n (fun l => { l with route := t }) } :=
  immediate_lane_done ruleSetRoute h rfl n _ (ruleSetRoute_ok hn hp)

theorem seedTimecode_refused {st : Refused} (h : takenNow 19 env cmd s)
    (hr : ruleSeedTimecode cmd (openTake 19 cmd.link (partAt 19 env cmd s)) = deny st) :
    exec (.seedTimecode env cmd) s = refusedNow 19 env cmd s st :=
  immediate_refused ruleSeedTimecode h rfl hr

/-- SEED TIMECODE sets the counter and the fresh flag of its lane (R154). -/
theorem seedTimecode_done (h : takenNow 19 env cmd s) {n : Ix} {lab : Label} (hn : laneTarget cmd = some n)
    (hlen : cmd.payload.length = 5) (hst : ((partAt 19 env cmd s).lanes.get n).state ≠ .faulted)
    (hp : parseSeed ((partAt 19 env cmd s).lanes.get n).profile.output cmd.payload = some lab) :
    exec (.seedTimecode env cmd) s =
      doneNow 19 env cmd s []
        { partAt 19 env cmd s with
          lanes := (partAt 19 env cmd s).lanes.modify n (fun l =>
            { l with tcCount := labelToCount (stdRow l.profile.output).rate lab, fresh := true }) } :=
  immediate_lane_done ruleSeedTimecode h rfl n _ (ruleSeedTimecode_ok hn hlen hst hp)

end Taken

/-- Settles O56: each test of R142 and R154 in its order, then the one lane that the command changes. -/
theorem routeAndSeedReplace : Obligations.RouteAndSeedReplace := by
  unfold Obligations.RouteAndSeedReplace
  refine ⟨fun env cmd s h => ⟨?_, ?_, ?_⟩, fun env cmd s h => ⟨?_, ?_⟩⟩
  · exact fun hn => setRoute_refused h (fun _ => ruleSetRoute_badTarget hn)
  · exact fun n hn hshort => setRoute_refused h (fun _ => ruleSetRoute_refused hn (parseRoute_short hshort))
  · intro n d count rest hn hpay
    refine ⟨fun hlen => ?_, fun hlen hbad => ?_, fun hlen hfew hd he => ?_⟩
    · exact setRoute_refused h (fun _ => ruleSetRoute_refused hn (hpay ▸ parseRoute_badLength hlen))
    · simp only [← not_entryValid_iff] at hbad
      exact setRoute_refused h (fun _ => ruleSetRoute_refused hn (hpay ▸ parseRoute_badValue hlen hbad))
    · exact setRoute_done h hn (hpay ▸ parseRoute_ok hlen hfew hd he)
  · exact fun hn => seedTimecode_refused h (ruleSeedTimecode_badTarget hn)
  · rintro n l hn rfl
    split_ifs with hlen hst
    · exact seedTimecode_refused h (ruleSeedTimecode_badLength hn hlen)
    · exact seedTimecode_refused h (ruleSeedTimecode_wrongState hn (not_not.1 hlen) hst)
    rw [not_not] at hlen
    split
    next hp => exact seedTimecode_refused h (ruleSeedTimecode_badValue hn hlen hst (parseSeed_invalid hp))
    next lab hp =>
      split_ifs with hsec
      · exact seedTimecode_refused h (ruleSeedTimecode_badValue hn hlen hst (parseSeed_second hp hsec))
      · exact seedTimecode_done h hn hlen hst (parseSeed_ok hp hsec)

end Sys2Proof.Machine.RouteAndSeed
end

section
/-! SUPPORT. LOAD SEGMENT (R160): the rows that its payload gives, the bank they are written into, then its tests. -/

namespace Sys2Proof.Machine.LoadSegment

open RouteAndSeed (immediate_lane_done)

/-! ### The rows of a payload -/

/-- Row j of the rows of a payload, with fresh parity (R160, Table 43). -/
def rowAt (ws : List Byte) (j : Nat) : TRow :=
  ⟨coefOf (ws.getD (8 * j) 0) (ws.getD (8 * j + 1) 0), coefOf (ws.getD (8 * j + 2) 0) (ws.getD (8 * j + 3) 0),
   coefOf (ws.getD (8 * j + 4) 0) (ws.getD (8 * j + 5) 0), coefOf (ws.getD (8 * j + 6) 0) (ws.getD (8 * j + 7) 0), true⟩

section FirstRow
variable (a b c d e f g h : Byte) (rest : List Byte)

theorem rowAt_succ (j : Nat) : rowAt (a :: b :: c :: d :: e :: f :: g :: h :: rest) (j + 1) = rowAt rest j := by
  simp [rowAt, Nat.mul_add]

theorem parseRows_cons :
    parseRows (a :: b :: c :: d :: e :: f :: g :: h :: rest) =
      rowAt (a :: b :: c :: d :: e :: f :: g :: h :: rest) 0 :: parseRows rest := rfl

end FirstRow

/-- The k rows of 8 k words, in the order of the payload (Table 43). -/
theorem parseRows_eq {k : Nat} {ws : List Byte} (hlen : ws.length = 8 * k) :
    parseRows ws = (List.range k).map (rowAt ws) := by
  induction k generalizing ws with
  | zero => simp [List.length_eq_zero_iff.1 hlen, parseRows]
  | succ k ih =>
    match ws, hlen with
    | a :: b :: c :: d :: e :: f :: g :: h :: rest, hlen =>
      have hrest : rest.length = 8 * k := by simp only [List.length_cons] at hlen; omega
      simp [parseRows_cons, ih hrest, List.range_succ_eq_map, rowAt_succ]

/-! ### The bank they are written into -/

@[simp] theorem writeRows_length (rows : List TRow) (first : Nat) (bank : List TRow) :
    (writeRows first rows bank).length = bank.length := by
  induction rows generalizing first bank with
  | nil => rfl
  | cons r rs ih => simp [writeRows, ih]

/-- Rows of the bank before the first row written stand. -/
theorem writeRows_before {rows : List TRow} {first i : Nat} {bank : List TRow} (h : i < first) :
    (writeRows first rows bank)[i]? = bank[i]? := by
  induction rows generalizing first bank with
  | nil => rfl
  | cons r rs ih => rw [writeRows, ih (by omega), List.getElem?_set_ne (by omega)]

theorem writeRows_getElem? {rows : List TRow} {first i : Nat} {bank : List TRow} (hi : i < bank.length) :
    (writeRows first rows bank)[i]? =
      if first ≤ i ∧ i < first + rows.length then rows[i - first]? else bank[i]? := by
  induction rows generalizing first bank with
  | nil => rw [if_neg (by simp only [List.length_nil]; omega), writeRows]
  | cons r rs ih =>
    obtain hbefore | rfl | hafter := lt_trichotomy i first
    · rw [writeRows_before hbefore, if_neg (by omega)]
    · rw [writeRows, writeRows_before (by omega), List.getElem?_set_self hi]
      simp
    · have hstep : i - first = (i - (first + 1)) + 1 := by omega
      have hrange : (first + 1 ≤ i ∧ i < first + 1 + rs.length) ↔ (first ≤ i ∧ i < first + (r :: rs).length) := by
        simp only [List.length_cons]; omega
      rw [writeRows, ih (by simpa using hi), List.getElem?_set_ne (by omega), hstep, List.getElem?_cons_succ]
      simp only [hrange]

/-- The shadow bank takes the rows of the payload from `first` on, and its other rows stand (R160). -/
theorem writeRows_parseRows {k first i : Nat} {ws : List Byte} {bank : List TRow} (hlen : ws.length = 8 * k)
    (hi : i < bank.length) :
    (writeRows first (parseRows ws) bank)[i]? =
      if first ≤ i ∧ i < first + k then some (rowAt ws (i - first)) else bank[i]? := by
  rw [writeRows_getElem? hi, parseRows_eq hlen, List.length_map, List.length_range]
  split_ifs with hin
  · rw [List.getElem?_map, List.getElem?_range (by omega), Option.map_some]
  · rfl

/-! ### A table and a lane changed by what stands in them -/

theorem modTable_congr {t : Table} {f g : TableBanks → TableBanks} {ts : Tables}
    (h : f (getTable t ts) = g (getTable t ts)) : modTable t f ts = modTable t g ts := by
  cases t
  case tt => exact congrArg (fun b => { ts with tt := b }) h
  case hc => exact congrArg (fun b => { ts with hc := b }) h
  case vc => exact congrArg (fun b => { ts with vc := b }) h

theorem modify_congr {α : Type} {v : Four α} {n : Ix} {f g : α → α} (h : f (v.get n) = g (v.get n)) :
    v.modify n f = v.modify n g := congrArg (v.set n) h

/-- The shadow bank of a table after a load (R160). -/
def loadedShadow (t : Table) (first : Nat) (rows : List TRow) (ts : Tables) : List TRow :=
  writeRows first rows (getTable t ts).shadow

theorem loadShadow_eq (t : Table) (first : Nat) (rows : List TRow) (ts : Tables) :
    loadShadow t first rows ts = modTable t (fun b => { b with shadow := loadedShadow t first rows ts }) ts :=
  modTable_congr rfl

/-! ### The tests of R160 -/

theorem segmentLength_iff (ws : List Byte) :
    segmentLength ws = true ↔ ∃ k, 1 ≤ k ∧ k ≤ 31 ∧ ws.length = 2 + 8 * k := by
  simp only [segmentLength, List.any_eq_true, List.mem_range, beq_iff_eq]
  constructor
  · rintro ⟨j, hj, hlen⟩
    exact ⟨j + 1, by omega, by omega, hlen⟩
  · rintro ⟨k, hpos, hk, hlen⟩
    exact ⟨k - 1, by omega, by omega⟩

/-- The rows of the table that a table word names (Table 43). -/
theorem tableOf_rows {w : Byte} {tab : Table} (h : tableOf w = some tab) :
    (w.toNat = 0 ∧ tableRows tab = 256) ∨ (1 ≤ w.toNat ∧ w.toNat ≤ 2 ∧ tableRows tab = 16) := by
  unfold tableOf at h
  split_ifs at h with h0 h1 h2
  · cases h; exact .inl ⟨h0, rfl⟩
  · cases h; exact .inr ⟨by omega, by omega, rfl⟩
  · cases h; exact .inr ⟨by omega, by omega, rfl⟩

section Payload
variable {k : Nat} {t first : Byte} {rest : List Byte}

/-- No table is named, or the rows end past the end of the one that is. -/
theorem parseSegment_invalid (hlen : rest.length = 8 * k)
    (hbad : ∀ tab, tableOf t = some tab → tableRows tab < first.toNat + k) :
    parseSegment (t :: first :: rest) = none := by
  cases htab : tableOf t with
  | none => simp [parseSegment, htab]
  | some tab => simp [parseSegment, htab, parseRows_eq hlen, hbad tab htab]

theorem parseSegment_ok {tab : Table} (hlen : rest.length = 8 * k) (htab : tableOf t = some tab)
    (hfit : first.toNat + k ≤ tableRows tab) :
    parseSegment (t :: first :: rest) = some (tab, first.toNat, parseRows rest) := by
  simp [parseSegment, htab, parseRows_eq hlen, hfit]

end Payload

section Rule
variable {cmd : Command} {p : Part} {n : Ix}

theorem ruleLoadSegment_badTarget (hn : laneTarget cmd = none) : ruleLoadSegment cmd p = deny .badTarget := by
  simp [ruleLoadSegment, hn]

theorem ruleLoadSegment_badLength (hn : laneTarget cmd = some n) (hlen : ¬ segmentLength cmd.payload = true) :
    ruleLoadSegment cmd p = deny .badLength := by simp [ruleLoadSegment, hn, hlen]

theorem ruleLoadSegment_badValue (hn : laneTarget cmd = some n) (hlen : segmentLength cmd.payload = true)
    (hp : parseSegment cmd.payload = none) : ruleLoadSegment cmd p = deny .badValue := by
  simp [ruleLoadSegment, hn, hlen, hp]

variable {tab : Table} {first : Nat} {rows : List TRow}

theorem ruleLoadSegment_busy (hn : laneTarget cmd = some n) (hlen : segmentLength cmd.payload = true)
    (hp : parseSegment cmd.payload = some (tab, first, rows)) (hc : (p.lanes.get n).commit.isSome = true) :
    ruleLoadSegment cmd p = deny .busy := by simp [ruleLoadSegment, hn, hlen, hp, hc]

theorem ruleLoadSegment_ok (hn : laneTarget cmd = some n) (hlen : segmentLength cmd.payload = true)
    (hp : parseSegment cmd.payload = some (tab, first, rows)) (hc : ¬ (p.lanes.get n).commit.isSome = true) :
    ruleLoadSegment cmd p =
      .ok (modLane n (fun l => { l with tables := loadShadow tab first rows l.tables }) p, []) := by
  simp [ruleLoadSegment, hn, hlen, hp, hc]

end Rule

/-! ### The command taken -/

section Taken
variable {env : Env} {cmd : Command} {s : State}

theorem loadSegment_refused {st : Refused} (h : takenNow 14 env cmd s)
    (hr : ruleLoadSegment cmd (openTake 14 cmd.link (partAt 14 env cmd s)) = deny st) :
    exec (.loadSegment env cmd) s = refusedNow 14 env cmd s st :=
  immediate_refused ruleLoadSegment h rfl hr

/-- The shadow bank written, in the lane as the take found it, is all that LOAD SEGMENT changes (R160). -/
theorem loadSegment_done (h : takenNow 14 env cmd s) {n : Ix} {tab : Table} {first : Nat} {rows : List TRow}
    (hn : laneTarget cmd = some n) (hlen : segmentLength cmd.payload = true)
    (hp : parseSegment cmd.payload = some (tab, first, rows))
    (hc : ¬ ((partAt 14 env cmd s).lanes.get n).commit.isSome = true) :
    exec (.loadSegment env cmd) s =
      doneNow 14 env cmd s []
        { partAt 14 env cmd s with
          lanes := (partAt 14 env cmd s).lanes.modify n (fun l =>
            { l with tables := modTable tab (fun b =>
              { b with
                shadow := loadedShadow tab first rows ((partAt 14 env cmd s).lanes.get n).tables }) l.tables }) } := by
  rw [modify_congr (g := fun l => { l with tables := loadShadow tab first rows l.tables })
    (by simp only [loadShadow_eq])]
  exact immediate_lane_done ruleLoadSegment h rfl n _ (ruleLoadSegment_ok hn hlen hp hc)

/-- A COMMIT is pending when the take finds the lane exactly when it was before the event. -/
theorem partAt_lane_commit (n : Ix) : ((partAt 14 env cmd s).lanes.get n).commit = (s.part.lanes.get n).commit := by
  rw [partAt_lanes, found_lane_commit]

end Taken

/-- Settles O53: each test of R160 in its order, then the shadow bank that the rows are written into. -/
theorem loadSegmentWritesTheShadow : Obligations.LoadSegmentWritesTheShadow := by
  unfold Obligations.LoadSegmentWritesTheShadow
  rintro env cmd s q h rfl
  refine ⟨fun hn => ?_, fun n hn hlen => ?_, fun n k t first rest hn hpos hk hpay hrest => ?_⟩
  · exact loadSegment_refused h (ruleLoadSegment_badTarget hn)
  · have hshort : ¬ segmentLength cmd.payload = true := fun hseg => by
      obtain ⟨k, hpos, hk, heq⟩ := (segmentLength_iff _).1 hseg
      exact hlen k hpos hk heq
    exact loadSegment_refused h (ruleLoadSegment_badLength hn hshort)
  have hseg : segmentLength cmd.payload = true :=
    (segmentLength_iff _).2 ⟨k, hpos, hk, by rw [hpay]; simp only [List.length_cons]; omega⟩
  refine ⟨fun hbad => ?_, fun tab htab hfit => ?_⟩
  · have hpast : ∀ tab, tableOf t = some tab → tableRows tab < first.toNat + k := fun tab htab => by
      have hrows := tableOf_rows htab
      omega
    exact loadSegment_refused h (ruleLoadSegment_badValue hn hseg (hpay ▸ parseSegment_invalid hrest hpast))
  have hp : parseSegment cmd.payload = some (tab, first.toNat, parseRows rest) :=
    hpay ▸ parseSegment_ok hrest htab hfit
  rw [← partAt_lane_commit (env := env) (cmd := cmd)]
  split_ifs with hc
  · exact loadSegment_refused h (ruleLoadSegment_busy hn hseg hp hc)
  · refine ⟨loadedShadow tab first.toNat (parseRows rest) ((partAt 14 env cmd s).lanes.get n).tables,
      writeRows_length .., fun i hi => writeRows_parseRows hrest (writeRows_length .. ▸ hi),
      loadSegment_done h hn hseg hp hc⟩

end Sys2Proof.Machine.LoadSegment
end

section
/-! SUPPORT. What the shared operations on logs, latches, counters and the store leave as it stood: one lemma for each
operation, with one equation for each block that it does not change. -/

namespace Sys2Proof.Machine.Frames

variable (p : Part)

theorem forEach_keeps {β : Type} (g : Part → β) (f : Ix → Part → Part) (h : ∀ n p, g (f n p) = g p) :
    g (forEach f p) = g p := forAll_keeps g f h allIx p

/-! ### Logs, latches and counters -/

@[simp] theorem report_frame (l : LogId) (c : ErrCode) (d : Detail) :
    (report l c d p).timebase = p.timebase ∧ (report l c d p).straps = p.straps ∧ (report l c d p).links = p.links
      ∧ (report l c d p).feeds = p.feeds ∧ (report l c d p).store = p.store ∧ (report l c d p).lanes = p.lanes
      ∧ (report l c d p).outs = p.outs ∧ (report l c d p).refA = p.refA ∧ (report l c d p).refB = p.refB
      ∧ (report l c d p).mgmt = p.mgmt ∧ (report l c d p).mute = p.mute :=
  ⟨rfl, rfl, rfl, rfl, rfl, rfl, rfl, rfl, rfl, rfl, rfl⟩

/-- A report changes the logs alone. -/
@[simp] theorem report_fault (l : LogId) (c : ErrCode) (d : Detail) :
    (report l c d p).fault.latches = p.fault.latches ∧ (report l c d p).fault.mask = p.fault.mask
      ∧ (report l c d p).fault.alarm = p.fault.alarm ∧ (report l c d p).fault.deviceFatal = p.fault.deviceFatal
      ∧ (report l c d p).fault.fatalDue = p.fault.fatalDue := by
  cases l <;> exact ⟨rfl, rfl, rfl, rfl, rfl⟩

@[simp] theorem alarmEval_frame :
    (alarmEval p).timebase = p.timebase ∧ (alarmEval p).straps = p.straps ∧ (alarmEval p).links = p.links
      ∧ (alarmEval p).feeds = p.feeds ∧ (alarmEval p).store = p.store ∧ (alarmEval p).lanes = p.lanes
      ∧ (alarmEval p).outs = p.outs ∧ (alarmEval p).refA = p.refA ∧ (alarmEval p).refB = p.refB
      ∧ (alarmEval p).mgmt = p.mgmt ∧ (alarmEval p).mute = p.mute
      ∧ (alarmEval p).fault = { p.fault with alarm := alarmValue p.fault } :=
  ⟨rfl, rfl, rfl, rfl, rfl, rfl, rfl, rfl, rfl, rfl, rfl, rfl⟩

/-- One output's part of `addNotices`. -/
def addNotice (c : Cond) (m : Ix) (q : Part) : Part :=
  if (q.links.get m).settings.listen && !((q.outs.get m).notices.contains c) then
    modOut m (fun o => { o with notices := o.notices ++ [c] }) q
  else q

theorem addNotices_eq (c : Cond) : addNotices c p = forEach (addNotice c) p := rfl

theorem addNotices_keeps {β : Type} (g : Part → β) (c : Cond) (h : ∀ m f p, g (modOut m f p) = g p) :
    g (addNotices c p) = g p := by
  rw [addNotices_eq]
  refine forEach_keeps p g _ (fun m q => ?_)
  unfold addNotice
  split
  · exact h ..
  · rfl

/-- Setting a latch changes the latches, the alarm line and the notices alone. -/
theorem latchSet_keeps {β : Type} (g : Part → β) (c : Cond) (hf : ∀ f p, g (modFault f p) = g p)
    (ho : ∀ m f p, g (modOut m f p) = g p) : g (latchSet c p) = g p := by
  unfold latchSet
  split
  · rfl
  · simp only [alarmEval, hf, addNotices_keeps _ g c ho]

@[simp] theorem latchSet_frame (c : Cond) :
    (latchSet c p).timebase = p.timebase ∧ (latchSet c p).straps = p.straps ∧ (latchSet c p).links = p.links
      ∧ (latchSet c p).feeds = p.feeds ∧ (latchSet c p).store = p.store ∧ (latchSet c p).lanes = p.lanes
      ∧ (latchSet c p).refA = p.refA ∧ (latchSet c p).refB = p.refB
      ∧ (latchSet c p).mgmt = p.mgmt ∧ (latchSet c p).mute = p.mute := by
  refine ⟨?_, ?_, ?_, ?_, ?_, ?_, ?_, ?_, ?_, ?_⟩
  · exact latchSet_keeps p (fun p => p.timebase) c (fun _ _ => rfl) (fun _ _ _ => rfl)
  · exact latchSet_keeps p (fun p => p.straps) c (fun _ _ => rfl) (fun _ _ _ => rfl)
  · exact latchSet_keeps p (fun p => p.links) c (fun _ _ => rfl) (fun _ _ _ => rfl)
  · exact latchSet_keeps p (fun p => p.feeds) c (fun _ _ => rfl) (fun _ _ _ => rfl)
  · exact latchSet_keeps p (fun p => p.store) c (fun _ _ => rfl) (fun _ _ _ => rfl)
  · exact latchSet_keeps p (fun p => p.lanes) c (fun _ _ => rfl) (fun _ _ _ => rfl)
  · exact latchSet_keeps p (fun p => p.refA) c (fun _ _ => rfl) (fun _ _ _ => rfl)
  · exact latchSet_keeps p (fun p => p.refB) c (fun _ _ => rfl) (fun _ _ _ => rfl)
  · exact latchSet_keeps p (fun p => p.mgmt) c (fun _ _ => rfl) (fun _ _ _ => rfl)
  · exact latchSet_keeps p (fun p => p.mute) c (fun _ _ => rfl) (fun _ _ _ => rfl)

theorem addNotices_fault (c : Cond) : (addNotices c p).fault = p.fault :=
  addNotices_keeps p (fun p => p.fault) c (fun _ _ _ => rfl)

/-- What setting a latch makes of the fault unit (R184, R187). -/
theorem latchSet_fault (c : Cond) :
    (latchSet c p).fault =
      if p.fault.latches.contains c then p.fault
      else
        let u := { p.fault with latches := allConds.filter (fun d => d == c || p.fault.latches.contains d) }
        { u with alarm := alarmValue u } := by
  unfold latchSet
  split
  · rfl
  · simp only [alarmEval_frame, addNotices_fault, modFault_fault]

@[simp] theorem latchSet_fault_flags (c : Cond) :
    (latchSet c p).fault.mask = p.fault.mask ∧ (latchSet c p).fault.deviceFatal = p.fault.deviceFatal
      ∧ (latchSet c p).fault.fatalDue = p.fault.fatalDue
      ∧ (latchSet c p).fault.feedLogs = p.fault.feedLogs ∧ (latchSet c p).fault.laneLogs = p.fault.laneLogs
      ∧ (latchSet c p).fault.deviceLog = p.fault.deviceLog := by
  rw [latchSet_fault]; split <;> exact ⟨rfl, rfl, rfl, rfl, rfl, rfl⟩

/-- Of the outputs, setting a latch changes the notices alone. -/
theorem latchSet_out {β : Type} (g : OutUnit → β) (c : Cond) (n : Ix) (h : ∀ o ns, g { o with notices := ns } = g o) :
    g ((latchSet c p).outs.get n) = g (p.outs.get n) := by
  unfold latchSet
  split
  · rfl
  · simp only [alarmEval_frame, addNotices_eq]
    refine forEach_keeps _ (fun q => g (q.outs.get n)) _ (fun m q => ?_)
    unfold addNotice
    split
    · simp only [modOut_outs, Four.get_modify]; split <;> simp [h]
    · rfl

@[simp] theorem latchSet_outs (c : Cond) (n : Ix) :
    ((latchSet c p).outs.get n).standard = (p.outs.get n).standard
      ∧ ((latchSet c p).outs.get n).lock = (p.outs.get n).lock ∧ ((latchSet c p).outs.get n).select = (p.outs.get n).select
      ∧ ((latchSet c p).outs.get n).offset = (p.outs.get n).offset
      ∧ ((latchSet c p).outs.get n).policy = (p.outs.get n).policy ∧ ((latchSet c p).outs.get n).last = (p.outs.get n).last
      ∧ ((latchSet c p).outs.get n).next = (p.outs.get n).next
      ∧ ((latchSet c p).outs.get n).nextParity = (p.outs.get n).nextParity
      ∧ ((latchSet c p).outs.get n).relockPending = (p.outs.get n).relockPending
      ∧ ((latchSet c p).outs.get n).replies = (p.outs.get n).replies
      ∧ ((latchSet c p).outs.get n).reserved = (p.outs.get n).reserved
      ∧ ((latchSet c p).outs.get n).lineNext = (p.outs.get n).lineNext
      ∧ ((latchSet c p).outs.get n).packets = (p.outs.get n).packets
      ∧ ((latchSet c p).outs.get n).lineOut = (p.outs.get n).lineOut
      ∧ ((latchSet c p).outs.get n).ctr = (p.outs.get n).ctr := by
  refine ⟨?_, ?_, ?_, ?_, ?_, ?_, ?_, ?_, ?_, ?_, ?_, ?_, ?_, ?_, ?_⟩
  · exact latchSet_out p (fun o => o.standard) c n (fun _ _ => rfl)
  · exact latchSet_out p (fun o => o.lock) c n (fun _ _ => rfl)
  · exact latchSet_out p (fun o => o.select) c n (fun _ _ => rfl)
  · exact latchSet_out p (fun o => o.offset) c n (fun _ _ => rfl)
  · exact latchSet_out p (fun o => o.policy) c n (fun _ _ => rfl)
  · exact latchSet_out p (fun o => o.last) c n (fun _ _ => rfl)
  · exact latchSet_out p (fun o => o.next) c n (fun _ _ => rfl)
  · exact latchSet_out p (fun o => o.nextParity) c n (fun _ _ => rfl)
  · exact latchSet_out p (fun o => o.relockPending) c n (fun _ _ => rfl)
  · exact latchSet_out p (fun o => o.replies) c n (fun _ _ => rfl)
  · exact latchSet_out p (fun o => o.reserved) c n (fun _ _ => rfl)
  · exact latchSet_out p (fun o => o.lineNext) c n (fun _ _ => rfl)
  · exact latchSet_out p (fun o => o.packets) c n (fun _ _ => rfl)
  · exact latchSet_out p (fun o => o.lineOut) c n (fun _ _ => rfl)
  · exact latchSet_out p (fun o => o.ctr) c n (fun _ _ => rfl)

@[simp] theorem bumpLink_eq (n : Ix) (f : LinkCounters → LinkCounters) :
    bumpLink n f p = modLink n (fun l => { l with ctr := f l.ctr }) p := rfl
@[simp] theorem bumpFeed_eq (n : Ix) (f : FeedCounters → FeedCounters) :
    bumpFeed n f p = modFeed n (fun l => { l with ctr := f l.ctr }) p := rfl
@[simp] theorem bumpStore_eq (f : StoreCounters → StoreCounters) :
    bumpStore f p = modStore (fun l => { l with ctr := f l.ctr }) p := rfl
@[simp] theorem bumpJob_eq (n : Ix) (f : JobCounters → JobCounters) :
    bumpJob n f p = modLane n (fun l => { l with jobCtr := f l.jobCtr }) p := rfl
@[simp] theorem bumpLane_eq (n : Ix) (f : LaneCounters → LaneCounters) :
    bumpLane n f p = modLane n (fun l => { l with laneCtr := f l.laneCtr }) p := rfl
@[simp] theorem bumpCarry_eq (n : Ix) (f : CarryCounters → CarryCounters) :
    bumpCarry n f p = modLane n (fun l => { l with carryCtr := f l.carryCtr }) p := rfl
@[simp] theorem bumpOut_eq (n : Ix) (f : OutCounters → OutCounters) :
    bumpOut n f p = modOut n (fun l => { l with ctr := f l.ctr }) p := rfl
@[simp] theorem bumpMgmt_eq (f : MgmtCounters → MgmtCounters) :
    bumpMgmt f p = modMgmt (fun l => { l with ctr := f l.ctr }) p := rfl

/-! ### The store -/

/-- `P` does not look at fault unit, notices, slot records and counts of the store; of the memory it survives the writes
that the store makes. -/
structure StoreFree (P : Part → Prop) : Prop where
  store : ∀ f p, (∀ st : Store, (f st).mem = st.mem ∧ (f st).ecc = st.ecc) → P p → P (modStore f p)
  black : ∀ k p, P p → P (modStore (fun st => { st with mem := memoryBlacken k st.mem, ecc := eccClear k st.ecc }) p)
  line : ∀ k line width ss p, P p →
    P (modStore (fun st =>
      let r := writeLine k line width ss (st.mem, st.ecc)
      { st with mem := r.1, ecc := r.2 }) p)
  report : ∀ l c d p, P p → P (report l c d p)
  due : ∀ p, P p → P (modFault (fun u => { u with fatalDue := true }) p)
  latch : ∀ c p, P p → P (latchSet c p)

theorem report_kept {P : Part → Prop} (h : ∀ f p, P p → P (modFault f p)) (l : LogId) (c : ErrCode) (d : Detail) (p : Part)
    (hp : P p) : P (report l c d p) := by
  rw [report, modLog]
  exact h _ _ hp

section Store
variable {p} {P : Part → Prop} (h : StoreFree P)
include h

theorem StoreFree.slot (k : SlotIx) (f : SlotRec → SlotRec) (hp : P p) : P (modSlot k f p) :=
  h.store _ _ (fun _ => ⟨rfl, rfl⟩) hp

theorem StoreFree.bumpStore (f : StoreCounters → StoreCounters) (hp : P p) : P (bumpStore f p) :=
  h.store _ _ (fun _ => ⟨rfl, rfl⟩) hp

theorem StoreFree.integrityError (k : SlotIx) (hp : P p) : P (integrityError k p) :=
  h.due _ (h.report _ _ _ _ hp)

theorem StoreFree.slotToFree (k : SlotIx) (hp : P p) : P (slotToFree k p) :=
  h.store _ _ (fun _ => ⟨rfl, rfl⟩) (h.slot _ _ hp)

theorem StoreFree.slotToQuarantine (k : SlotIx) (hp : P p) : P (slotToQuarantine k p) := by
  have hq : P (Machine.bumpStore (fun c => { c with quarantineEntries := bump c.quarantineEntries })
      (modStore (fun st => { st with quarantine := st.quarantine + 1 })
        (modSlot k (fun r => { r with state := .quarantined, owner := none }) p))) :=
    h.bumpStore _ (h.store _ _ (fun _ => ⟨rfl, rfl⟩) (h.slot _ _ hp))
  unfold Machine.slotToQuarantine
  dsimp only
  split
  · exact h.report _ _ _ _ (h.latch _ _ hq)
  · exact hq

theorem StoreFree.releaseSlot (k : SlotIx) (hp : P p) : P (releaseSlot k p) := by
  unfold Machine.releaseSlot
  split
  · exact h.slotToQuarantine k hp
  · exact h.slotToFree k hp

theorem StoreFree.returnSlot (n : Ix) (k : SlotIx) (hp : P p) : P (returnSlot n k p) := by
  unfold Machine.returnSlot
  dsimp only
  split
  · split
    · exact h.slot _ _ hp
    · exact h.releaseSlot k hp
  · exact h.integrityError k hp

theorem StoreFree.completeSlot (k : SlotIx) (hp : P p) : P (completeSlot k p) := by
  unfold Machine.completeSlot
  dsimp only
  split
  · exact h.slot _ _ hp
  · exact h.integrityError k hp

theorem StoreFree.grant (n : Ix) (hp : P p) : P (grant n p).1 := by
  have left {q : Part} {o : Option SlotIx} (hq : P q) : P (q, o).1 := hq
  unfold Machine.grant
  split
  · exact left (h.bumpStore _ hp)
  · split
    · exact left (h.bumpStore _ hp)
    · dsimp only
      split
      · refine left (h.bumpStore _ (h.store _ _ (fun _ => ⟨rfl, rfl⟩) (h.slot _ _ hp)))
      · exact h.integrityError _ hp

theorem StoreFree.pinSlot (n : Ix) (k : SlotIx) (hp : P p) : P (pinSlot n k p).1 := by
  unfold Machine.pinSlot
  dsimp only
  split <;> dsimp only
  · exact h.slot _ _ hp
  · exact h.integrityError k hp

theorem StoreFree.unpinSlot (k : SlotIx) (hp : P p) : P (unpinSlot k p) := by
  unfold Machine.unpinSlot
  dsimp only
  split
  · split
    · exact h.releaseSlot _ (h.slot _ _ hp)
    · exact h.slot _ _ hp
  · exact h.integrityError k hp

theorem StoreFree.reportOwner (k : SlotIx) (c : ErrCode) (hp : P p) : P (reportOwner k c p) := by
  unfold Machine.reportOwner
  split
  · exact h.report _ _ _ _ hp
  · exact hp

theorem StoreFree.correctedRead (k : SlotIx) (hp : P p) : P (correctedRead k p) := by
  unfold Machine.correctedRead
  split
  · exact h.reportOwner _ _ (h.bumpStore _ (h.slot _ _ hp))
  · exact h.integrityError k hp

theorem StoreFree.uncorrectableRead (k : SlotIx) (hp : P p) : P (uncorrectableRead k p) := by
  unfold Machine.uncorrectableRead
  split
  · dsimp only
    split
    · exact h.bumpStore _ hp
    · exact h.reportOwner _ _ (h.slot _ _ (h.bumpStore _ hp))
  · exact h.integrityError k hp

theorem StoreFree.initEnd (k : SlotIx) (hp : P p) : P (initEnd k p) := by
  have hq := h.black k p hp
  unfold Machine.initEnd
  dsimp only
  refine h.store _ _ (fun _ => ⟨rfl, rfl⟩) ?_
  split
  · split
    · exact h.slotToFree k hq
    · exact hq
  · exact h.integrityError k hq

theorem StoreFree.releaseQuarantined (k : SlotIx) (hp : P p) : P (releaseQuarantined k p) := by
  unfold Machine.releaseQuarantined
  split
  · split
    · exact h.bumpStore _ (h.store _ _ (fun _ => ⟨rfl, rfl⟩) (h.slotToFree k (h.slot _ _ hp)))
    · exact h.integrityError k hp
  · exact hp

theorem StoreFree.captureLine (n : Ix) (line : Nat) (ss : List LinkSample) (hp : P p) : P (captureLine n line ss p) := by
  unfold Machine.captureLine
  dsimp only
  split
  · split
    · split
      · exact h.line _ _ _ _ _ hp
      · exact hp
    · exact hp
  · exact hp

end Store

/-- A value of the part that no change of store, fault unit and notices touches. -/
structure StoreBlind {β : Type} (g : Part → β) : Prop where
  store : ∀ f p, g (modStore f p) = g p
  fault : ∀ f p, g (modFault f p) = g p
  latch : ∀ c p, g (latchSet c p) = g p

section Blind
variable {p} {β : Type} {g : Part → β} (h : StoreBlind g)
include h

theorem StoreBlind.free (c : β) : StoreFree (fun q => g q = c) where
  store _ _ _ hp := (h.store ..).trans hp
  black _ _ hp := (h.store ..).trans hp
  line _ _ _ _ _ hp := (h.store ..).trans hp
  report l c d p hp := by rw [Machine.report, modLog, h.fault]; exact hp
  due _ hp := (h.fault ..).trans hp
  latch _ _ hp := (h.latch ..).trans hp

theorem StoreBlind.report (l : LogId) (c : ErrCode) (d : Detail) : g (report l c d p) = g p := (h.free _).report l c d p rfl
theorem StoreBlind.integrityError (k : SlotIx) : g (integrityError k p) = g p := (h.free _).integrityError k rfl
theorem StoreBlind.returnSlot (n : Ix) (k : SlotIx) : g (returnSlot n k p) = g p := (h.free _).returnSlot n k rfl
theorem StoreBlind.completeSlot (k : SlotIx) : g (completeSlot k p) = g p := (h.free _).completeSlot k rfl
theorem StoreBlind.grant (n : Ix) : g (grant n p).1 = g p := (h.free _).grant n rfl
theorem StoreBlind.pinSlot (n : Ix) (k : SlotIx) : g (pinSlot n k p).1 = g p := (h.free _).pinSlot n k rfl
theorem StoreBlind.unpinSlot (k : SlotIx) : g (unpinSlot k p) = g p := (h.free _).unpinSlot k rfl
theorem StoreBlind.correctedRead (k : SlotIx) : g (correctedRead k p) = g p := (h.free _).correctedRead k rfl
theorem StoreBlind.uncorrectableRead (k : SlotIx) : g (uncorrectableRead k p) = g p := (h.free _).uncorrectableRead k rfl
theorem StoreBlind.releaseSlot (k : SlotIx) : g (releaseSlot k p) = g p := (h.free _).releaseSlot k rfl
theorem StoreBlind.initEnd (k : SlotIx) : g (initEnd k p) = g p := (h.free _).initEnd k rfl
theorem StoreBlind.releaseQuarantined (k : SlotIx) : g (releaseQuarantined k p) = g p :=
  (h.free _).releaseQuarantined k rfl
theorem StoreBlind.captureLine (n : Ix) (line : Nat) (ss : List LinkSample) : g (captureLine n line ss p) = g p :=
  (h.free _).captureLine n line ss rfl

theorem StoreBlind.returnEntry (n : Ix) (e : Entry) : g (returnEntry n e p) = g p := by
  unfold Machine.returnEntry
  split
  · exact h.returnSlot n _
  · rfl

end Blind

end Sys2Proof.Machine.Frames
end

section
/-! SUPPORT. What the operations of the part can do, said once: `Keeps S P` lists the changes that all operations are made
of, each with what is known where it is made, and says that the predicate `P` survives each of them; from it follows that
`P` survives every operation. `S` is a set of links and feeds: with every link in it `P` is a law of the whole part, with
one link alone a statement on what an event of that link leaves as it stood. -/

namespace Sys2Proof.Machine.Keeping

open Frames

/-! ### Changes of one record -/

/-- The bound of the run of missed markers (R7). -/
def runOk (l : LinkRx) : Prop := l.missedRun ≤ 3 ∧ (extracts l.state = true → l.missedRun ≤ 2)

/-- A change of a link receiver: its settings stand, and the bound of its run is kept. -/
structure LinkChange (l l' : LinkRx) : Prop where
  settings : l'.settings = l.settings
  run : runOk l → runOk l'

/-- A change of a feed that leaves its history, last stamp and sequence count. -/
structure FeedMinor (f f' : Feed) : Prop where
  history : f'.history = f.history
  lastStamp : f'.lastStamp = f.lastStamp
  nextSeq : f'.nextSeq = f.nextSeq

/-- A change of a lane that leaves settings, operations, tables, carry queue, and of the job what it holds; `runs`: the
state may change, from a running state to a running state. -/
structure LaneChange (runs : Bool) (l l' : Lane) : Prop where
  profile : l'.profile = l.profile
  state : if runs then isRunning l.state = true ∧ isRunning l'.state = true else l'.state = l.state
  acquireAt : l'.acquireAt = l.acquireAt
  jobNumber : l'.jobNumber = l.jobNumber
  tables : l'.tables = l.tables
  commit : l'.commit = l.commit
  route : l'.route = l.route
  carry : l'.carry = l.carry
  inFlight : l'.job.inFlight = l.job.inFlight
  pinned : l'.job.pinned = l.job.pinned
  kept : l'.job.kept = l.job.kept

/-- A change of an output that leaves its settings, replies, places, packets and RELOCK. -/
structure OutMinor (o o' : OutUnit) : Prop where
  select : o'.select = o.select
  policy : o'.policy = o.policy
  relockPending : o'.relockPending = o.relockPending
  replies : o'.replies = o.replies
  reserved : o'.reserved = o.reserved
  packets : o'.packets = o.packets

/-- One pin of a job start, recorded in the lane where it was applied (R52, R71). -/
def pinOne (n source : Ix) (k : SlotIx) (p : Part) : Part :=
  if (pinSlot source k p).2 then
    modLane n (fun l => { l with job := { l.job with pinned := l.job.pinned ++ [k] } }) (pinSlot source k p).1
  else (pinSlot source k p).1

theorem pinAll_cons (n source : Ix) (k : SlotIx) (ks : List SlotIx) (p : Part) :
    pinAll n source (k :: ks) p = pinAll n source ks (pinOne n source k p) := rfl

theorem modLink_modLink (n : Ix) (f g : LinkRx → LinkRx) (p : Part) :
    modLink n g (modLink n f p) = modLink n (fun l => g (f l)) p := by simp [modLink]

theorem flushFeed_links (n : Ix) (p : Part) : (flushFeed n p).links = p.links := by
  have key : StoreBlind (fun p => p.links) := ⟨fun _ _ => rfl, fun _ _ => rfl, fun c p => by simp⟩
  simp only [flushFeed, bumpFeed_eq, modFeed_links]
  exact (forAll_keeps (fun p => p.links) _ (fun e q => key.returnEntry n e) _ _).trans rfl

/-- The feed that a lane sources. -/
abbrev sourceOfLane (p : Part) (n : Ix) : Ix := (p.lanes.get n).profile.source

/-- No START is pending on the lane, and no COMMIT with its commit record. -/
def opDone (p : Part) (n : Ix) : Prop :=
  laneOpKind p n ≠ some .start ∧ (laneOpKind p n = some .commit → (p.lanes.get n).commit = none)

/-- Reports, latches and the operations of the store keep `P`. -/
structure StoreKeeps (P : Part → Prop) : Prop where
  report : ∀ l c d p, P p → P (report l c d p)
  due : ∀ p, P p → P (modFault (fun u => { u with fatalDue := true }) p)
  latch : ∀ c p, P p → P (latchSet c p)
  returnSlot : ∀ n k p, P p → P (returnSlot n k p)
  grant : ∀ n p, P p → P (grant n p).1
  pinSlot : ∀ n k p, P p → P (pinSlot n k p).1
  completeSlot : ∀ k p, P p → P (completeSlot k p)
  unpinSlot : ∀ k p, P p → P (unpinSlot k p)
  correctedRead : ∀ k p, P p → P (correctedRead k p)
  uncorrectableRead : ∀ k p, P p → P (uncorrectableRead k p)
  initEnd : ∀ k p, P p → P (initEnd k p)
  releaseQuarantined : ∀ k p, P p → P (releaseQuarantined k p)
  captureLine : ∀ n line ss p, P p → P (captureLine n line ss p)

/-- The operations of links and feeds in scope keep `P`. -/
structure FeedKeeps (S : Ix → Prop) (P : Part → Prop) : Prop where
  link : ∀ n f p, S n → LinkChange (p.links.get n) (f (p.links.get n)) → P p → P (modLink n f p)
  feed : ∀ n f p, S n → FeedMinor (p.feeds.get n) (f (p.feeds.get n)) → P p → P (modFeed n f p)
  newest : ∀ n g p, S n → (∀ e, (g e).seq = e.seq ∧ (g e).stamp = e.stamp) → P p → P (modNewest n g p)
  pictureStart : ∀ n code a par p, S n → P p → P (pictureStart n code a par p)
  flush : ∀ n p, S n → P p → P (flushFeed n p)

/-- The operations of lanes whose source is in scope keep `P`. -/
structure LaneKeeps (S : Ix → Prop) (P : Part → Prop) : Prop where
  lane : ∀ n f p, S (sourceOfLane p n) → LaneChange false (p.lanes.get n) (f (p.lanes.get n)) → P p → P (modLane n f p)
  laneRuns : ∀ n f p, S (sourceOfLane p n) → LaneChange true (p.lanes.get n) (f (p.lanes.get n)) → P p →
    P (modLane n f p)
  laneStop : ∀ n s p, S (sourceOfLane p n) → s = .faulted ∨ (s = .stopped ∧ isRunning (p.lanes.get n).state = true) →
    (p.lanes.get n).job.inFlight = false → (p.lanes.get n).carry = [] → opDone p n → P p →
    P (modLane n (fun l => { l with state := s }) p)
  faultStopped : ∀ n p, S (sourceOfLane p n) → (p.lanes.get n).state = .stopped → P p →
    P (modLane n (fun l => { l with state := .faulted }) p)
  endJob : ∀ n p, S (sourceOfLane p n) → P p → P (endJob n p)
  abandonJob : ∀ n p, S (sourceOfLane p n) → P p → P (abandonJob n p)
  carryShrink : ∀ n (f : List CarryItem → List CarryItem) p, S (sourceOfLane p n) → (∀ c, (f c).length ≤ c.length) →
    P p → P (modLane n (fun l => { l with carry := f l.carry }) p)
  carryPacket : ∀ n m k p, S (sourceOfLane p m) → isRunning (p.lanes.get m).state = true → P p →
    P (carryPacket n m k p)
  commitSwap : ∀ n p, S (sourceOfLane p n) → P p → P (commitSwap n p)
  endPending : ∀ n s p, S (sourceOfLane p n) → P p → P (clearPending n (endLaneOp n s p))
  endStart : ∀ n s p, S (sourceOfLane p n) → laneOpKind p n = some .start → P p →
    P (modLane n (fun l => { l with acquireAt := none }) (endLaneOp n s p))
  endCommit : ∀ n s p, S (sourceOfLane p n) → laneOpKind p n = some .commit → P p →
    P (modLane n (fun l => { l with commit := none }) (endLaneOp n s p))
  endOther : ∀ n s p, S (sourceOfLane p n) → laneOpKind p n = some .relock → P p → P (endLaneOp n s p)
  jobSet : ∀ n job p, S (sourceOfLane p n) → runsJobs (p.lanes.get n).state = true → job.inFlight = true →
    job.pinned = [] → job.kept = none → P p →
    P (modLane n (fun l => { l with job := job, jobNumber := l.jobNumber + 1 }) p)
  pin : ∀ n source k p, S (sourceOfLane p n) → (p.lanes.get n).job.inFlight = true → P p → P (pinOne n source k p)

/-- The operations of outputs, command queues and references keep `P`, where those of every link are in scope. -/
structure OutKeeps (S : Ix → Prop) (P : Part → Prop) : Prop where
  out : ∀ n f p, OutMinor (p.outs.get n) (f (p.outs.get n)) → P p → P (modOut n f p)
  placePackets : ∀ n (h : Handover) p, S n → h.carried.length ≤ 7 → P p → P (placePackets n h p)
  endRelock : ∀ n s p, P p → P (endRelock n s p)
  setRef : ∀ r v p, (∀ n, S n) → P p → P (setRef r v p)

/-- The changes that operations are made of, each keeping `P`. -/
structure Keeps (S : Ix → Prop) (P : Part → Prop) : Prop
    extends StoreKeeps P, FeedKeeps S P, LaneKeeps S P, OutKeeps S P

/-! ### Predicates that do not look at a block -/

theorem store_free {P : Part → Prop} (h : StoreFree P) : StoreKeeps P where
  report := h.report
  due := h.due
  latch := h.latch
  returnSlot n k _ := h.returnSlot n k
  grant n _ := h.grant n
  pinSlot n k _ := h.pinSlot n k
  completeSlot k _ := h.completeSlot k
  unpinSlot k _ := h.unpinSlot k
  correctedRead k _ := h.correctedRead k
  uncorrectableRead k _ := h.uncorrectableRead k
  initEnd k _ := h.initEnd k
  releaseQuarantined k _ := h.releaseQuarantined k
  captureLine n line ss _ := h.captureLine n line ss

/-- What does not touch a block leaves a predicate of the block. -/
theorem store_blind {β : Type} {g : Part → β} (h : StoreBlind g) (Q : β → Prop) : StoreKeeps (fun p => Q (g p)) :=
  store_free {
    store := fun _ _ _ hp => (h.store ..).symm ▸ hp
    black := fun _ _ hp => (h.store ..).symm ▸ hp
    line := fun _ _ _ _ _ hp => (h.store ..).symm ▸ hp
    report := report_kept (fun _ _ hp => (h.fault ..).symm ▸ hp)
    due := fun _ hp => (h.fault ..).symm ▸ hp
    latch := fun _ _ hp => (h.latch ..).symm ▸ hp }

theorem forAll_kept {P : Part → Prop} {α : Type} {f : α → Part → Part} (hf : ∀ x q, P q → P (f x q)) (xs : List α)
    {p : Part} (hp : P p) : P (forAll xs f p) := by
  induction xs generalizing p with
  | nil => exact hp
  | cons x xs ih => exact ih (hf x p hp)

/-- `P` does not look at feed `n`. -/
structure FeedAt (n : Ix) (P : Part → Prop) : Prop extends StoreKeeps P where
  feed : ∀ f p, P p → P (modFeed n f p)

/-- `P` does not look at the feeds. -/
structure FeedFree (P : Part → Prop) : Prop extends StoreKeeps P where
  feed : ∀ n f p, P p → P (modFeed n f p)

theorem FeedFree.atFeed {P : Part → Prop} (h : FeedFree P) (n : Ix) : FeedAt n P := { h with feed := h.feed n }

section Feed
variable {n : Ix} {P : Part → Prop} (h : FeedAt n P) {p : Part}
include h

theorem FeedAt.returnEntry (e : Entry) (hp : P p) : P (returnEntry n e p) := by
  unfold Machine.returnEntry
  split
  · exact h.returnSlot _ _ _ hp
  · exact hp

theorem FeedAt.makeRoom (hp : P p) : P (makeRoom n p) := by
  unfold Machine.makeRoom
  split
  · exact hp
  · split
    · exact h.returnEntry _ (h.feed _ _ hp)
    · exact hp

theorem FeedAt.abandonNewest (b : Bool) (hp : P p) : P (abandonNewest n b p) := by
  unfold Machine.abandonNewest
  split
  · next e _ =>
    split
    · have hq := h.feed (fun f => { f with ctr := { f.ctr with holesAbandoned := bump f.ctr.holesAbandoned } }) _
        (h.returnEntry e (h.feed (fun f => { f with history := mapNewest (toHole .abandoned) f.history }) p hp))
      dsimp only
      split
      · exact h.report _ _ _ _ hq
      · exact hq
    · exact hp
  · exact hp

theorem FeedAt.appendHoles (b : Bool) (period : Nat) (x : Int) (m : Nat) (hp : P p) :
    P (appendHoles n b period x m p) := by
  induction m with
  | zero => exact hp
  | succ m ih => exact h.feed _ _ (h.report _ _ _ _ (h.feed _ _ (h.makeRoom ih)))

theorem FeedAt.appendPicture (stamp a : Int) (par : Option Parity) (hp : P p) :
    P (appendPicture n stamp a par p) := by
  have hg := h.grant n _ (h.makeRoom hp)
  unfold Machine.appendPicture
  dsimp only
  refine h.feed _ _ ?_
  split
  · exact h.feed _ _ hg
  · exact h.feed _ _ (h.report _ _ _ _ (h.feed _ _ hg))

theorem FeedAt.pictureStart (code : Std) (a : Int) (par : Parity) (hp : P p) :
    P (pictureStart n code a par p) := by
  have h1 := h.abandonNewest true hp
  unfold Machine.pictureStart
  dsimp only
  split
  · exact h.appendPicture _ _ _ (h.feed _ _ h1)
  · exact h.appendPicture _ _ _ (h.appendHoles _ _ _ _ (h.feed _ _ h1))
  · exact h.appendPicture _ _ _ (h.feed _ _ (h.report _ _ _ _ (h.latch _ _ (h.feed _ _ h1))))

theorem FeedAt.flushFeed (hp : P p) : P (flushFeed n p) :=
  h.feed _ _ (h.feed _ _ (forAll_kept (fun e _ hq => h.returnEntry e hq) _ (h.feed _ _ hp)))

end Feed

theorem feed_at {P : Part → Prop} {S : Ix → Prop} (h : ∀ n, S n → FeedAt n P)
    (hl : ∀ n f p, S n → LinkChange (p.links.get n) (f (p.links.get n)) → P p → P (modLink n f p)) : FeedKeeps S P where
  link := hl
  feed n f p hn _ := (h n hn).feed f p
  newest n _ p hn _ := (h n hn).feed _ p
  pictureStart n code a par _ hn := (h n hn).pictureStart code a par
  flush n _ hn := (h n hn).flushFeed

theorem feed_free {P : Part → Prop} {S : Ix → Prop} (h : FeedFree P)
    (hl : ∀ n f p, S n → LinkChange (p.links.get n) (f (p.links.get n)) → P p → P (modLink n f p)) : FeedKeeps S P :=
  feed_at (fun n _ => h.atFeed n) hl

/-- `P` does not look at lanes, nor at what the end of a lane's operation changes. -/
structure LaneFree (P : Part → Prop) : Prop extends StoreKeeps P where
  lane : ∀ n f p, P p → P (modLane n f p)
  endLaneOp : ∀ n s p, P p → P (endLaneOp n s p)

theorem endLaneOp_kept {P : Part → Prop} (hr : ∀ n r p, P p → P (postReply n r p)) (hm : ∀ f p, P p → P (modMgmt f p))
    (n : Ix) (s : DoneStatus) (p : Part) (hp : P p) : P (endLaneOp n s p) := by
  unfold endLaneOp
  split
  · exact hr _ _ _ (hm _ _ hp)
  · exact hp

theorem endOutOp_kept {P : Part → Prop} (hr : ∀ n r p, P p → P (postReply n r p)) (hm : ∀ f p, P p → P (modMgmt f p))
    (n : Ix) (s : DoneStatus) (p : Part) (hp : P p) : P (endOutOp n s p) := by
  unfold endOutOp
  split
  · exact hr _ _ _ (hm _ _ hp)
  · exact hp

section Lane
variable {P : Part → Prop} (h : LaneFree P) {p : Part}
include h

theorem LaneFree.unpinJob (n : Ix) (hp : P p) : P (unpinJob n p) :=
  forAll_kept (fun k q hq => h.unpinSlot k q hq) _ (h.lane _ _ _ hp)

theorem LaneFree.endJob (n : Ix) (hp : P p) : P (endJob n p) := by
  unfold Machine.endJob
  split
  · exact h.unpinJob n (h.lane _ _ _ hp)
  · exact hp

theorem LaneFree.abandonJob (n : Ix) (hp : P p) : P (abandonJob n p) := by
  unfold Machine.abandonJob
  split
  · exact h.lane _ _ _ (h.lane _ _ _ (h.unpinJob n hp))
  · exact hp

theorem LaneFree.carryPacket (n m : Ix) (k : Packet) (hp : P p) : P (carryPacket n m k p) := by
  unfold Machine.carryPacket carryRoom
  dsimp only
  refine h.lane _ _ _ (h.lane _ _ _ ?_)
  split
  · exact hp
  · split
    · exact h.report _ _ _ _ (h.lane _ _ _ (h.lane _ _ _ hp))
    · exact hp

theorem LaneFree.commitSwap (n : Ix) (hp : P p) : P (commitSwap n p) := by
  unfold Machine.commitSwap
  split
  · exact h.endLaneOp n _ _ (h.lane _ _ _ hp)
  · exact hp

theorem LaneFree.pinOne (n source : Ix) (k : SlotIx) (hp : P p) : P (pinOne n source k p) := by
  have hq := h.pinSlot source k p hp
  unfold Keeping.pinOne
  split
  · exact h.lane _ _ _ hq
  · exact hq

end Lane

theorem lane_free {P : Part → Prop} (h : LaneFree P) (S : Ix → Prop) : LaneKeeps S P where
  lane n f p _ _ := h.lane n f p
  laneRuns n f p _ _ := h.lane n f p
  laneStop n _ p _ _ _ _ _ := h.lane n _ p
  faultStopped n p _ _ := h.lane n _ p
  endJob n _ _ := h.endJob n
  abandonJob n _ _ := h.abandonJob n
  carryShrink n _ p _ _ := h.lane n _ p
  carryPacket n m k _ _ _ := h.carryPacket n m k
  commitSwap n _ _ := h.commitSwap n
  endPending n s _ _ hp := h.lane _ _ _ (h.endLaneOp n s _ hp)
  endStart n s _ _ _ hp := h.lane _ _ _ (h.endLaneOp n s _ hp)
  endCommit n s _ _ _ hp := h.lane _ _ _ (h.endLaneOp n s _ hp)
  endOther n s p _ _ := h.endLaneOp n s p
  jobSet n _ p _ _ _ _ _ := h.lane n _ p
  pin n source k _ _ _ := h.pinOne n source k

/-- `P` does not look at outputs, management and references. -/
structure OutFree (P : Part → Prop) : Prop where
  out : ∀ n f p, P p → P (modOut n f p)
  mgmt : ∀ f p, P p → P (modMgmt f p)
  ref : ∀ r v p, P p → P (setRef r v p)

section Out
variable {P : Part → Prop} (h : OutFree P) {p : Part}
include h

theorem OutFree.placeReply (n : Ix) (hp : P p) : P (placeReply n p) := by
  unfold Machine.placeReply
  split
  · exact hp
  · exact h.out _ _ _ (h.mgmt _ _ (h.out _ _ _ hp))

theorem OutFree.placeNotice (n : Ix) (k : Nat) (hp : P p) : P (placeNotice n k p) := by
  unfold Machine.placeNotice
  dsimp only
  split
  · exact h.out _ _ _ (h.out _ _ _ hp)
  · exact hp

theorem OutFree.placePackets (n : Ix) (o : Handover) (hp : P p) : P (placePackets n o p) :=
  h.out _ _ _ (h.placeNotice n _ (h.placeReply n (h.placeReply n (h.out _ _ _ hp))))

theorem OutFree.endOutOp (n : Ix) (s : DoneStatus) (hp : P p) : P (endOutOp n s p) :=
  endOutOp_kept (fun _ _ _ => h.out _ _ _) h.mgmt n s p hp

theorem OutFree.endLaneOp (n : Ix) (s : DoneStatus) (hp : P p) : P (endLaneOp n s p) :=
  endLaneOp_kept (fun _ _ _ => h.out _ _ _) h.mgmt n s p hp

theorem OutFree.endRelock (n : Ix) (s : DoneStatus) (hp : P p) : P (endRelock n s p) := h.endOutOp n s (h.out _ _ _ hp)

theorem OutFree.arrive (n : Ix) (ws : List Byte) (hp : P p) : P (arrive n ws p) := by
  unfold Machine.arrive countLost
  split
  · exact h.mgmt _ _ (h.mgmt _ _ hp)
  · split
    · exact h.mgmt _ _ (h.mgmt _ _ hp)
    · exact h.mgmt _ _ hp

end Out

theorem out_free {P : Part → Prop} (h : OutFree P) (S : Ix → Prop) : OutKeeps S P where
  out n f p _ := h.out n f p
  placePackets n o _ _ _ := h.placePackets n o
  endRelock n s _ := h.endRelock n s
  setRef r v p _ := h.ref r v p

section Operations
variable {S : Ix → Prop} {P : Part → Prop} {p : Part}

theorem forEach_kept {f : Ix → Part → Part} (h : ∀ n q, P q → P (f n q)) (hp : P p) : P (forEach f p) :=
  forAll_kept h allIx hp

theorem forSourcing_kept {n : Ix} {f : Ix → Part → Part}
    (h : ∀ m q, sourceOfLane q m = n → P q → P (f m q)) (hp : P p) : P (forSourcing n f p) := by
  refine forEach_kept (fun m q hq => ?_) hp
  split
  · next hs => exact h m q (of_decide_eq_true hs) hq
  · exact hq

variable (h : Keeps S P)
include h

namespace Keeps

/-! ### The store and the feeds -/

theorem integrityError (k : SlotIx) (hp : P p) : P (integrityError k p) := h.due _ (h.report _ _ _ _ hp)

theorem returnEntry (n : Ix) (e : Entry) (hp : P p) : P (returnEntry n e p) := by
  unfold Machine.returnEntry
  split
  · exact h.returnSlot _ _ _ hp
  · exact hp

theorem bumpFeed {n : Ix} (hn : S n) (f : FeedCounters → FeedCounters) (hp : P p) : P (bumpFeed n f p) :=
  h.feed n _ p hn ⟨rfl, rfl, rfl⟩ hp

theorem bumpLink {n : Ix} (hn : S n) (f : LinkCounters → LinkCounters) (hp : P p) : P (bumpLink n f p) :=
  h.link n _ p hn ⟨rfl, id⟩ hp

theorem recapture {n : Ix} (hn : S n) (hp : P p) : P (recapture n p) := h.feed n _ p hn ⟨rfl, rfl, rfl⟩ hp

theorem abandonNewest {n : Ix} (hn : S n) (logged : Bool) (hp : P p) : P (abandonNewest n logged p) := by
  unfold Machine.abandonNewest
  split
  · next e _ =>
    have hq : P (Machine.bumpFeed n (fun c => { c with holesAbandoned := bump c.holesAbandoned })
        (Machine.returnEntry n e (modNewest n (toHole .abandoned) p))) :=
      h.bumpFeed hn _ (h.returnEntry _ _ (h.newest _ _ _ hn (fun _ => ⟨rfl, rfl⟩) hp))
    split
    · dsimp only
      split
      · exact h.report _ _ _ _ hq
      · exact hq
    · exact hp
  · exact hp

theorem handPicture {n : Ix} (hn : S n) (code : Std) (a : Int) (par : Parity) (hp : P p) :
    P (handPicture n code a par p) := by
  unfold Machine.handPicture
  split
  · exact h.pictureStart _ _ _ _ _ hn hp
  · exact hp

theorem completePicture {n : Ix} (hn : S n) (k : SlotIx) (seq errors : Nat) (hp : P p) :
    P (completePicture n k seq errors p) := by
  unfold Machine.completePicture
  dsimp only
  split
  · exact h.bumpFeed hn _ (h.report _ _ _ _ (h.returnSlot _ _ _ (h.newest _ _ _ hn (fun _ => ⟨rfl, rfl⟩) hp)))
  · have hq := h.completeSlot k _ (h.newest n (fun e => { e with complete := true, lineErrors := errors }) _ hn
      (fun _ => ⟨rfl, rfl⟩) hp)
    refine h.bumpFeed hn _ ?_
    split
    · exact h.report _ _ _ _ hq
    · exact hq

theorem handCompletion {n : Ix} (hn : S n) (errors : Nat) (hp : P p) : P (handCompletion n errors p) := by
  unfold Machine.handCompletion
  dsimp only
  split
  · split
    · split
      · split
        · exact hp
        · exact h.completePicture hn _ _ _ hp
      · exact h.newest _ _ _ hn (fun _ => ⟨rfl, rfl⟩) hp
      · exact hp
    · exact hp
  · exact hp

/-! ### The lanes -/

theorem bumpLane {n : Ix} (hn : S (sourceOfLane p n)) (f : LaneCounters → LaneCounters) (hp : P p) :
    P (bumpLane n f p) := h.lane n _ p hn ⟨rfl, rfl, rfl, rfl, rfl, rfl, rfl, rfl, rfl, rfl, rfl⟩ hp

theorem bumpJob {n : Ix} (hn : S (sourceOfLane p n)) (f : JobCounters → JobCounters) (hp : P p) :
    P (bumpJob n f p) := h.lane n _ p hn ⟨rfl, rfl, rfl, rfl, rfl, rfl, rfl, rfl, rfl, rfl, rfl⟩ hp

theorem bumpCarry {n : Ix} (hn : S (sourceOfLane p n)) (f : CarryCounters → CarryCounters) (hp : P p) :
    P (bumpCarry n f p) := h.lane n _ p hn ⟨rfl, rfl, rfl, rfl, rfl, rfl, rfl, rfl, rfl, rfl, rfl⟩ hp

theorem enterSlate {n : Ix} (hn : S (sourceOfLane p n)) (hr : isRunning (p.lanes.get n).state = true) (hp : P p) :
    P (enterSlate n p) := by
  have h1 := h.laneRuns n (fun l => { l with state := .slate }) p hn
    ⟨rfl, ⟨hr, rfl⟩, rfl, rfl, rfl, rfl, rfl, rfl, rfl, rfl, rfl⟩ hp
  refine h.commitSwap _ _ (by simpa [sourceOfLane] using hn) (h.bumpLane (by simpa [sourceOfLane] using hn) _ ?_)
  exact h.latch _ _ h1

theorem enterHolding {n : Ix} (hn : S (sourceOfLane p n)) (hr : isRunning (p.lanes.get n).state = true) (hp : P p) :
    P (enterHolding n p) := by
  have h1 := h.laneRuns n (fun l => { l with state := .holding, holdCount := 0 }) p hn
    ⟨rfl, ⟨hr, rfl⟩, rfl, rfl, rfl, rfl, rfl, rfl, rfl, rfl, rfl⟩ hp
  have h2 := h.bumpLane (n := n) (p := latchSet (.inputLost n)
    (modLane n (fun l => { l with state := .holding, holdCount := 0 }) p)) (by simpa [sourceOfLane] using hn)
    (fun c => { c with holdEntries := bump c.holdEntries }) (h.latch _ _ h1)
  unfold Machine.enterHolding
  dsimp only
  split
  · exact h.enterSlate (by simpa [sourceOfLane] using hn) (by simp; rfl) h2
  · exact h2

theorem inputLoss {n : Ix} (hn : S (sourceOfLane p n)) (hp : P p) : P (inputLoss n p) := by
  unfold Machine.inputLoss
  split <;> rename_i hs
  · exact h.enterHolding hn (by rw [hs]; rfl) hp
  · exact h.enterHolding hn (by rw [hs]; rfl) hp
  all_goals exact hp

theorem inputReturn {n : Ix} (hn : S (sourceOfLane p n)) (hp : P p) : P (inputReturn n p) := by
  have key (hr : isRunning (p.lanes.get n).state = true) : P (modLane n (fun l => { l with state := .acquiring }) p) :=
    h.laneRuns n _ p hn ⟨rfl, ⟨hr, rfl⟩, rfl, rfl, rfl, rfl, rfl, rfl, rfl, rfl, rfl⟩ hp
  unfold Machine.inputReturn
  split <;> rename_i hs
  · exact key (by rw [hs]; rfl)
  · exact key (by rw [hs]; rfl)
  all_goals exact hp

theorem setUsable {n : Ix} (hn : S (sourceOfLane p n)) (b : Bool) (hp : P p) :
    P (modLane n (fun l => { l with usable := b }) p) :=
  h.lane n _ p hn ⟨rfl, rfl, rfl, rfl, rfl, rfl, rfl, rfl, rfl, rfl, rfl⟩ hp

theorem evalUsable {n : Ix} (hn : S (sourceOfLane p n)) (hp : P p) : P (evalUsable n p) := by
  have hq := h.setUsable hn (inputUsable p n) hp
  have hn' : S (sourceOfLane (modLane n (fun l => { l with usable := inputUsable p n }) p) n) := by
    simpa [sourceOfLane] using hn
  unfold Machine.evalUsable
  dsimp only
  split
  · exact h.inputLoss hn' hq
  · split
    · exact h.inputReturn hn' hq
    · exact hq

theorem checkMismatch (n : Ix) (hp : P p) : P (checkMismatch n p) := by
  unfold Machine.checkMismatch
  split
  · exact h.latch _ _ hp
  · exact hp

/-! ### The link receivers -/

theorem lockLost {n : Ix} (hn : S n) (hp : P p) : P (lockLost n p) := by
  have h1 := forSourcing_kept (fun m q hm hq => h.evalUsable (n := m) (by rw [hm]; exact hn) hq) (h.recapture hn hp)
  exact h.link _ _ _ hn ⟨rfl, id⟩
    (h.bumpLink hn _ (h.report _ _ _ _ (h.latch _ _ (h.abandonNewest hn false h1))))

/-- The link's own record as it goes to SEEKING (R7, R10). -/
def seekFrom (cur : Option Current) (l : LinkRx) : LinkRx :=
  { l with state := .seeking, est := none, window := none, recorded := none, cur := cur }

theorem toSeeking_of {n : Ix} (hn : S n) {cur : Option Current} (hp : P (modLink n (seekFrom cur) p)) :
    P (toSeeking n cur p) := by
  unfold toSeeking
  dsimp only
  split
  · exact h.lockLost hn hp
  · exact hp

theorem toSeeking {n : Ix} (hn : S n) (cur : Option Current) (hp : P p) : P (toSeeking n cur p) :=
  h.toSeeking_of hn (h.link _ _ _ hn ⟨rfl, fun hr => ⟨hr.1, by simp [extracts, seekFrom]⟩⟩ hp)

theorem packetFailed {n : Ix} (hn : S n) (hp : P p) : P (packetFailed n p) :=
  h.report _ _ _ _ (h.bumpLink hn _ hp)

theorem truncated {n : Ix} (hn : S n) (cut : Bool) (hp : P p) : P (truncated n cut p) := by
  unfold Machine.truncated
  split
  · exact h.packetFailed hn hp
  · exact hp

theorem markerSeeking {n : Ix} (hn : S n) (number : Nat) (par : Parity) (blank : Bool) (hp : P p) :
    P (markerSeeking n number par blank p) := by
  unfold Machine.markerSeeking
  dsimp only
  split
  · exact h.link _ _ _ hn ⟨rfl, id⟩ hp
  · split
    · exact h.link _ _ _ hn ⟨rfl, id⟩ hp
    · split
      · exact h.link _ _ _ hn ⟨rfl, id⟩ hp
      · split
        · exact h.link _ _ _ hn ⟨rfl, fun _ => ⟨by simp, by simp⟩⟩ hp
        · exact h.link _ _ _ hn ⟨rfl, id⟩ hp

theorem handMarker {n : Ix} (hn : S n) (code : Std) (par : Parity) (hp : P p) : P (handMarker n code par p) :=
  h.handPicture hn _ _ _ (h.link _ _ _ hn ⟨rfl, id⟩ hp)

theorem identified {n : Ix} (hn : S n) (hx : extracts (p.links.get n).state = true) (code : Std) (par : Parity)
    (hp : P p) : P (identified n code par p) := by
  have h1 := h.bumpLink hn (fun c => { c with identified := bump c.identified }) hp
  unfold Machine.identified
  dsimp only
  refine h.handMarker hn _ _ (forSourcing_kept (fun m q _ hq => h.checkMismatch m hq) (forSourcing_kept
    (fun m q hm hq => h.evalUsable (n := m) (by rw [hm]; exact hn) hq) (h.recapture hn ?_)))
  split
  · refine h.link _ _ _ hn ⟨rfl, ?_⟩ (h.flush _ _ hn h1)
    rw [flushFeed_links]
    exact fun hr => ⟨hr.1, fun _ => hr.2 (by simpa using hx)⟩
  · exact h.link _ _ _ hn ⟨rfl, fun hr => ⟨hr.1, fun _ => hr.2 (by simpa using hx)⟩⟩ h1

theorem newWindow {n : Ix} (hn : S n) (w : Option Window) (hp : P p) :
    P (modLink n (fun l => { l with window := w }) p) := h.link _ _ _ hn ⟨rfl, id⟩ hp

theorem markerMeasuring {n : Ix} (hn : S n) (hx : extracts (p.links.get n).state = true) (e : Established) (par : Parity)
    (hp : P p) : P (markerMeasuring n e par p) := by
  unfold Machine.markerMeasuring
  split
  · exact h.newWindow hn _ hp
  · split
    · exact h.newWindow hn _ hp
    · split
      · exact h.identified hn hx _ _ hp
      · exact h.newWindow hn _ (h.bumpLink hn _ hp)

theorem markerLocked {n : Ix} (hn : S n) (code : Std) (par : Parity) (hp : P p) : P (markerLocked n code par p) := by
  unfold Machine.markerLocked
  split
  · exact h.handMarker hn _ _ (h.newWindow hn _ hp)
  · split
    · exact h.handMarker hn _ _ (h.newWindow hn _ hp)
    · split
      · exact h.handMarker hn _ _ (h.newWindow hn _ hp)
      · exact h.toSeeking hn _ hp

theorem markerChecked {n : Ix} (hn : S n) (number : Nat) (par : Parity) (blank : Bool) (hp : P p) :
    P (markerChecked n number par blank p) := by
  unfold Machine.markerChecked
  dsimp only
  split
  · next e c _ _ =>
    have hq : P (modLink n (fun l => { l with
        missedRun := 0, cur := some (beginPicture par (expectedParity e c.parity) blank true) }) p) :=
      h.link _ _ _ hn ⟨rfl, fun _ => ⟨by simp, by simp⟩⟩ hp
    split
    · exact h.toSeeking hn _ hp
    · split <;> rename_i hs
      · exact h.markerMeasuring hn (by simp [hs, extracts]) _ _ hq
      · exact h.markerLocked hn _ _ hq
      · exact hq
      · exact hq
  · exact h.toSeeking hn _ hp

theorem seeLine {n : Ix} (hn : S n) (number : Nat) (blank : Bool) (hp : P p) : P (seeLine n number blank p) :=
  h.link _ _ _ hn ⟨rfl, id⟩ hp

theorem takeMarker {n : Ix} (hn : S n) (number : Nat) (par : Parity) (blank cut : Bool) (hp : P p) :
    P (takeMarker n number par blank cut p) := by
  have ht := h.truncated hn cut hp
  unfold Machine.takeMarker
  dsimp only
  split
  · exact ht
  · exact h.seeLine hn _ _ (h.markerSeeking hn _ _ _ ht)
  · exact h.seeLine hn _ _ (h.markerChecked hn _ _ _ ht)
  · exact h.seeLine hn _ _ (h.markerChecked hn _ _ _ ht)

theorem lineSeeking {n : Ix} (hn : S n) (number : Nat) (blank : Bool) (hp : P p) : P (lineSeeking n number blank p) := by
  unfold Machine.lineSeeking
  dsimp only
  split
  · exact h.link _ _ _ hn ⟨rfl, id⟩ hp
  · exact h.link _ _ _ hn ⟨rfl, id⟩ hp

/-- The third missed marker is counted and takes the link to SEEKING in one change of the receiver. -/
theorem missedMarker {n : Ix} (hn : S n) (hx : extracts (p.links.get n).state = true) (blank : Bool) (hp : P p) :
    P (missedMarker n blank p) := by
  have h1 := h.bumpLink hn (fun c => { c with missedMarkers := bump c.missedMarkers }) hp
  have low (hr : runOk (p.links.get n)) : (p.links.get n).missedRun ≤ 2 := hr.2 hx
  unfold Machine.missedMarker
  dsimp only
  split
  · refine h.toSeeking_of hn ?_
    rw [modLink_modLink]
    refine h.link _ _ _ hn ⟨rfl, fun hr => ⟨?_, by simp [extracts, seekFrom]⟩⟩ h1
    have := low (by simpa [runOk] using hr)
    simp only [seekFrom]
    omega
  · next hrun =>
    have h2 := h.link n (fun l => { l with missedRun := (p.links.get n).missedRun + 1, window := none }) _ hn
      ⟨rfl, fun _ => ⟨by simp only; omega, fun _ => by simp only; omega⟩⟩ h1
    split
    · exact h.link _ _ _ hn ⟨rfl, id⟩ h2
    · exact h2

theorem lineChecked {n : Ix} (hn : S n) (hx : extracts (p.links.get n).state = true) (number : Nat) (blank : Bool)
    (hp : P p) : P (lineChecked n number blank p) := by
  unfold Machine.lineChecked
  split
  · exact h.missedMarker hn hx _ hp
  · split
    · exact h.toSeeking hn _ hp
    · exact h.link _ _ _ hn ⟨rfl, id⟩ hp

theorem takeLine {n : Ix} (hn : S n) (number : Nat) (blank cut : Bool) (hp : P p) :
    P (takeLine n number blank cut p) := by
  have ht := h.truncated hn cut hp
  unfold Machine.takeLine
  dsimp only
  split <;> rename_i hs
  · exact ht
  · exact h.seeLine hn _ _ (h.lineSeeking hn _ _ ht)
  · exact h.seeLine hn _ _ (h.lineChecked hn (by rw [hs]; rfl) _ _ ht)
  · exact h.seeLine hn _ _ (h.lineChecked hn (by rw [hs]; rfl) _ _ ht)

theorem checkLine {n : Ix} (hn : S n) (captured : Bool) (ss : List LinkSample) (check : BitVec 16) (hp : P p) :
    P (checkLine n captured ss check p) := by
  unfold Machine.checkLine
  dsimp only
  split
  · exact hp
  · split
    · exact h.link _ _ _ hn ⟨rfl, id⟩ (h.bumpLink hn _ hp)
    · exact h.bumpLink hn _ hp

theorem takeLineEnd {n : Ix} (hn : S n) (ss : List LinkSample) (check : BitVec 16) (hp : P p) :
    P (takeLineEnd n ss check p) := by
  unfold Machine.takeLineEnd
  dsimp only
  split
  · exact hp
  · next active _ =>
    have h1 : P (modLink n (fun l => { l with
        line := none, cur := if active then l.cur.map (countSamples (lumaCount (activeSamples active ss))) else l.cur }) p) :=
      h.link _ _ _ hn ⟨rfl, id⟩ hp
    have ite_kept : ∀ {b : Prop} [Decidable b] {a c : Part}, P a → P c → P (if b then a else c) :=
      fun ha hc => by split <;> assumption
    have h2 := ite_kept (b := extracts (p.links.get n).state = true)
      (h.checkLine hn (capturesLine (p.links.get n) active) (activeSamples active ss) check h1) h1
    have h3 := ite_kept (b := capturesLine (p.links.get n) active = true)
      (h.captureLine n (((p.links.get n).cur.map Current.active).getD 0 - 1) (activeSamples active ss) _ h2) h2
    exact ite_kept (h.handCompletion hn _ h3) h3

theorem labelOffer {n : Ix} (hn : S n) (code : Std) (seq : Nat) (ws : List Byte) (hp : P p) :
    P (labelOffer n code seq ws p) := by
  unfold Machine.labelOffer
  split
  · exact h.newest _ _ _ hn (fun _ => ⟨rfl, rfl⟩) hp
  · refine forEach_kept (fun m q hq => ?_) hp
    split
    · next hm =>
      have hs : sourceOfLane q m = n := by
        simp only [Bool.and_eq_true] at hm
        exact of_decide_eq_true hm.1
      exact h.bumpCarry (by simpa [sourceOfLane, ← hs] using hn) _ (h.report _ _ _ _ hq)
    · exact hq

theorem takeTimecode {n : Ix} (hn : S n) (ws : List Byte) (hp : P p) : P (takeTimecode n ws p) := by
  unfold Machine.takeTimecode
  split
  · exact h.labelOffer hn _ _ _ hp
  · exact h.bumpLink hn _ hp

theorem takeOffer {n m : Ix} (hm : S (sourceOfLane p m)) (k : Packet) (hp : P p) : P (takeOffer n k m p) := by
  unfold Machine.takeOffer
  split
  · next hr =>
    split
    · exact h.carryPacket _ _ _ _ hm hr hp
    · exact h.bumpCarry hm _ hp
  · exact hp

theorem dispatch {n : Ix} (hn : S n) (harrive : ∀ ws q, P q → P (Machine.arrive n ws q)) (k : Packet) (hp : P p) : P (dispatch n k p) := by
  unfold Machine.dispatch
  split
  · exact harrive _ _ hp
  · split
    · exact h.takeTimecode hn _ hp
    · exact forSourcing_kept (fun m q hm hq => h.takeOffer (by rw [hm]; exact hn) k hq) hp

theorem takePacket {n : Ix} (hn : S n) (harrive : ∀ ws q, P q → P (Machine.arrive n ws q)) (words : List (BitVec 10))
    (hp : P p) : P (takePacket n words p) := by
  unfold Machine.takePacket
  split
  · split
    · exact h.dispatch hn harrive _ hp
    · exact h.packetFailed hn hp
  · exact hp

theorem present {cmd : Command} (hn : S cmd.link) (harrive : ∀ ws q, P q → P (Machine.arrive cmd.link ws q))
    (code : Byte) (hp : P p) : P (present code cmd p) := by
  unfold Machine.present
  split
  · exact h.dispatch hn harrive _ hp
  · exact hp

theorem gainActivity {n : Ix} (hn : S n) (hp : P p) : P (gainActivity n p) := by
  refine h.link _ _ _ hn ⟨?_, fun hr => ?_⟩ hp
  · split <;> rfl
  · split
    · exact ⟨hr.1, by simp [extracts]⟩
    · exact hr

theorem loseActivity {n : Ix} (hn : S n) (cut : Bool) (hp : P p) : P (loseActivity n cut p) := by
  unfold Machine.loseActivity
  dsimp only
  have h1 := h.link n (fun l => { l with
      activity := false, state := .dark, est := none, window := none, missedRun := 0, cur := none,
      recorded := none, lastNumber := none, line := none }) _ hn
    ⟨rfl, fun _ => ⟨by simp, by simp⟩⟩ (h.truncated hn cut hp)
  split
  · exact h.lockLost hn h1
  · exact h1

end Keeps
end Operations
end Sys2Proof.Machine.Keeping
end

section
/-! SUPPORT. The operations of lanes, outputs and lines as changes that keep a predicate, and what the operations of a lane
leave of the lane and of the pending-operation records. -/

namespace Sys2Proof.Machine.Keeping

open Frames

section LaneFrames
variable (n : Ix) (p : Part)

/-! ### What the operations of a lane leave -/

/-- A pending operation that ends leaves its record empty, and a record that is empty stays so (R174). -/
@[simp] theorem endLaneOp_laneOps (s : DoneStatus) : (endLaneOp n s p).mgmt.laneOps = p.mgmt.laneOps.set n none := by
  unfold endLaneOp
  split
  · rfl
  · next h => rw [← h, Four.set_get]

@[simp] theorem endLaneOp_frame (s : DoneStatus) :
    (endLaneOp n s p).timebase = p.timebase ∧ (endLaneOp n s p).straps = p.straps
      ∧ (endLaneOp n s p).links = p.links ∧ (endLaneOp n s p).feeds = p.feeds ∧ (endLaneOp n s p).store = p.store
      ∧ (endLaneOp n s p).lanes = p.lanes ∧ (endLaneOp n s p).refA = p.refA ∧ (endLaneOp n s p).refB = p.refB
      ∧ (endLaneOp n s p).fault = p.fault ∧ (endLaneOp n s p).mute = p.mute := by
  unfold endLaneOp; split <;> exact ⟨rfl, rfl, rfl, rfl, rfl, rfl, rfl, rfl, rfl, rfl⟩

@[simp] theorem endLaneOp_mgmt (s : DoneStatus) :
    (endLaneOp n s p).mgmt = { p.mgmt with laneOps := p.mgmt.laneOps.set n none } := by
  unfold endLaneOp
  split
  · rfl
  · next h => rw [← h, Four.set_get]

@[simp] theorem endOutOp_frame (s : DoneStatus) :
    (endOutOp n s p).timebase = p.timebase ∧ (endOutOp n s p).straps = p.straps
      ∧ (endOutOp n s p).links = p.links ∧ (endOutOp n s p).feeds = p.feeds ∧ (endOutOp n s p).store = p.store
      ∧ (endOutOp n s p).lanes = p.lanes ∧ (endOutOp n s p).refA = p.refA ∧ (endOutOp n s p).refB = p.refB
      ∧ (endOutOp n s p).fault = p.fault ∧ (endOutOp n s p).mute = p.mute := by
  unfold endOutOp; split <;> exact ⟨rfl, rfl, rfl, rfl, rfl, rfl, rfl, rfl, rfl, rfl⟩

@[simp] theorem endOutOp_mgmt (s : DoneStatus) :
    (endOutOp n s p).mgmt = { p.mgmt with outOps := p.mgmt.outOps.set n none } := by
  unfold endOutOp
  split
  · rfl
  · next h => rw [← h, Four.set_get]

/-- Unpinning changes the store and the fault unit, and empties the list of pins. -/
theorem unpinJob_keeps {β : Type} {g : Part → β} (h : StoreBlind g) :
    g (unpinJob n p) = g (modLane n (fun l => { l with job := { l.job with pinned := [] } }) p) :=
  forAll_keeps g _ (fun k _ => h.unpinSlot k) _ _

theorem storeBlind_lanes : StoreBlind (fun p => p.lanes) := ⟨fun _ _ => rfl, fun _ _ => rfl, fun _ _ => by simp⟩
theorem storeBlind_links : StoreBlind (fun p => p.links) := ⟨fun _ _ => rfl, fun _ _ => rfl, fun _ _ => by simp⟩
theorem storeBlind_feeds : StoreBlind (fun p => p.feeds) := ⟨fun _ _ => rfl, fun _ _ => rfl, fun _ _ => by simp⟩
theorem storeBlind_mgmt : StoreBlind (fun p => p.mgmt) := ⟨fun _ _ => rfl, fun _ _ => rfl, fun _ _ => by simp⟩
theorem storeBlind_straps : StoreBlind (fun p => p.straps) := ⟨fun _ _ => rfl, fun _ _ => rfl, fun _ _ => by simp⟩
theorem storeBlind_timebase : StoreBlind (fun p => p.timebase) := ⟨fun _ _ => rfl, fun _ _ => rfl, fun _ _ => by simp⟩
theorem storeBlind_mute : StoreBlind (fun p => p.mute) := ⟨fun _ _ => rfl, fun _ _ => rfl, fun _ _ => by simp⟩
theorem storeBlind_refA : StoreBlind (fun p => p.refA) := ⟨fun _ _ => rfl, fun _ _ => rfl, fun _ _ => by simp⟩
theorem storeBlind_refB : StoreBlind (fun p => p.refB) := ⟨fun _ _ => rfl, fun _ _ => rfl, fun _ _ => by simp⟩

theorem unpinJob_lanes :
    (unpinJob n p).lanes = p.lanes.modify n (fun l => { l with job := { l.job with pinned := [] } }) :=
  unpinJob_keeps n p storeBlind_lanes

/-- A lane whose job in flight has been abandoned; one without a job in flight is left as it is (R82). -/
def abandoned (l : Lane) : Lane :=
  if l.job.inFlight then
    { l with job := closeJob { l.job with pinned := [] }, jobCtr := { l.jobCtr with jobsAbandoned := bump l.jobCtr.jobsAbandoned } }
  else l

@[simp] theorem abandonJob_lanes : (abandonJob n p).lanes = p.lanes.modify n abandoned := by
  unfold abandonJob
  split
  · next h =>
    simp only [bumpJob_eq, modLane_lanes, unpinJob_lanes, Four.modify_modify]
    simp [Four.modify, abandoned, h]
  · next h => simp [Four.modify, abandoned, h]

theorem abandonJob_keeps {β : Type} {g : Part → β} (h : StoreBlind g) (hl : ∀ f p, g (modLane n f p) = g p) :
    g (abandonJob n p) = g p := by
  unfold abandonJob
  split
  · simp only [bumpJob_eq, hl, unpinJob_keeps n p h]
  · rfl

@[simp] theorem abandonJob_frame :
    (abandonJob n p).timebase = p.timebase ∧ (abandonJob n p).straps = p.straps
      ∧ (abandonJob n p).links = p.links ∧ (abandonJob n p).feeds = p.feeds ∧ (abandonJob n p).refA = p.refA
      ∧ (abandonJob n p).refB = p.refB ∧ (abandonJob n p).mgmt = p.mgmt ∧ (abandonJob n p).mute = p.mute :=
  ⟨abandonJob_keeps n p storeBlind_timebase (fun _ _ => rfl), abandonJob_keeps n p storeBlind_straps (fun _ _ => rfl),
   abandonJob_keeps n p storeBlind_links (fun _ _ => rfl), abandonJob_keeps n p storeBlind_feeds (fun _ _ => rfl),
   abandonJob_keeps n p storeBlind_refA (fun _ _ => rfl), abandonJob_keeps n p storeBlind_refB (fun _ _ => rfl),
   abandonJob_keeps n p storeBlind_mgmt (fun _ _ => rfl), abandonJob_keeps n p storeBlind_mute (fun _ _ => rfl)⟩

/-- A lane whose carry queue has been flushed (R146). -/
def carryFlushed (l : Lane) : Lane :=
  { l with carry := [], carryCtr := { l.carryCtr with itemsFlushed := bumpBy l.carry.length l.carryCtr.itemsFlushed } }

theorem flushCarry_eq : flushCarry n p = modLane n carryFlushed p := by
  simp [flushCarry, modLane, Four.modify, carryFlushed]

@[simp] theorem clearLane_lanes :
    (clearLane n p).lanes = p.lanes.modify n (fun l => carryFlushed (abandoned l)) := by
  simp [clearLane, flushCarry_eq]

@[simp] theorem clearLane_frame :
    (clearLane n p).timebase = p.timebase ∧ (clearLane n p).straps = p.straps
      ∧ (clearLane n p).links = p.links ∧ (clearLane n p).feeds = p.feeds ∧ (clearLane n p).refA = p.refA
      ∧ (clearLane n p).refB = p.refB ∧ (clearLane n p).mgmt = p.mgmt ∧ (clearLane n p).mute = p.mute := by
  simp [clearLane, flushCarry_eq]

theorem abandoned_inFlight (l : Lane) : (abandoned l).job.inFlight = false := by
  unfold abandoned
  split
  · rfl
  · next h => exact Bool.eq_false_iff.2 h

/-! ### Feeds under a flush -/

theorem flushFeed_keeps {β : Type} {g : Part → β} (h : StoreBlind g) (hf : ∀ f p, g (modFeed n f p) = g p) :
    g (flushFeed n p) = g p := by
  simp only [flushFeed, bumpFeed_eq, hf]
  rw [forAll_keeps g _ (fun e _ => h.returnEntry n e), hf]

@[simp] theorem flushFeed_frame :
    (flushFeed n p).timebase = p.timebase ∧ (flushFeed n p).straps = p.straps
      ∧ (flushFeed n p).links = p.links ∧ (flushFeed n p).lanes = p.lanes ∧ (flushFeed n p).refA = p.refA
      ∧ (flushFeed n p).refB = p.refB ∧ (flushFeed n p).mgmt = p.mgmt ∧ (flushFeed n p).mute = p.mute :=
  ⟨flushFeed_keeps n p storeBlind_timebase (fun _ _ => rfl), flushFeed_keeps n p storeBlind_straps (fun _ _ => rfl),
   flushFeed_keeps n p storeBlind_links (fun _ _ => rfl), flushFeed_keeps n p storeBlind_lanes (fun _ _ => rfl),
   flushFeed_keeps n p storeBlind_refA (fun _ _ => rfl), flushFeed_keeps n p storeBlind_refB (fun _ _ => rfl),
   flushFeed_keeps n p storeBlind_mgmt (fun _ _ => rfl), flushFeed_keeps n p storeBlind_mute (fun _ _ => rfl)⟩

@[simp] theorem recapture_frame :
    (recapture n p).timebase = p.timebase ∧ (recapture n p).straps = p.straps ∧ (recapture n p).links = p.links
      ∧ (recapture n p).store = p.store ∧ (recapture n p).lanes = p.lanes ∧ (recapture n p).outs = p.outs
      ∧ (recapture n p).refA = p.refA ∧ (recapture n p).refB = p.refB ∧ (recapture n p).mgmt = p.mgmt
      ∧ (recapture n p).fault = p.fault ∧ (recapture n p).mute = p.mute :=
  ⟨rfl, rfl, rfl, rfl, rfl, rfl, rfl, rfl, rfl, rfl, rfl⟩

theorem leaveRunning_keeps {β : Type} {g : Part → β} (h : StoreBlind g) (hf : ∀ m f p, g (modFeed m f p) = g p)
    (hl : ∀ f p, g (modLane n f p) = g p) (s : LaneState) : g (leaveRunning n s p) = g p := by
  simp only [leaveRunning, recapture, hf]
  split
  · rw [flushFeed_keeps _ _ h (hf _), hl]
  · rw [hl]

@[simp] theorem leaveRunning_lanes (s : LaneState) :
    (leaveRunning n s p).lanes = p.lanes.modify n (fun l => { l with state := s }) := by
  simp only [leaveRunning, recapture_frame]
  split <;> simp

@[simp] theorem leaveRunning_frame (s : LaneState) :
    (leaveRunning n s p).timebase = p.timebase ∧ (leaveRunning n s p).straps = p.straps
      ∧ (leaveRunning n s p).links = p.links ∧ (leaveRunning n s p).refA = p.refA
      ∧ (leaveRunning n s p).refB = p.refB ∧ (leaveRunning n s p).mgmt = p.mgmt
      ∧ (leaveRunning n s p).mute = p.mute :=
  ⟨leaveRunning_keeps n p storeBlind_timebase (fun _ _ _ => rfl) (fun _ _ => rfl) s,
   leaveRunning_keeps n p storeBlind_straps (fun _ _ _ => rfl) (fun _ _ => rfl) s,
   leaveRunning_keeps n p storeBlind_links (fun _ _ _ => rfl) (fun _ _ => rfl) s,
   leaveRunning_keeps n p storeBlind_refA (fun _ _ _ => rfl) (fun _ _ => rfl) s,
   leaveRunning_keeps n p storeBlind_refB (fun _ _ _ => rfl) (fun _ _ => rfl) s,
   leaveRunning_keeps n p storeBlind_mgmt (fun _ _ _ => rfl) (fun _ _ => rfl) s,
   leaveRunning_keeps n p storeBlind_mute (fun _ _ _ => rfl) (fun _ _ => rfl) s⟩

end LaneFrames

/-! ### Lanes, jobs and lines -/

section JobFrames
variable {p : Part}

theorem pinOne_inFlight (n source : Ix) (k : SlotIx) (hj : (p.lanes.get n).job.inFlight = true) :
    ((pinOne n source k p).lanes.get n).job.inFlight = true := by
  have e : (pinSlot source k p).1.lanes = p.lanes := storeBlind_lanes.pinSlot source k
  unfold pinOne
  split <;> simp [e, hj]


/-- A job start hands on at most 7 carried packets (R145). -/
theorem deliver_length (n : Ix) (t : Int) {ks : List Packet} (hk : (deliver n t p).2 = some ks) :
    ks.length ≤ 7 := by
  unfold deliver at hk
  dsimp only at hk
  split at hk
  · cases hk
  · cases hk
    simp only [List.length_map, dueItems, Config.deliverMax, List.length_take]
    omega

theorem commitSwap_runs (n : Ix) : runsJobs ((commitSwap n p).lanes.get n).state = runsJobs (p.lanes.get n).state := by
  unfold commitSwap
  split <;> simp

theorem startJob_carried (n : Ix) (instant : Int) (par : Option Parity) :
    (startJob n instant par p).2.carried.length ≤ 7 := by
  unfold startJob
  dsimp only
  split
  · simp
  · next hd => exact deliver_length _ _ (congrArg Prod.snd hd)

theorem laneBoundary_carried (n : Ix) (instant : Int) (par : Option Parity) :
    (laneBoundary n instant par p).2.carried.length ≤ 7 := by
  unfold laneBoundary
  split
  · exact startJob_carried ..
  · simp

theorem poisonJob_holds (input : Std) (s : Src) (l : Nat) (j : JobRec) :
    (poisonJob input s l j).inFlight = j.inFlight ∧ (poisonJob input s l j).pinned = j.pinned
      ∧ (poisonJob input s l j).kept = j.kept := by cases s <;> exact ⟨rfl, rfl, rfl⟩

end JobFrames

section Operations
variable {P : Part → Prop} {p : Part} (h : Keeps (fun _ => True) P)
include h

namespace Keeps

theorem clearLane (n : Ix) (hp : P p) : P (clearLane n p) := by
  have h1 := h.abandonJob n p trivial hp
  rw [Machine.clearLane, flushCarry]
  exact h.carryShrink n (fun _ => []) _ trivial (fun _ => Nat.zero_le _) (h.bumpCarry trivial _ h1)

theorem resetTimecode (n : Ix) (hp : P p) : P (resetTimecode n p) :=
  h.lane n _ p trivial ⟨rfl, rfl, rfl, rfl, rfl, rfl, rfl, rfl, rfl, rfl, rfl⟩ hp

theorem clearHold (n : Ix) (hp : P p) : P (clearHold n p) :=
  h.lane n _ p trivial ⟨rfl, rfl, rfl, rfl, rfl, rfl, rfl, rfl, rfl, rfl, rfl⟩ hp

theorem leaveRunning (n : Ix) (s : LaneState)
    (hs : s = .faulted ∨ (s = .stopped ∧ isRunning (p.lanes.get n).state = true))
    (hj : (p.lanes.get n).job.inFlight = false) (hc : (p.lanes.get n).carry = [])
    (ho : opDone p n) (hp : P p) : P (leaveRunning n s p) := by
  have h1 := h.laneStop n s p trivial hs hj hc ho hp
  unfold Machine.leaveRunning
  dsimp only
  split
  · exact h.recapture trivial (h.flush _ _ trivial h1)
  · exact h.recapture trivial h1

theorem laneFatal (n : Ix) (hp : P p) : P (laneFatal n p) := by
  have h1 := h.clearHold n (h.endPending n .faulted _ trivial (h.clearLane n hp))
  refine h.bumpLane trivial _ (h.latch _ _ (h.leaveRunning n .faulted (.inl rfl) ?_ ?_ ?_ h1))
  all_goals simp [clearPending, carryFlushed, abandoned_inFlight, opDone, laneOpKind]

theorem deviceFatalLane (n : Ix) (hp : P p) : P (deviceFatalLane n p) := by
  unfold Machine.deviceFatalLane
  split <;> rename_i hs
  · exact hp
  · exact h.bumpLane trivial _ (h.latch _ _ (h.faultStopped n p trivial hs hp))
  all_goals exact h.laneFatal n hp

theorem pinAll (n source : Ix) (ks : List SlotIx) (hj : (p.lanes.get n).job.inFlight = true) (hp : P p) :
    P (pinAll n source ks p) := by
  induction ks generalizing p with
  | nil => exact hp
  | cons k ks ih =>
    rw [pinAll_cons]
    exact ih (pinOne_inFlight n source k hj) (h.pin _ _ _ _ trivial hj hp)

theorem acquire (n : Ix) (hs : (p.lanes.get n).state = .acquiring) (hp : P p) : P (acquire n p) := by
  have h1 := h.bumpLane (n := n) trivial (fun c => { c with acquisitions := bump c.acquisitions })
    (h.laneRuns n (fun l => { l with state := .converting }) p trivial
      ⟨rfl, ⟨by rw [hs]; rfl, rfl⟩, rfl, rfl, rfl, rfl, rfl, rfl, rfl, rfl, rfl⟩ hp)
  unfold Machine.acquire
  dsimp only
  split
  · next hk => exact h.endStart n .complete _ trivial hk h1
  · exact h1

theorem holdJob (n : Ix) (hs : (p.lanes.get n).state = .holding) (hp : P p) : P (holdJob n p) := by
  have h1 := h.bumpLane (n := n) trivial (fun c => { c with heldJobs := bump c.heldJobs })
    (h.lane n (fun l => { l with holdCount := l.holdCount + 1 }) p trivial
      ⟨rfl, rfl, rfl, rfl, rfl, rfl, rfl, rfl, rfl, rfl, rfl⟩ hp)
  unfold Machine.holdJob
  dsimp only
  split
  · exact h.enterSlate trivial (by simp [hs, isRunning]) h1
  · exact h1

theorem jobStateChange (n : Ix) (hp : P p) : P (jobStateChange n p) := by
  unfold Machine.jobStateChange
  split <;> rename_i hs
  · split
    · exact h.acquire n hs hp
    · exact hp
  · exact h.holdJob n hs hp
  all_goals exact hp

theorem deliver (n : Ix) (t : Int) (hp : P p) : P (deliver n t p).1 := by
  unfold Machine.deliver
  dsimp only
  split
  · exact h.laneFatal n (h.report _ _ _ _ hp)
  · dsimp only
    exact h.bumpCarry trivial _ (h.carryShrink n (fun c => c.drop (dueItems t (p.lanes.get n).carry).length) p trivial (fun c => by simp) hp)

theorem timecode (n : Ix) (j : Nat) (hp : P p) : P (timecode n j p).1 := by
  unfold Machine.timecode
  dsimp only
  split
  · exact hp
  · dsimp only
    refine h.bumpCarry trivial _ (h.lane n _ p trivial ?_ hp)
    exact ⟨rfl, rfl, rfl, rfl, rfl, rfl, rfl, rfl, rfl, rfl, rfl⟩

theorem startJob (n : Ix) (instant : Int) (par : Option Parity) (hr : runsJobs (p.lanes.get n).state = true) (hp : P p) :
    P (startJob n instant par p).1 := by
  have h1 := h.commitSwap n p trivial hp
  have h2 := h.jobSet n (jobAtStart (Machine.commitSwap n p) n instant par) _ trivial
    (by rwa [commitSwap_runs]) rfl rfl rfl h1
  have h3 := h.jobStateChange n (h.bumpJob (n := n) trivial
    (countJob ((Machine.commitSwap n p).lanes.get n).state (jobAtStart (Machine.commitSwap n p) n instant par))
    (h.pinAll n ((Machine.commitSwap n p).lanes.get n).profile.source
      (slotsToPin (jobAtStart (Machine.commitSwap n p) n instant par)) (by simp; rfl) h2))
  have h4 := h.deliver n (instant - ((Machine.commitSwap n p).lanes.get n).profile.latency) h3
  unfold Machine.startJob
  dsimp only
  split
  · next hd => rw [hd] at h4; exact h4
  · next hd => rw [hd] at h4; exact h.timecode n _ h4

theorem laneBoundary (n : Ix) (instant : Int) (par : Option Parity) (hp : P p) : P (laneBoundary n instant par p).1 := by
  unfold Machine.laneBoundary
  split
  · next hr => exact h.startJob n _ _ hr hp
  · exact hp

theorem applyTrace (n : Ix) (t : Trace) (hp : P p) : P (applyTrace n t p) :=
  h.lane n _ _ trivial ⟨rfl, rfl, rfl, rfl, rfl, rfl, rfl, rfl, rfl, rfl, rfl⟩
    (forAll_kept (fun k q hq => h.correctedRead k q hq) _ hp)

theorem markPoisoned (n : Ix) (s : Src) (l : Nat) (hp : P p) : P (markPoisoned n s l p) := by
  obtain ⟨hf, hpin, hk⟩ := poisonJob_holds (p.lanes.get n).profile.input s l (p.lanes.get n).job
  exact h.bumpJob trivial _ (h.lane n _ _ trivial ⟨rfl, rfl, rfl, rfl, rfl, rfl, rfl, rfl, hf, hpin, hk⟩ hp)

theorem computeLine (n : Ix) (l fuel : Nat) (hp : P p) : P (computeLine n l fuel p).1 := by
  induction fuel generalizing p with
  | zero => exact hp
  | succ fuel ih =>
    unfold Machine.computeLine
    split
    · split
      · exact h.applyTrace n _ hp
      · exact ih (h.markPoisoned n _ _ (h.uncorrectableRead _ _ (h.applyTrace n _ hp)))
      · exact h.laneFatal n (h.report _ _ _ _ (h.applyTrace n _ hp))
    · exact hp

theorem emitLine (n : Ix) (hp : P p) : P (emitLine n p) := by
  unfold Machine.emitLine
  dsimp only
  split
  · split
    · exact h.out n _ _ ⟨rfl, rfl, rfl, rfl, rfl, rfl⟩ (h.computeLine n _ 6 hp)
    · exact h.out n _ _ ⟨rfl, rfl, rfl, rfl, rfl, rfl⟩ hp
  · exact hp

/-! ### References and outputs -/

theorem bumpOut (n : Ix) (f : OutCounters → OutCounters) (hp : P p) : P (bumpOut n f p) :=
  h.out n _ p ⟨rfl, rfl, rfl, rfl, rfl, rfl⟩ hp

theorem enterHoldover (n : Ix) (pm : Nat) (hp : P p) : P (enterHoldover n pm p) :=
  h.bumpOut n _ (h.report _ _ _ _ (h.latch _ _ (h.out n _ p ⟨rfl, rfl, rfl, rfl, rfl, rfl⟩ hp)))

theorem loseReference (r : RefId) (n : Ix) (hp : P p) : P (loseReference r n p) := by
  unfold Machine.loseReference
  dsimp only
  split
  · split
    · exact h.enterHoldover n _ hp
    · exact hp
  · exact hp
  · exact hp

theorem refAbsent (r : RefId) (hp : P p) : P (refAbsent r p) :=
  forEach_kept (fun n _ hq => h.loseReference r n hq) (h.setRef _ _ _ (fun _ => trivial) hp)

theorem followMarker (r : RefId) (t pr : Nat) (n : Ix) (hp : P p) : P (followMarker r t pr n p) := by
  unfold Machine.followMarker
  dsimp only
  split
  · split
    · split
      · exact h.out n _ p ⟨rfl, rfl, rfl, rfl, rfl, rfl⟩ hp
      · exact h.enterHoldover n _ hp
    · exact hp
  · exact hp
  · exact hp

theorem takeRefMarker (r : RefId) (hp : P p) : P (takeRefMarker r p) := by
  have set (v : RefInput) {q : Part} (hq : P q) : P (Machine.setRef r v q) := h.setRef _ _ _ (fun _ => trivial) hq
  unfold Machine.takeRefMarker
  dsimp only
  split
  · split
    · split
      · exact forEach_kept (fun n _ hq => h.followMarker r _ _ n hq) (set _ hp)
      · exact set _ (h.refAbsent r hp)
    · exact set _ hp
  · exact set _ hp

theorem changeStandard (n : Ix) (s : Std) (hp : P p) : P (changeStandard n s p) :=
  h.bumpOut n _ (h.endRelock n _ _ (h.out n _ p ⟨rfl, rfl, rfl, rfl, rfl, rfl⟩ hp))

theorem placeFree (n : Ix) (next : Int) (hp : P p) : P (placeFree n next p) :=
  h.out n _ p ⟨rfl, rfl, rfl, rfl, rfl, rfl⟩ hp

theorem placeAligned (n : Ix) (al : Alignment) (i : Nat) (hp : P p) : P (placeAligned n al i p) :=
  h.out n _ p ⟨rfl, rfl, rfl, rfl, rfl, rfl⟩ hp

theorem alignAt (n : Ix) (instant : Int) (faster : Bool) (k pr m : Nat) (hp : P p) : P (alignAt n instant faster k pr m p) := by
  unfold Machine.alignAt
  refine h.bumpOut n _ (h.placeAligned n _ _ (h.out n _ p ?_ hp))
  exact ⟨rfl, rfl, rfl, rfl, rfl, rfl⟩

theorem scheduleLocked (n : Ix) (instant : Int) (al : Alignment) (hp : P p) : P (scheduleLocked n instant al p) := by
  unfold Machine.scheduleLocked
  dsimp only
  split
  · exact h.placeAligned n _ _ hp
  · exact h.bumpOut n _ (h.placeAligned n _ _ hp)

theorem schedule (n : Ix) (instant : Int) (hp : P p) : P (schedule n instant p) := by
  unfold Machine.schedule
  dsimp only
  split
  · split
    · exact h.alignAt n _ _ _ _ _ hp
    · exact h.placeFree n _ hp
  · exact h.scheduleLocked n _ _ hp
  · split
    · split
      · exact h.endRelock n _ _ (h.alignAt n _ _ _ _ _ hp)
      · exact h.placeFree n _ hp
    · exact h.placeFree n _ hp

theorem recordBoundary (n : Ix) (instant : Int) (par : Option Parity) (hp : P p) : P (recordBoundary n instant par p) :=
  h.out n _ _ ⟨rfl, rfl, rfl, rfl, rfl, rfl⟩ (h.bumpOut n _ hp)

theorem takeBoundary (n : Ix) (hp : P p) : P (takeBoundary n p) := by
  have h1 := h.endJob n p trivial hp
  have key (q : Part) (hq : P q) (instant : Int) (par : Option Parity) :
      P (Machine.recordBoundary n instant par (Machine.schedule n instant
        (Machine.placePackets n (Machine.laneBoundary n instant par q).2 (Machine.laneBoundary n instant par q).1))) :=
    h.recordBoundary n _ _ (h.schedule n _ (h.placePackets n _ _ trivial (laneBoundary_carried n _ _)
      (h.laneBoundary n _ _ hq)))
  unfold Machine.takeBoundary
  dsimp only
  split
  · exact key _ (h.changeStandard n _ h1) _ _
  · exact key _ h1 _ _

/-! ### The timed events -/

theorem takeJobEnd (n : Ix) (hp : P p) : P (takeJobEnd n p) := by
  unfold Machine.takeJobEnd
  split
  · exact h.out n _ _ ⟨rfl, rfl, rfl, rfl, rfl, rfl⟩ (h.endJob n p trivial hp)
  · exact hp

theorem takeInitEnd (hp : P p) : P (takeInitEnd p) := by
  unfold Machine.takeInitEnd
  split
  · exact h.initEnd _ _ hp
  · exact hp

theorem takeTimeout (n : Ix) (hp : P p) : P (takeTimeout n p) := by
  unfold Machine.takeTimeout
  split
  · next hk => exact h.bumpLane trivial _ (h.endStart n _ p trivial hk hp)
  · exact hp

end Keeps
end Operations
end Sys2Proof.Machine.Keeping
end

section
/-! SUPPORT. A law under a whole step: `TakeLaw A L I P` says that the law `L` holds between events where `I` survives inside
one, and `P l k` while a command that arrived on link l is being taken with k places of OUTl in hand (R170). `A` names the
codes of the commands that may be taken. -/

namespace Sys2Proof.Machine.Keeping

open Frames

/-- The lane's own record at an accepted START, before capture and the input are looked at (R126 steps 1 to 3). -/
def startOpen (n : Ix) (p : Part) : Part :=
  modLane n (fun l => { l with
    acquireAt := some (p.timebase + l.profile.acquireTimeout * Config.tenthSecond)
    jobNumber := 0, holdCount := 0, state := .acquiring }) p

/-- The lane holds the commit record of an accepted COMMIT (R161). -/
def commitHeld (n : Ix) (c : CommitRec) (p : Part) : Part := modLane n (fun l => { l with commit := some c }) p

/-- The begin and the end of a take: the block leaves its queue, its places are reserved, the replies posted (R169, R170). -/
structure ReplyCommands (I : Part → Prop) (P : Ix → Nat → Part → Prop) : Prop where
  opened : ∀ code l p, need code ≤ room p l → I p → P l (need code) (openTake code l p)
  reply : ∀ l k r p, P l (k + 1) p → P l k (postReply l r p)
  unreserve : ∀ l k p, P l (k + 1) p → P l k (unreserve l p)
  mgmtCtr : ∀ l k f p, P l k p → P l k (bumpMgmt f p)

/-- What commands change in a lane, each with what its tests know. -/
structure LaneCommands (A : Nat → Prop) (P : Ix → Nat → Part → Prop) : Prop where
  profile : ∀ l k n v p, A 8 → (p.lanes.get n).state = .stopped → P l k p → P l k (modLane n (storeProfile v) p)
  start : ∀ l n op p, A 9 → op.op = .start → op.origin = l → p.mgmt.laneOps.get n = none →
    (p.lanes.get n).state = .stopped → P l 1 p → P l 0 (startOpen n (fillRecord (.lane n) op p))
  resumed : ∀ l k n p, A 11 → (p.lanes.get n).state = .faulted → p.fault.deviceFatal = false → P l k p →
    P l k (modLane n (fun r => { r with state := .stopped }) p)
  shadow : ∀ l k n t first rows p, A 14 → (p.lanes.get n).commit = none → P l k p →
    P l k (modLane n (fun r => { r with tables := loadShadow t first rows r.tables }) p)
  commitWaits : ∀ l n op c p, A 15 → op.op = .commit → op.origin = l → p.mgmt.laneOps.get n = none →
    checkTables c (p.lanes.get n).tables = none → runsJobs (p.lanes.get n).state = true → P l 1 p →
    P l 0 (commitHeld n c (fillRecord (.lane n) op p))
  commitNow : ∀ l n op c p, A 15 → op.op = .commit → op.origin = l → p.mgmt.laneOps.get n = none →
    checkTables c (p.lanes.get n).tables = none → runsJobs (p.lanes.get n).state = false → P l 1 p →
    P l 0 (commitSwap n (commitHeld n c (fillRecord (.lane n) op p)))
  route : ∀ l k n t p, A 18 → t.entries.length ≤ 32 → P l k p → P l k (modLane n (fun r => { r with route := t }) p)
  halted : ∀ l k n p, A 20 → laneOpKind p n = some .start → (p.lanes.get n).job.inFlight = false →
    (p.lanes.get n).carry = [] → P l k p → P l k (haltStart n (leaveRunning n .stopped p))

/-- What commands change in an output. -/
structure OutCommands (A : Nat → Prop) (P : Ix → Nat → Part → Prop) : Prop where
  setOutput : ∀ l k n sel off pol p, A 16 → (p.outs.get n).relockPending = false → P l k p →
    P l k (modOut n (storeOutput sel off pol) p)
  relockNow : ∀ l n op p, A 17 → op.op = .relock → op.origin = l → (p.outs.get n).relockPending = false → P l 1 p →
    P l 0 (endOutOp n .complete (fillRecord (.output n) op p))
  relockWaits : ∀ l n op p, A 17 → op.op = .relock → op.origin = l → (p.outs.get n).relockPending = false → P l 1 p →
    P l 0 (modOut n (fun o => { o with relockPending := true }) (fillRecord (.output n) op p))

/-- What commands change in the fault unit. -/
structure FaultCommands (A : Nat → Prop) (P : Ix → Nat → Part → Prop) : Prop where
  logRead : ∀ l k log p, A 21 → P l k p → P l k (modLog log markRead p)
  logClear : ∀ l k log r p, A 22 → getLog log p = some r → r.read = true → P l k p → P l k (modLog log (fun _ => none) p)
  ack : ∀ l k cs p, A 24 → P l k p → P l k (ackAll cs p)
  mask : ∀ l k v p, A 25 → P l k p → P l k (storeMask v p)

/-- What the commands change beyond the changes of `Keeps`. -/
structure CommandsKeep (A : Nat → Prop) (I : Part → Prop) (P : Ix → Nat → Part → Prop) : Prop
    extends ReplyCommands I P, LaneCommands A P, OutCommands A P, FaultCommands A P where
  storeCtr : ∀ l k c p, P l k p → P l k (modStore (fun st => { st with ctr := c }) p)
  deviceReset : ∀ l k p, A 4 → P l k p → I (deviceReset p)
  settings : ∀ l k n v p, A 5 → P l k p → P l k (modLink n (fun r => { r with settings := v }) p)
  mute : ∀ l k b p, A 12 ∨ A 13 → P l k p → P l k { p with mute := b }

/-- A law of the device under a take. -/
structure TakeLaw (A : Nat → Prop) (L I : Part → Prop) (P : Ix → Nat → Part → Prop) : Prop extends CommandsKeep A I P where
  keeps : ∀ l k, Keeps (fun _ => True) (P l k)
  inEvent : ∀ p, L p → I p
  taking : ∀ l p, I p ↔ P l 0 p
  upset : ∀ u p, I p → I (applyUpset u p)
  advance : ∀ t p, I p → I (advance t p)
  settle : ∀ p, I p → L (settle p)

/-- A law of the device under a whole step: under every take, and under the arrival of a command block (R168). -/
structure Law (A : Nat → Prop) (L I : Part → Prop) (P : Ix → Nat → Part → Prop) : Prop extends TakeLaw A L I P where
  arrive : ∀ n ws p, I p → I (arrive n ws p)

section Frames
variable (n : Ix) (p : Part)

theorem abandoned_state (l : Lane) : (abandoned l).state = l.state := by unfold abandoned; split <;> rfl

theorem haltStart_lanes : (haltStart n p).lanes =
    if laneOpKind p n = some .start then p.lanes.modify n (fun l => { l with acquireAt := none }) else p.lanes := by
  unfold haltStart; split <;> simp

theorem haltStart_lane {β : Type} (g : Lane → β) (h : ∀ l a, g { l with acquireAt := a } = g l) (m : Ix) :
    g ((haltStart n p).lanes.get m) = g (p.lanes.get m) := by
  rw [haltStart_lanes]
  split
  · rw [Four.get_modify]; split <;> simp [h]
  · rfl

@[simp] theorem haltStart_lane_frame (m : Ix) :
    ((haltStart n p).lanes.get m).state = (p.lanes.get m).state
      ∧ ((haltStart n p).lanes.get m).job = (p.lanes.get m).job
      ∧ ((haltStart n p).lanes.get m).carry = (p.lanes.get m).carry
      ∧ ((haltStart n p).lanes.get m).commit = (p.lanes.get m).commit
      ∧ ((haltStart n p).lanes.get m).tables = (p.lanes.get m).tables
      ∧ ((haltStart n p).lanes.get m).profile = (p.lanes.get m).profile :=
  ⟨haltStart_lane n p (fun l => l.state) (fun _ _ => rfl) m, haltStart_lane n p (fun l => l.job) (fun _ _ => rfl) m,
   haltStart_lane n p (fun l => l.carry) (fun _ _ => rfl) m, haltStart_lane n p (fun l => l.commit) (fun _ _ => rfl) m,
   haltStart_lane n p (fun l => l.tables) (fun _ _ => rfl) m, haltStart_lane n p (fun l => l.profile) (fun _ _ => rfl) m⟩

theorem haltStart_done : laneOpKind (haltStart n p) n ≠ some .start := by
  unfold haltStart
  split
  · simp [laneOpKind]
  · assumption

@[simp] theorem commitSwap_commit : ((commitSwap n p).lanes.get n).commit = none := by
  unfold commitSwap
  split
  · simp
  · assumption

theorem commitSwap_lane {β : Type} (g : Lane → β) (h : ∀ l t c j, g { l with tables := t, commit := c, job := j } = g l)
    (m : Ix) : g ((commitSwap n p).lanes.get m) = g (p.lanes.get m) := by
  unfold commitSwap
  split
  · simp only [endLaneOp_frame, modLane_lanes, Four.get_modify]
    split <;> simp [h]
  · rfl

theorem keepRows_inFlight (l : Lane) : (keepRows l).inFlight = l.job.inFlight := by
  unfold keepRows; split <;> rfl

@[simp] theorem commitSwap_lane_frame (m : Ix) :
    ((commitSwap n p).lanes.get m).state = (p.lanes.get m).state
      ∧ ((commitSwap n p).lanes.get m).carry = (p.lanes.get m).carry
      ∧ ((commitSwap n p).lanes.get m).profile = (p.lanes.get m).profile :=
  ⟨commitSwap_lane n p (fun l => l.state) (fun _ _ _ _ => rfl) m,
   commitSwap_lane n p (fun l => l.carry) (fun _ _ _ _ => rfl) m,
   commitSwap_lane n p (fun l => l.profile) (fun _ _ _ _ => rfl) m⟩

@[simp] theorem commitSwap_inFlight (m : Ix) :
    ((commitSwap n p).lanes.get m).job.inFlight = (p.lanes.get m).job.inFlight := by
  unfold commitSwap
  split
  · simp only [endLaneOp_frame, modLane_lanes, Four.get_modify]
    split <;> simp [keepRows_inFlight]
  · rfl

variable {n p} in
theorem laneOpKind_of_commitSwap {k : PendingKind} (e : laneOpKind (commitSwap n p) n = some k) :
    laneOpKind p n = some k := by
  unfold commitSwap at e
  split at e
  · simp [laneOpKind] at e
  · exact e

end Frames

section HaltKeeps
variable {P : Part → Prop} {p : Part} (h : Keeps (fun _ => True) P)
include h

theorem Keeps.haltStart (n : Ix) (hp : P p) : P (haltStart n p) := by
  unfold Machine.haltStart
  split
  · next hk => exact h.endStart n .halted p trivial hk hp
  · exact hp

end HaltKeeps

/-- The code of a number in the table (Table 52). -/
theorem code_of_number {code : Byte} {k : Nat} (hk : code.toNat = k) : code = BitVec.ofNat 8 k := by
  apply BitVec.eq_of_toNat_eq
  have := code.isLt
  simp only [BitVec.toNat_ofNat]
  omega

theorem takeOf_unknown {code : Byte} (hc : ¬ (1 ≤ code.toNat ∧ code.toNat ≤ 25)) (cmd : Command) :
    takeOf code cmd = takeBadCode code cmd := by
  obtain h0 | ⟨j, hj⟩ : code.toNat = 0 ∨ ∃ j, code.toNat = j + 26 := by
    by_cases h0 : code.toNat = 0
    · exact .inl h0
    · exact .inr ⟨code.toNat - 26, by omega⟩
  · simp only [takeOf, h0]
  · simp only [takeOf, hj]

theorem need_unknown {code : Byte} (hc : ¬ (1 ≤ code.toNat ∧ code.toNat ≤ 25)) : need code = 1 := by
  have h9 : code ≠ 9 := by rintro rfl; exact hc (by decide)
  have h15 : code ≠ 15 := by rintro rfl; exact hc (by decide)
  have h17 : code ≠ 17 := by rintro rfl; exact hc (by decide)
  exact if_neg (by rintro (e | e | e) <;> contradiction)

section FreeRules
variable {cmd : Command} {p : Part} {Q : Part → Prop}

/-- A rule that tests target and payload first and leaves what it accepts under the law. -/
theorem deviceEmpty_kept {v : Verdict} {q : Part} {ws : List Byte}
    (hr : deviceEmpty cmd v = .ok (q, ws)) (hv : v = .ok (q, ws) → Q q) : Q q := by
  unfold deviceEmpty at hr
  split_ifs at hr
  · cases hr
  · cases hr
  · exact hv hr

theorem ruleQueryStatus_kept {q : Part} {ws : List Byte} {restart : Bool} (hr : ruleQueryStatus restart cmd p = .ok (q, ws)) (hp : Q p) : Q q := by
  unfold ruleQueryStatus at hr
  split at hr
  · cases hr
  · split_ifs at hr <;> cases hr
    exact hp

/-- A routing table that is stored has no more than 32 entries (R142). -/
theorem parseEntries_length : ∀ (ws : List Byte) (es : List RouteEntry),
    parseEntries ws = some es → ws.length = 4 * es.length
  | [], es, he => by cases he; rfl
  | kind :: subkind :: m :: a :: rest, es, he => by
    unfold parseEntries at he
    split at he
    · next es' _ hes' =>
      have ih := parseEntries_length rest es' hes'
      split_ifs at he <;> cases he <;> simp only [List.length_cons] <;> omega
    · cases he
  | [_], _, he => by cases he
  | [_, _], _, he => by cases he
  | [_, _, _], _, he => by cases he

theorem parseRoute_length {ws : List Byte} {t : RouteTable} (ht : parseRoute ws = .ok t) : t.entries.length ≤ 32 := by
  unfold parseRoute at ht
  split at ht
  · split_ifs at ht with h1 h2
    · cases ht
    · cases ht
    · split at ht <;> cases ht
      next hes =>
      have := parseEntries_length _ _ hes
      simp only [ne_eq, not_not] at h1
      simp only
      omega
  · cases ht

end FreeRules

section Takes
variable {A : Nat → Prop} {L I : Part → Prop} {P : Ix → Nat → Part → Prop} {p : Part} {cmd : Command}

variable (h : TakeLaw A L I P)
include h

namespace TakeLaw

theorem event_keeps : Keeps (fun _ => True) I := by
  have e : I = P 0 0 := funext (fun p => propext (h.taking 0 p))
  rw [e]; exact h.keeps 0 0

theorem begin_kept (t : Nat) (us : List Upset) (hp : I p) : I (begin t us p) :=
  h.advance _ _ (forAll_kept h.upset us hp)

/-- The take of an immediate command: its rule keeps the law with one place in hand. -/
theorem immediate {code : Byte} (hneed : need code = 1) (hopen : P cmd.link (need code) (openTake code cmd.link p))
    {rule : Part → Verdict} (hr : ∀ q q' ws, P cmd.link 1 q → rule q = .ok (q', ws) → P cmd.link 1 q') :
    I (takeImmediate code cmd rule p) := by
  have h1 := hopen
  rw [hneed] at h1
  rw [h.taking cmd.link]
  unfold takeImmediate answerNow
  split
  · next q ws hq => exact h.mgmtCtr _ _ _ _ (h.reply _ _ _ _ (hr _ _ _ h1 hq))
  · exact h.mgmtCtr _ _ _ _ (h.reply _ _ _ _ h1)

/-- The take of a time-taking command: refused, it gives both places back; accepted, one is left with the operation. -/
theorem timed {code : Byte} {kind : PendingKind} (hneed : need code = 2)
    (hopen : P cmd.link (need code) (openTake code cmd.link p))
    {test : Part → Except Denied OpTarget} {start : OpTarget → Part → Part}
    (hs : ∀ q q' t op, test q = .ok t → q' = postReply cmd.link (acceptedReply cmd code p.mgmt.restart) q →
      op.op = kind → op.origin = cmd.link → P cmd.link 1 q' → P cmd.link 0 (start t (fillRecord t op q'))) :
    I (takeTimed code kind cmd test start p) := by
  have h1 := hopen
  rw [hneed] at h1
  rw [h.taking cmd.link]
  unfold takeTimed answerTimed
  split
  · next t ht => exact h.mgmtCtr _ _ _ _ (hs _ _ t _ ht rfl rfl rfl (h.reply _ _ _ _ h1))
  · exact h.mgmtCtr _ _ _ _ (h.unreserve _ _ _ (h.reply _ _ _ _ h1))

theorem clearCounters {l : Ix} {k : Nat} (t : Target) (hp : P l k p) : P l k (clearCounters t p) := by
  have hk := h.keeps l k
  unfold Machine.clearCounters
  split
  · exact h.mgmtCtr l k (fun _ => ⟨0, 0, 0, 0, 0⟩) _ (h.storeCtr _ _ _ _ hp)
  · exact hk.feed _ _ _ trivial ⟨rfl, rfl, rfl⟩ (hk.link _ _ _ trivial ⟨rfl, id⟩ hp)
  · exact hk.lane _ _ _ trivial ⟨rfl, rfl, rfl, rfl, rfl, rfl, rfl, rfl, rfl, rfl, rfl⟩ hp
  · exact hk.out _ _ _ ⟨rfl, rfl, rfl, rfl, rfl, rfl⟩ hp
  · exact hp
  · exact hp

/-- A STOP leaves no START pending, and no COMMIT with its record, before the lane leaves the running states (R132). -/
theorem stopLane {l : Ix} {k : Nat} {n : Ix} (hs : isRunning (p.lanes.get n).state = true)
    (hp : P l k p) : P l k (stopLane n p) := by
  have hk := h.keeps l k
  have h1 := hk.resetTimecode n (hk.clearLane n hp)
  have h2 := hk.haltStart n h1
  have h3 := hk.clearHold n (hk.commitSwap n _ trivial h2)
  refine hk.bumpLane trivial _ (hk.leaveRunning n .stopped (.inr ⟨rfl, ?_⟩) ?_ ?_ ?_ h3)
  · simpa [Machine.clearHold, Machine.resetTimecode, carryFlushed, abandoned_state] using hs
  · simp [Machine.clearHold, Machine.resetTimecode, carryFlushed, abandoned_inFlight]
  · simp [Machine.clearHold, Machine.resetTimecode, carryFlushed]
  · exact ⟨fun e => haltStart_done n _ (laneOpKind_of_commitSwap e), fun _ => by simp [Machine.clearHold]⟩

theorem ruleStop {l : Ix} {k : Nat} {q : Part} {ws : List Byte} (hr : ruleStop cmd p = .ok (q, ws)) (hp : P l k p) :
    P l k q := by
  unfold Machine.ruleStop at hr
  split at hr
  · cases hr
  next n _ =>
  split_ifs at hr with h1 h2 h3
  · cases hr
  · cases hr
  · cases hr; exact hp
  · cases hr
    exact h.stopLane (by cases hs : (p.lanes.get n).state <;> simp_all [isRunning]) hp

theorem resumeLane {l : Ix} {k : Nat} {n : Ix} (hA : A 11) (hs : (p.lanes.get n).state = .faulted)
    (hf : p.fault.deviceFatal = false) (hp : P l k p) : P l k (resumeLane n p) := by
  have hk := h.keeps l k
  exact h.resumed _ _ _ _ hA (by simpa [Machine.clearHold, Machine.resetTimecode] using hs) hf
    (hk.clearHold n (hk.resetTimecode n hp))

theorem haltLane {l : Ix} {k : Nat} {n : Ix} {q : Part} {ws : List Byte} (hA : A 20)
    (hr : haltLane n p = .ok (q, ws)) (hp : P l k p) : P l k q := by
  have hk := h.keeps l k
  unfold Machine.haltLane at hr
  split at hr <;> rename_i ho <;> cases hr
  · refine h.halted _ _ _ _ hA ?_ ?_ ?_ (hk.clearHold n (hk.resetTimecode n (hk.clearLane n hp)))
    · simpa [laneOpKind, Machine.clearHold, Machine.resetTimecode] using ho
    · simp [Machine.clearHold, Machine.resetTimecode, carryFlushed, abandoned_inFlight]
    · simp [Machine.clearHold, Machine.resetTimecode, carryFlushed]
  · exact hk.endCommit n .halted p trivial ho hp
  · exact hk.endOther n .halted p trivial ho hp

theorem ruleHalt {l : Ix} {k : Nat} {q : Part} {ws : List Byte} (hA : A 20) (hr : ruleHalt cmd p = .ok (q, ws))
    (hp : P l k p) : P l k q := by
  unfold Machine.ruleHalt at hr
  split at hr
  · split_ifs at hr
    · cases hr
    · exact h.haltLane hA hr hp
  · split_ifs at hr
    · cases hr
    · unfold haltOutput at hr
      split_ifs at hr <;> cases hr
      exact (h.keeps l k).endRelock _ _ _ hp
  · cases hr

theorem startLane {n : Ix} {op : PendingOp} (hA : A 9) (ho : op.op = .start) (hl : op.origin = cmd.link)
    (he : p.mgmt.laneOps.get n = none) (hs : (p.lanes.get n).state = .stopped) (hp : P cmd.link 1 p) :
    P cmd.link 0 (startLane n (fillRecord (.lane n) op p)) := by
  have hk := h.keeps cmd.link 0
  have h1 := h.start _ n op p hA ho hl he hs hp
  have h2 := hk.bumpLane (n := n) trivial (fun c => { c with startsAccepted := bump c.startsAccepted })
    (hk.recapture (n := (p.lanes.get n).profile.source) trivial h1)
  have h3 := hk.checkMismatch n (hk.setUsable (n := n) trivial (inputUsable (Machine.bumpLane n
    (fun c => { c with startsAccepted := bump c.startsAccepted }) (Machine.recapture (p.lanes.get n).profile.source
      (startOpen n (fillRecord (.lane n) op p)))) n) h2)
  unfold Machine.startLane
  dsimp only
  split
  · exact h3
  · exact hk.inputLoss (n := n) trivial h3

theorem takeStart (hA : A 9) (hopen : P cmd.link (need 9) (openTake 9 cmd.link p)) : I (takeStart cmd p) := by
  refine h.timed rfl hopen (fun q q' t op ht hq ho hl hq' => ?_)
  subst hq
  unfold testStart at ht
  split at ht
  · cases ht
  · split_ifs at ht with h1 h2 h3 <;> cases ht
    exact h.startLane hA ho hl (by simpa [postReply] using h2) (by simpa [postReply] using h3) hq'

theorem takeCommit (hA : A 15) (hopen : P cmd.link (need 15) (openTake 15 cmd.link p)) : I (takeCommit cmd p) := by
  refine h.timed rfl hopen (fun q q' t op ht hq ho hl hq' => ?_)
  subst hq
  unfold testCommit at ht
  split at ht
  · cases ht
  · split at ht
    · cases ht
    · next c hc =>
      split_ifs at ht with h1
      · cases ht
      · split at ht <;> cases ht
        rename_i n _ _ _ hcheck
        have key : ∀ q', beginCommit cmd (.lane n) q' = acceptCommit n c q' := fun q' => by simp [beginCommit, hc]
        rw [key]
        unfold acceptCommit
        dsimp only
        split
        · next hr =>
          exact h.commitWaits _ n op c _ hA ho hl (by simpa [postReply] using h1) hcheck hr hq'
        · next hr =>
          exact h.commitNow _ n op c _ hA ho hl (by simpa [postReply] using h1) hcheck (Bool.eq_false_iff.2 hr) hq'

theorem takeRelock (hA : A 17) (hopen : P cmd.link (need 17) (openTake 17 cmd.link p)) : I (takeRelock cmd p) := by
  refine h.timed rfl hopen (fun q q' t op ht hq ho hl hq' => ?_)
  subst hq
  unfold testRelock at ht
  split at ht
  · cases ht
  · split_ifs at ht with h1 h2 <;> cases ht
    next n _ =>
    have h3 : ((postReply cmd.link (acceptedReply cmd 17 p.mgmt.restart) q).outs.get n).relockPending = false := by
      simp only [postReply, modOut_outs, Four.get_modify]
      split <;> simpa using h2
    unfold beginRelock relockOutput
    dsimp only
    split
    · exact h.relockNow _ n op _ hA ho hl h3 hq'
    · exact h.relockNow _ n op _ hA ho hl h3 hq'
    · exact h.relockWaits _ n op _ hA ho hl h3 hq'

theorem takeDeviceReset (hA : A 4) (hopen : P cmd.link (need 4) (openTake 4 cmd.link p)) : I (takeDeviceReset cmd p) := by
  unfold Machine.takeDeviceReset
  split_ifs
  · exact h.immediate rfl hopen (fun _ _ _ _ hr => by cases hr)
  · exact h.immediate rfl hopen (fun _ _ _ _ hr => by cases hr)
  · have h1 := h.deviceReset _ _ _ hA hopen
    rw [h.taking cmd.link] at h1 ⊢
    exact h.mgmtCtr _ _ _ _ h1

theorem takeBadCode {code : Byte} (hneed : need code = 1) (hopen : P cmd.link (need code) (openTake code cmd.link p)) :
    I (takeBadCode code cmd p) := by
  have h1 := hopen
  rw [hneed] at h1
  rw [h.taking cmd.link]
  have h2 := h.mgmtCtr _ _ (fun c => { c with badCodes := bump c.badCodes }) _
    ((h.keeps cmd.link 1).report .dl .badCode .none _ h1)
  unfold Machine.takeBadCode countTake
  exact h.mgmtCtr _ _ _ _ (h.reply _ _ _ _ h2)

section Rules
variable {l : Ix} {k : Nat} {q : Part} {ws : List Byte}

theorem ruleQueryCounters (hr : ruleQueryCounters cmd p = .ok (q, ws)) (hp : P l k p) : P l k q := by
  unfold Machine.ruleQueryCounters at hr
  split at hr
  · cases hr
  · split at hr
    · split_ifs at hr <;> cases hr
      · exact hp
      · exact h.clearCounters _ hp
    · cases hr

theorem ruleSetFeed (hA : A 5) (hr : ruleSetFeed cmd p = .ok (q, ws)) (hp : P l k p) : P l k q := by
  unfold Machine.ruleSetFeed at hr
  split at hr
  · cases hr
  next n _ =>
  split at hr
  · split at hr <;> cases hr
    exact h.settings _ _ _ _ _ hA hp
  · cases hr

theorem ruleFeedReset (hr : ruleFeedReset cmd p = .ok (q, ws)) (hp : P l k p) : P l k q := by
  unfold Machine.ruleFeedReset at hr
  split at hr
  · cases hr
  next n _ =>
  split_ifs at hr <;> cases hr
  exact (h.keeps l k).flush _ _ trivial hp

theorem ruleReleaseQuarantine (hr : ruleReleaseQuarantine cmd p = .ok (q, ws)) (hp : P l k p) : P l k q := by
  refine deviceEmpty_kept hr (fun hv => ?_)
  split_ifs at hv
  · cases hv
  · cases hv
  simp only [Except.ok.injEq, Prod.mk.injEq] at hv
  obtain ⟨rfl, -⟩ := hv
  exact forAll_kept (fun s r hq => (h.keeps l k).releaseQuarantined s r hq) _ hp

theorem ruleSetLane (hA : A 8) (hr : ruleSetLane cmd p = .ok (q, ws)) (hp : P l k p) : P l k q := by
  unfold Machine.ruleSetLane at hr
  split at hr
  · cases hr
  next n _ =>
  split_ifs at hr with h1 h2
  · cases hr
  · cases hr
  · split at hr <;> cases hr
    exact h.profile _ _ _ _ _ hA (by simpa using h2) hp

theorem ruleResume (hA : A 11) (hr : ruleResume cmd p = .ok (q, ws)) (hp : P l k p) : P l k q := by
  unfold Machine.ruleResume at hr
  split at hr
  · cases hr
  next n _ =>
  split_ifs at hr with h1 h2 h3 h4 <;> cases hr
  exact h.resumeLane hA (by simpa using h2) (by simpa using h3) hp

theorem ruleLoadSegment (hA : A 14) (hr : ruleLoadSegment cmd p = .ok (q, ws)) (hp : P l k p) : P l k q := by
  unfold Machine.ruleLoadSegment at hr
  split at hr
  · cases hr
  next n _ =>
  split at hr
  · cases hr
  split at hr
  · cases hr
  split at hr <;> cases hr
  next h1 => exact h.shadow _ _ _ _ _ _ _ hA (by simpa using h1) hp

theorem ruleSetOutput (hA : A 16) (hr : ruleSetOutput cmd p = .ok (q, ws)) (hp : P l k p) : P l k q := by
  unfold Machine.ruleSetOutput at hr
  split at hr
  · cases hr
  next n _ =>
  split at hr
  · split at hr
    · dsimp only at hr
      split_ifs at hr with h1 h2 <;> cases hr
      exact h.setOutput _ _ _ _ _ _ _ hA (by simpa using h2) hp
    · cases hr
  · cases hr

theorem ruleSetRoute (hA : A 18) (hr : ruleSetRoute cmd p = .ok (q, ws)) (hp : P l k p) : P l k q := by
  unfold Machine.ruleSetRoute at hr
  split at hr
  · cases hr
  next n _ =>
  split at hr <;> cases hr
  next t ht => exact h.route _ _ _ _ _ hA (parseRoute_length ht) hp

theorem ruleSeedTimecode (hr : ruleSeedTimecode cmd p = .ok (q, ws)) (hp : P l k p) : P l k q := by
  unfold Machine.ruleSeedTimecode at hr
  split at hr
  · cases hr
  next n _ =>
  dsimp only at hr
  split_ifs at hr
  · cases hr
  · cases hr
  · split at hr <;> cases hr
    refine (h.keeps l k).lane _ _ p trivial ?_ hp
    exact ⟨rfl, rfl, rfl, rfl, rfl, rfl, rfl, rfl, rfl, rfl, rfl⟩

theorem ruleQueryLog (hA : A 21) (hr : ruleQueryLog cmd p = .ok (q, ws)) (hp : P l k p) : P l k q := by
  unfold Machine.ruleQueryLog at hr
  split at hr
  · cases hr
  next log _ =>
  split_ifs at hr <;> cases hr
  exact h.logRead _ _ _ _ hA hp

theorem ruleClearLog (hA : A 22) (hr : ruleClearLog cmd p = .ok (q, ws)) (hp : P l k p) : P l k q := by
  unfold Machine.ruleClearLog at hr
  split at hr
  · cases hr
  next log _ =>
  split_ifs at hr
  · cases hr
  · split at hr
    · cases hr; exact hp
    · next r hlog =>
      split_ifs at hr with hread <;> cases hr
      exact h.logClear _ _ _ r _ hA hlog hread hp

theorem ruleAckConditions (hA : A 24) (hr : ruleAckConditions cmd p = .ok (q, ws)) (hp : P l k p) : P l k q := by
  unfold Machine.ruleAckConditions at hr
  split_ifs at hr
  · cases hr
  · cases hr
  · split at hr <;> cases hr
    exact h.ack _ _ _ _ hA hp

theorem ruleSetAlarmMask (hA : A 25) (hr : ruleSetAlarmMask cmd p = .ok (q, ws)) (hp : P l k p) : P l k q := by
  unfold Machine.ruleSetAlarmMask at hr
  split_ifs at hr
  · cases hr
  · split at hr
    · dsimp only at hr
      split_ifs at hr <;> cases hr
      exact h.mask _ _ _ _ hA hp
    · cases hr

end Rules

/-! ### Every take -/

/-- The take of a command by its code keeps the law: one case for each row of Table 52. -/
theorem takeOf_opened {code : Byte} (hA : A code.toNat) (hopen : P cmd.link (need code) (openTake code cmd.link p)) :
    I (takeOf code cmd p) := by
  by_cases hc : 1 ≤ code.toNat ∧ code.toNat ≤ 25
  swap
  · rw [takeOf_unknown hc]
    exact h.takeBadCode (need_unknown hc) hopen
  obtain ⟨hlow, hhigh⟩ := hc
  generalize hk : code.toNat = k at hA hlow hhigh
  interval_cases k <;> obtain rfl := code_of_number hk
  · exact h.immediate rfl hopen (fun _ _ _ hq hr => deviceEmpty_kept hr (fun e => by cases e; exact hq))
  · exact h.immediate rfl hopen (fun _ _ _ hq hr => ruleQueryStatus_kept hr hq)
  · exact h.immediate rfl hopen (fun _ _ _ hq hr => h.ruleQueryCounters hr hq)
  · exact h.takeDeviceReset hA hopen
  · exact h.immediate rfl hopen (fun _ _ _ hq hr => h.ruleSetFeed hA hr hq)
  · exact h.immediate rfl hopen (fun _ _ _ hq hr => h.ruleFeedReset hr hq)
  · exact h.immediate rfl hopen (fun _ _ _ hq hr => h.ruleReleaseQuarantine hr hq)
  · exact h.immediate rfl hopen (fun _ _ _ hq hr => h.ruleSetLane hA hr hq)
  · exact h.takeStart hA hopen
  · exact h.immediate rfl hopen (fun _ _ _ hq hr => h.ruleStop hr hq)
  · exact h.immediate rfl hopen (fun _ _ _ hq hr => h.ruleResume hA hr hq)
  · exact h.immediate rfl hopen
      (fun _ _ _ hq hr => deviceEmpty_kept hr (fun e => by cases e; exact h.mute _ _ true _ (.inl hA) hq))
  · exact h.immediate rfl hopen
      (fun _ _ _ hq hr => deviceEmpty_kept hr (fun e => by cases e; exact h.mute _ _ false _ (.inr hA) hq))
  · exact h.immediate rfl hopen (fun _ _ _ hq hr => h.ruleLoadSegment hA hr hq)
  · exact h.takeCommit hA hopen
  · exact h.immediate rfl hopen (fun _ _ _ hq hr => h.ruleSetOutput hA hr hq)
  · exact h.takeRelock hA hopen
  · exact h.immediate rfl hopen (fun _ _ _ hq hr => h.ruleSetRoute hA hr hq)
  · exact h.immediate rfl hopen (fun _ _ _ hq hr => h.ruleSeedTimecode hr hq)
  · exact h.immediate rfl hopen (fun _ _ _ hq hr => h.ruleHalt hA hr hq)
  · exact h.immediate rfl hopen (fun _ _ _ hq hr => h.ruleQueryLog hA hr hq)
  · exact h.immediate rfl hopen (fun _ _ _ hq hr => h.ruleClearLog hA hr hq)
  · exact h.immediate rfl hopen (fun _ _ _ hq hr => deviceEmpty_kept hr (fun e => by cases e; exact hq))
  · exact h.immediate rfl hopen (fun _ _ _ hq hr => h.ruleAckConditions hA hr hq)
  · exact h.immediate rfl hopen (fun _ _ _ hq hr => h.ruleSetAlarmMask hA hr hq)

/-- A take keeps the law where the reply queue has room for its replies (R169). -/
theorem takeOf {code : Byte} (hA : A code.toNat) (hroom : need code ≤ room p cmd.link) (hp : I p) :
    I (takeOf code cmd p) := h.takeOf_opened hA (h.opened code cmd.link p hroom hp)

end TakeLaw
end Takes
end Sys2Proof.Machine.Keeping
end

section
/-! SUPPORT. A law under the takes that are due, under every row of the table, and so under every step. -/

namespace Sys2Proof.Machine.Keeping

open Frames

/-! ### The arbiter serves a queue whose reply queue has room -/

theorem arbiter_eligible {p : Part} {n : Ix} (h : arbiter p = some n) : eligible p n = true :=
  List.find?_some (p := eligible p) h

theorem room_of_eligible {p : Part} {n : Ix} {b : Block} (h : eligible p n = true) (hb : headBlock p n = some b) :
    need b.code ≤ room p n := by simpa [eligible, hb] using h

/-- The code of a management row; a row of another kind has none. -/
def codeOf (i : Instr) : Option Nat :=
  match i with
  | .identify _ _ => some 1
  | .queryStatus _ _ => some 2
  | .queryCounters _ _ => some 3
  | .deviceReset _ _ => some 4
  | .setFeed _ _ => some 5
  | .feedReset _ _ => some 6
  | .releaseQuarantine _ _ => some 7
  | .setLane _ _ => some 8
  | .start _ _ => some 9
  | .stop _ _ => some 10
  | .resume _ _ => some 11
  | .mute _ _ => some 12
  | .unmute _ _ => some 13
  | .loadSegment _ _ => some 14
  | .commit _ _ => some 15
  | .setOutput _ _ => some 16
  | .relock _ _ => some 17
  | .setRoute _ _ => some 18
  | .seedTimecode _ _ => some 19
  | .halt _ _ => some 20
  | .queryLog _ _ => some 21
  | .clearLog _ _ => some 22
  | .queryConditions _ _ => some 23
  | .ackConditions _ _ => some 24
  | .setAlarmMask _ _ => some 25
  | .badCode _ _ code => if isTableCode code then none else some code.toNat
  | _ => none

/-- A row that is an event of its own on what the takes that are due leave: its instant, its failures, its effect. -/
structure IsEvent (i : Instr) (s : State) (K : (Part → Part) → Prop) : Prop where
  intro ::
  event : ∃ t us f, K f ∧
    exec i s = .next { afterTakes s with part := settle (f (begin t us (afterTakes s).part)) }

section Steps
variable {A : Nat → Prop} {L I : Part → Prop} {P : Ix → Nat → Part → Prop} (h : Law A L I P)
include h

namespace Law

/-! ### The takes that are due -/

theorem takeHead {p : Part} (hA : ∀ c, A c) {n : Ix} {b : Block} (hroom : need b.code ≤ room p n) (hp : L p) :
    L (takeHead n b p) := h.settle _ (h.takeOf (hA _) hroom (h.inEvent _ hp))

theorem takesDue {p : Part} (hA : ∀ c, A c) (fuel : Nat) (hp : L p) : L (takesDue fuel p) := by
  induction fuel generalizing p with
  | zero => exact hp
  | succ fuel ih =>
    unfold Machine.takesDue
    split
    · next n b hd =>
      simp only [dueTake, Option.bind_eq_some_iff, Option.map_eq_some_iff] at hd
      obtain ⟨m, hm, b', hb, e⟩ := hd
      cases e
      exact ih (h.takeHead hA (room_of_eligible (arbiter_eligible hm) hb) hp)
    · exact hp

theorem afterTakes {s : State} (hA : ∀ c, A c) (hp : L s.part) : L (afterTakes s).part := h.takesDue hA _ hp

/-! ### Every row of the table -/

/-- An effect that keeps the law inside an event. -/
abbrev Kept (_ : Law A L I P) (f : Part → Part) : Prop := ∀ p, I p → I (f p)

theorem command_effect {code : Byte} (cmd : Command) (hA : A code.toNat) :
    h.Kept (fun p => if isTaken code cmd (present code cmd p) then Machine.takeOf code cmd (present code cmd p)
      else present code cmd p) := by
  intro p hp
  have hq := h.event_keeps.present (cmd := cmd) trivial (fun ws q => h.arrive _ ws q) code hp
  dsimp only
  split
  · next ht =>
    simp only [isTaken, Bool.and_eq_true, decide_eq_true_eq] at ht
    exact h.takeOf hA (room_of_eligible (arbiter_eligible ht.1) ht.2) hq
  · exact hq

theorem command_event {i : Instr} {code : Byte} {env : Env} {cmd : Command} {s : State} (hA : A code.toNat)
    (hi : exec i s = command code env cmd (Machine.takeOf code cmd) s) : IsEvent i s h.Kept :=
  ⟨_, _, _, h.command_effect cmd hA, hi⟩

theorem happens_event {i : Instr} {env : Env} {f : Part → Part} {s : State} (hf : h.Kept f)
    (hi : exec i s = happens env f s) : IsEvent i s h.Kept := ⟨_, _, f, hf, hi⟩

theorem fallsDue_event {i : Instr} {due : Part → Option Nat} {us : List Upset} {f : Part → Part} {s : State}
    (hf : h.Kept f) (hi : exec i s = fallsDue due us f s) : IsEvent i s h.Kept := by
  unfold fallsDue at hi
  split at hi
  · exact ⟨_, _, f, hf, hi⟩
  · exact ⟨_, _, id, fun _ hp => hp, hi⟩

/-- Every row but PIN_RESET is an event that keeps the law, where its command may be taken. -/
theorem exec_event (i : Instr) (s : State) (hpin : ∀ a b, i ≠ .pinReset a b) (hA : ∀ c, codeOf i = some c → A c) :
    IsEvent i s h.Kept := by
  have hk := h.event_keeps
  cases i with
  | pinReset a b => exact absurd rfl (hpin a b)
  | activityGained env n => exact h.happens_event (fun _ hp => hk.gainActivity (n := n) trivial hp) rfl
  | activityLost env n cut => exact h.happens_event (fun _ hp => hk.loseActivity (n := n) trivial cut hp) rfl
  | pictureMarker env n number par blank cut =>
    exact h.happens_event (fun _ hp => hk.takeMarker (n := n) trivial number par blank cut hp) rfl
  | lineStart env n number par blank cut =>
    exact h.happens_event (fun _ hp => hk.takeLine (n := n) trivial number blank cut hp) rfl
  | lineEnd env n ss check => exact h.happens_event (fun _ hp => hk.takeLineEnd (n := n) trivial ss check hp) rfl
  | ancillaryPacket env n words => exact h.happens_event (fun _ hp => hk.takePacket (n := n) trivial (fun ws q => h.arrive _ ws q) words hp) rfl
  | refMarker env r => exact h.happens_event (fun _ hp => hk.takeRefMarker r hp) rfl
  | refExpiry us r => exact h.fallsDue_event (due := fun p => expiryOf (getRef p r)) (fun _ hp => hk.refAbsent r hp) rfl
  | outputBoundary us n =>
    exact h.fallsDue_event (due := fun p => some (p.outs.get n).next.toNat) (fun _ hp => hk.takeBoundary n hp) rfl
  | outputLine env n => exact h.happens_event (fun _ hp => hk.emitLine n hp) rfl
  | jobEnd env n => exact h.happens_event (fun _ hp => hk.takeJobEnd n hp) rfl
  | slotInitialisationEnd us =>
    exact h.fallsDue_event (due := fun p => (initSlot p).map (fun _ => p.store.initDue)) (fun _ hp => hk.takeInitEnd hp) rfl
  | acquireTimeout us n =>
    exact h.fallsDue_event (due := fun p => (p.lanes.get n).acquireAt) (fun _ hp => hk.takeTimeout n hp) rfl
  | badCode env cmd code =>
    by_cases hc : isTableCode code = true
    · exact h.happens_event (env := env) (f := id) (fun _ hp => hp) (by simp [exec, execBadCode, hc])
    · have hu : ¬ (1 ≤ code.toNat ∧ code.toNat ≤ 25) := by simpa [isTableCode] using hc
      exact h.command_event (code := code) (env := env) (cmd := cmd) (hA _ (by simp [codeOf, hc]))
        (by simp [exec, execBadCode, hc, takeOf_unknown hu])
  | identify env cmd => exact h.command_event (code := 1) (hA _ rfl) rfl
  | queryStatus env cmd => exact h.command_event (code := 2) (hA _ rfl) rfl
  | queryCounters env cmd => exact h.command_event (code := 3) (hA _ rfl) rfl
  | deviceReset env cmd => exact h.command_event (code := 4) (hA _ rfl) rfl
  | setFeed env cmd => exact h.command_event (code := 5) (hA _ rfl) rfl
  | feedReset env cmd => exact h.command_event (code := 6) (hA _ rfl) rfl
  | releaseQuarantine env cmd => exact h.command_event (code := 7) (hA _ rfl) rfl
  | setLane env cmd => exact h.command_event (code := 8) (hA _ rfl) rfl
  | start env cmd => exact h.command_event (code := 9) (hA _ rfl) rfl
  | stop env cmd => exact h.command_event (code := 10) (hA _ rfl) rfl
  | resume env cmd => exact h.command_event (code := 11) (hA _ rfl) rfl
  | mute env cmd => exact h.command_event (code := 12) (hA _ rfl) rfl
  | unmute env cmd => exact h.command_event (code := 13) (hA _ rfl) rfl
  | loadSegment env cmd => exact h.command_event (code := 14) (hA _ rfl) rfl
  | commit env cmd => exact h.command_event (code := 15) (hA _ rfl) rfl
  | setOutput env cmd => exact h.command_event (code := 16) (hA _ rfl) rfl
  | relock env cmd => exact h.command_event (code := 17) (hA _ rfl) rfl
  | setRoute env cmd => exact h.command_event (code := 18) (hA _ rfl) rfl
  | seedTimecode env cmd => exact h.command_event (code := 19) (hA _ rfl) rfl
  | halt env cmd => exact h.command_event (code := 20) (hA _ rfl) rfl
  | queryLog env cmd => exact h.command_event (code := 21) (hA _ rfl) rfl
  | clearLog env cmd => exact h.command_event (code := 22) (hA _ rfl) rfl
  | queryConditions env cmd => exact h.command_event (code := 23) (hA _ rfl) rfl
  | ackConditions env cmd => exact h.command_event (code := 24) (hA _ rfl) rfl
  | setAlarmMask env cmd => exact h.command_event (code := 25) (hA _ rfl) rfl

/-- In a quiet state a row whose command may be taken keeps the law. -/
theorem exec_quiet {i : Instr} {s t : State} (hpin : ∀ a b, i ≠ .pinReset a b) (hA : ∀ c, codeOf i = some c → A c)
    (hq : quiet s) (he : exec i s = .next t) (hp : L s.part) : L t.part := by
  obtain ⟨t', us, f, hf, hx⟩ := h.exec_event i s hpin hA
  rw [afterTakes_idle hq.2] at hx
  rw [hx] at he
  cases he
  exact h.settle _ (hf _ (h.begin_kept _ _ (h.inEvent _ hp)))

/-- A law that survives a PIN_RESET survives every step. -/
theorem kept (hA : ∀ c, A c)
    (hreset : ∀ p t, L p → L (resetPart t (activityOf p) (pinResetStore p.store.mem p.store.ecc))) : keptByStep L := by
  intro s t hp he
  unfold step at he
  split at he
  · cases he
    exact h.afterTakes hA hp
  · next c rest _ =>
    by_cases hpin : ∀ a b, c ≠ .pinReset a b
    · obtain ⟨t', us, f, hf, hx⟩ := h.exec_event c { s with pending := rest } hpin (fun c _ => hA c)
      rw [hx] at he
      cases he
      exact h.settle _ (hf _ (h.begin_kept _ _ (h.inEvent _ (h.afterTakes (s := { s with pending := rest }) hA hp))))
    · simp only [ne_eq, not_forall, not_not] at hpin
      obtain ⟨a, b, rfl⟩ := hpin
      cases he
      exact hreset _ _ hp

end Law
end Steps
end Sys2Proof.Machine.Keeping
end

section
/-! SUPPORT. Laws of one block: the commands that do not touch the block, and how such a law survives the end of a step. -/

namespace Sys2Proof.Machine.Keeping

open Frames

/-- Two predicates that the changes keep are kept together. -/
theorem Keeps.and {S : Ix → Prop} {P Q : Part → Prop} (hP : Keeps S P) (hQ : Keeps S Q) : Keeps S (fun p => P p ∧ Q p) where
  report l c d p hp := ⟨hP.report l c d p hp.1, hQ.report l c d p hp.2⟩
  due p hp := ⟨hP.due p hp.1, hQ.due p hp.2⟩
  latch c p hp := ⟨hP.latch c p hp.1, hQ.latch c p hp.2⟩
  returnSlot n k p hp := ⟨hP.returnSlot n k p hp.1, hQ.returnSlot n k p hp.2⟩
  grant n p hp := ⟨hP.grant n p hp.1, hQ.grant n p hp.2⟩
  pinSlot n k p hp := ⟨hP.pinSlot n k p hp.1, hQ.pinSlot n k p hp.2⟩
  completeSlot k p hp := ⟨hP.completeSlot k p hp.1, hQ.completeSlot k p hp.2⟩
  unpinSlot k p hp := ⟨hP.unpinSlot k p hp.1, hQ.unpinSlot k p hp.2⟩
  correctedRead k p hp := ⟨hP.correctedRead k p hp.1, hQ.correctedRead k p hp.2⟩
  uncorrectableRead k p hp := ⟨hP.uncorrectableRead k p hp.1, hQ.uncorrectableRead k p hp.2⟩
  initEnd k p hp := ⟨hP.initEnd k p hp.1, hQ.initEnd k p hp.2⟩
  releaseQuarantined k p hp := ⟨hP.releaseQuarantined k p hp.1, hQ.releaseQuarantined k p hp.2⟩
  captureLine n line ss p hp := ⟨hP.captureLine n line ss p hp.1, hQ.captureLine n line ss p hp.2⟩
  link n f p a0 a1 hp := ⟨hP.link n f p a0 a1 hp.1, hQ.link n f p a0 a1 hp.2⟩
  feed n f p a0 a1 hp := ⟨hP.feed n f p a0 a1 hp.1, hQ.feed n f p a0 a1 hp.2⟩
  newest n g p a0 a1 hp := ⟨hP.newest n g p a0 a1 hp.1, hQ.newest n g p a0 a1 hp.2⟩
  pictureStart n code a par p a0 hp := ⟨hP.pictureStart n code a par p a0 hp.1, hQ.pictureStart n code a par p a0 hp.2⟩
  flush n p a0 hp := ⟨hP.flush n p a0 hp.1, hQ.flush n p a0 hp.2⟩
  lane n f p a0 a1 hp := ⟨hP.lane n f p a0 a1 hp.1, hQ.lane n f p a0 a1 hp.2⟩
  laneRuns n f p a0 a1 hp := ⟨hP.laneRuns n f p a0 a1 hp.1, hQ.laneRuns n f p a0 a1 hp.2⟩
  laneStop n s p a0 a1 a2 a3 a4 hp := ⟨hP.laneStop n s p a0 a1 a2 a3 a4 hp.1, hQ.laneStop n s p a0 a1 a2 a3 a4 hp.2⟩
  faultStopped n p a0 a1 hp := ⟨hP.faultStopped n p a0 a1 hp.1, hQ.faultStopped n p a0 a1 hp.2⟩
  endJob n p a0 hp := ⟨hP.endJob n p a0 hp.1, hQ.endJob n p a0 hp.2⟩
  abandonJob n p a0 hp := ⟨hP.abandonJob n p a0 hp.1, hQ.abandonJob n p a0 hp.2⟩
  carryShrink n f p a0 a1 hp := ⟨hP.carryShrink n f p a0 a1 hp.1, hQ.carryShrink n f p a0 a1 hp.2⟩
  carryPacket n m k p a0 a1 hp := ⟨hP.carryPacket n m k p a0 a1 hp.1, hQ.carryPacket n m k p a0 a1 hp.2⟩
  commitSwap n p a0 hp := ⟨hP.commitSwap n p a0 hp.1, hQ.commitSwap n p a0 hp.2⟩
  endPending n s p a0 hp := ⟨hP.endPending n s p a0 hp.1, hQ.endPending n s p a0 hp.2⟩
  endStart n s p a0 a1 hp := ⟨hP.endStart n s p a0 a1 hp.1, hQ.endStart n s p a0 a1 hp.2⟩
  endCommit n s p a0 a1 hp := ⟨hP.endCommit n s p a0 a1 hp.1, hQ.endCommit n s p a0 a1 hp.2⟩
  endOther n s p a0 a1 hp := ⟨hP.endOther n s p a0 a1 hp.1, hQ.endOther n s p a0 a1 hp.2⟩
  jobSet n job p a0 a1 a2 a3 a4 hp := ⟨hP.jobSet n job p a0 a1 a2 a3 a4 hp.1, hQ.jobSet n job p a0 a1 a2 a3 a4 hp.2⟩
  pin n source k p a0 a1 hp := ⟨hP.pin n source k p a0 a1 hp.1, hQ.pin n source k p a0 a1 hp.2⟩
  out n f p a0 hp := ⟨hP.out n f p a0 hp.1, hQ.out n f p a0 hp.2⟩
  placePackets n h p a0 a1 hp := ⟨hP.placePackets n h p a0 a1 hp.1, hQ.placePackets n h p a0 a1 hp.2⟩
  endRelock n s p hp := ⟨hP.endRelock n s p hp.1, hQ.endRelock n s p hp.2⟩
  setRef r v p a0 hp := ⟨hP.setRef r v p a0 hp.1, hQ.setRef r v p a0 hp.2⟩

section Free
variable {A : Nat → Prop} {P : Part → Prop}

theorem reply_commands_free (h : OutFree P) : ReplyCommands P (fun _ _ => P) where
  opened _ _ _ _ hp := h.out _ _ _ (h.mgmt _ _ hp)
  reply _ _ _ _ hp := h.out _ _ _ hp
  unreserve _ _ _ hp := h.out _ _ _ hp
  mgmtCtr _ _ _ _ hp := h.mgmt _ _ hp

theorem fillRecord_kept (hm : ∀ f p, P p → P (modMgmt f p)) (t : OpTarget) (op : PendingOp) {p : Part} (hp : P p) :
    P (fillRecord t op p) := by
  unfold fillRecord
  split <;> exact hm _ _ hp

/-- A law that looks at no lane: what a command changes there is nothing to it. -/
theorem lane_commands_free (h : LaneFree P) (hf : FeedKeeps (fun _ => True) P)
    (hr : ∀ n op p, P p → P (fillRecord (.lane n) op p)) : LaneCommands A (fun _ _ => P) where
  profile _ _ _ _ _ _ _ hp := h.lane _ _ _ hp
  start _ _ _ _ _ _ _ _ _ hp := h.lane _ _ _ (hr _ _ _ hp)
  resumed _ _ _ _ _ _ _ hp := h.lane _ _ _ hp
  shadow _ _ _ _ _ _ _ _ _ hp := h.lane _ _ _ hp
  commitWaits _ _ _ _ _ _ _ _ _ _ _ hp := h.lane _ _ _ (hr _ _ _ hp)
  commitNow _ _ _ _ _ _ _ _ _ _ _ hp := h.commitSwap _ (h.lane _ _ _ (hr _ _ _ hp))
  route _ _ _ _ _ _ _ hp := h.lane _ _ _ hp
  halted _ _ n p _ _ _ _ hp := by
    have h1 := h.lane n (fun l => { l with state := .stopped }) p hp
    have h2 : P (leaveRunning n .stopped p) := by
      unfold leaveRunning
      dsimp only
      split
      · exact hf.feed _ _ _ trivial ⟨rfl, rfl, rfl⟩ (hf.flush _ _ trivial h1)
      · exact hf.feed _ _ _ trivial ⟨rfl, rfl, rfl⟩ h1
    unfold haltStart
    split
    · exact h.lane _ _ _ (h.endLaneOp _ _ _ h2)
    · exact h2

theorem out_commands_free (h : OutFree P) : OutCommands A (fun _ _ => P) where
  setOutput _ _ _ _ _ _ _ _ _ hp := h.out _ _ _ hp
  relockNow _ _ _ _ _ _ _ _ hp := h.endOutOp _ _ (fillRecord_kept h.mgmt _ _ hp)
  relockWaits _ _ _ _ _ _ _ _ hp := h.out _ _ _ (fillRecord_kept h.mgmt _ _ hp)

theorem ackAll_kept {P : Part → Prop} (h : ∀ f p, P p → P (modFault f p)) (cs : List Cond) {p : Part} (hp : P p) :
    P (ackAll cs p) := by
  rw [ackAll, alarmEval]
  refine h _ _ (forAll_kept (fun c q hq => ?_) cs hp)
  unfold ackOne
  split
  · exact hq
  · exact h _ _ hq

theorem fault_commands_free (h : ∀ f p, P p → P (modFault f p)) : FaultCommands A (fun _ _ => P) where
  logRead _ _ _ _ _ hp := h _ _ hp
  logClear _ _ _ _ _ _ _ _ hp := h _ _ hp
  ack _ _ cs _ _ hp := ackAll_kept h cs hp
  mask _ _ _ _ _ hp := by
    rw [storeMask, alarmEval]
    exact h _ _ (h _ _ hp)

/-- What DEVICE RESET does beyond the reset values: pool degraded, with its notices. -/
theorem deviceReset_kept (hs : StoreKeeps P) (ho : ∀ n k p, P p → P (placeNotice n k p)) {p : Part}
    (hp : P (resetPart p.straps (activityOf p) (deviceResetStore p.store))) : P (deviceReset p) := by
  unfold deviceReset degradeAtReset
  split
  · exact forAll_kept (fun n q hq => ho n 0 q hq) _ (hs.report _ _ _ _ (hs.latch _ _ hp))
  · exact hp

/-- The end of a step takes every lane to FAULTED where an integrity error was found, and clears it. -/
theorem settle_kept {L : Part → Prop} (hk : Keeps (fun _ => True) P)
    (hfatal : ∀ p, P p → P (modFault (fun u => { u with deviceFatal := true }) p))
    (hsettled : ∀ p, P p → L (modFault (fun u => { u with fatalDue := false }) p))
    (hidle : ∀ p, P p → p.fault.fatalDue = false → L p) (p : Part) (hp : P p) : L (settle p) := by
  unfold settle
  split
  · dsimp only
    refine hsettled _ ?_
    split
    · exact hp
    · exact forAll_kept (fun n q hq => hk.deviceFatalLane n hq) _ (hk.latch _ _ (hfatal _ hp))
  · next h => exact hidle _ hp (Bool.eq_false_iff.2 h)

/-- A law that no change of the fault unit touches survives the end of a step. -/
theorem plain_law (hk : Keeps (fun _ => True) P) (hc : CommandsKeep A P (fun _ _ => P))
    (hr : ∀ n ws p, P p → P (arrive n ws p))
    (hu : ∀ u p, P p → P (applyUpset u p)) (ha : ∀ t p, P p → P (advance t p))
    (hf : ∀ f p, P p → P (modFault f p)) : Law A P P (fun _ _ => P) where
  toCommandsKeep := hc
  arrive := hr
  keeps _ _ := hk
  inEvent _ hp := hp
  taking _ _ := Iff.rfl
  upset := hu
  advance := ha
  settle := settle_kept hk (fun _ => hf _ _) (fun _ => hf _ _) (fun _ hp _ => hp)

end Free
end Sys2Proof.Machine.Keeping
end

section
/-! SUPPORT. The memory stays canonical (O5): only the end of a line, an initialisation and an error that strikes change
cells. -/

namespace Sys2Proof.Machine.MemoryLaw

open Keeping Frames

theorem memoryOk_of_store {p q : Part} (h : q.store.mem = p.store.mem ∧ q.store.ecc = p.store.ecc) (hp : memoryOk p) :
    memoryOk q := by
  unfold memoryOk
  rwa [h.1, h.2]

theorem free : StoreFree memoryOk where
  store f p h hp := memoryOk_of_store (h p.store) hp
  black _ _ hp := ⟨memoryWf_blacken hp.1, cellsRising_filter hp.2⟩
  line _ _ _ _ _ hp := writeLine_wf hp
  report := report_kept (fun _ _ hp => hp)
  due _ hp := hp
  latch c p hp := memoryOk_of_store (by simp) hp

theorem feeds : FeedFree memoryOk := { store_free free with feed := fun _ _ _ hp => hp }

theorem outs : OutFree memoryOk where
  out _ _ _ hp := hp
  mgmt _ _ hp := hp
  ref r _ _ hp := by cases r <;> exact hp

theorem lanes : LaneFree memoryOk :=
  { store_free free with lane := fun _ _ _ hp => hp, endLaneOp := fun n s _ => outs.endLaneOp n s }

theorem keeps : Keeps (fun _ => True) memoryOk :=
  ⟨store_free free, feed_free feeds (fun _ _ _ _ _ hp => hp), lane_free lanes _, out_free outs _⟩

theorem commands : CommandsKeep (fun _ => True) memoryOk (fun _ _ => memoryOk) :=
  ⟨reply_commands_free outs, lane_commands_free lanes keeps.toFeedKeeps (fun n op _ => fillRecord_kept outs.mgmt (.lane n) op),
    out_commands_free outs,
    fault_commands_free (fun _ _ hp => hp), fun _ _ _ _ hp => hp,
    fun _ _ _ _ hp => deviceReset_kept keeps.toStoreKeeps (fun n k _ => outs.placeNotice n k) hp,
    fun _ _ _ _ _ _ hp => hp, fun _ _ _ _ _ hp => hp⟩

theorem upset (u : Upset) (p : Part) (hp : memoryOk p) : memoryOk (applyUpset u p) := by
  cases u with
  | storedSample => exact ⟨hp.1, cellsRising_put hp.2⟩
  | slotRecord => exact hp
  | tableRow => exact hp
  | carryItem => exact hp

theorem law : Law (fun _ => True) memoryOk memoryOk (fun _ _ => memoryOk) :=
  plain_law keeps commands (fun n ws _ => outs.arrive n ws) upset (fun _ _ hp => hp) (fun _ _ hp => hp)

/-- Settles O5: every operation of the store, and so every step, keeps the memory canonical. -/
theorem memoryStaysCanonical : Obligations.MemoryStaysCanonical :=
  law.kept (fun _ => trivial) (fun _ _ hp => hp)

end Sys2Proof.Machine.MemoryLaw
end

section
/-! SUPPORT. The order of histories (O12): what joins a history has the next sequence number and a stamp after every stamp
held, because the expected stamp lies after the last stamp and a re-anchor takes a later one. -/

namespace Sys2Proof.Machine.HistoryLaw

open Keeping Frames

/-! ### Histories as lists -/

/-- A history that runs up to the next sequence number, with stamps rising to at most `v`. -/
structure StampedTo (v : Int) (f : Feed) : Prop where
  rising : f.history.Pairwise (fun a b => a.stamp < b.stamp)
  length : f.history.length ≤ 8
  bound : f.nextSeq < 4294967296
  runs : runsTo f.nextSeq f.history
  last : ∀ e ∈ f.history, e.stamp ≤ v

/-- The law of one feed. -/
def feedOk (f : Feed) : Prop :=
  match f.lastStamp with
  | none => f.history = [] ∧ f.nextSeq < 4294967296
  | some v => StampedTo v f

theorem historyOk_iff (p : Part) : historyOk p ↔ ∀ n, feedOk (p.feeds.get n) := by
  refine forall_congr' (fun n => ?_)
  unfold feedOk
  cases (p.feeds.get n).lastStamp with
  | none =>
    refine ⟨fun ⟨_, _, hb, _, he⟩ => ⟨he, hb⟩, fun ⟨he, hb⟩ => ?_⟩
    dsimp only
    rw [he]
    exact ⟨.nil, by simp, hb, trivial, rfl⟩
  | some v => exact ⟨fun ⟨a, b, c, d, e⟩ => ⟨a, b, c, d, e⟩, fun ⟨a, b, c, d, e⟩ => ⟨a, b, c, d, e⟩⟩

theorem runsTo_tail {next : Nat} : ∀ {h : List Entry}, runsTo next h → runsTo next h.tail
  | [], _ => trivial
  | [_], _ => trivial
  | _ :: _ :: _, hr => hr.2

theorem runsTo_append {next : Nat} {e : Entry} (he : e.seq = next) :
    ∀ {h : List Entry}, runsTo next h → runsTo ((next + 1) % 4294967296) (h ++ [e])
  | [], _ => by simp [runsTo, he]
  | [_], hr => ⟨by rw [he]; exact hr.symm, by simp [runsTo, he]⟩
  | _ :: b :: rest, hr => ⟨hr.1, runsTo_append he (h := b :: rest) hr.2⟩

/-- The law looks at sequence numbers and stamps alone. -/
theorem runsTo_congr {next : Nat} : ∀ {h h' : List Entry}, h'.map Entry.seq = h.map Entry.seq → runsTo next h → runsTo next h'
  | [], [], _, _ => trivial
  | [_], [_], e, hr => by simpa [runsTo, (List.cons.inj e).1] using hr
  | _ :: b :: rest, _ :: b' :: rest', e, hr => by
    obtain ⟨e1, e2⟩ := List.cons.inj e
    have e3 := (List.cons.inj e2).1
    exact ⟨by rw [e1, e3]; exact hr.1, runsTo_congr (h := b :: rest) (h' := b' :: rest') e2 hr.2⟩
  | [], _ :: _, e, _ => by cases e
  | _ :: _, [], e, _ => by cases e
  | [_], _ :: _ :: _, e, _ => by cases (List.cons.inj e).2
  | _ :: _ :: _, [_], e, _ => by cases (List.cons.inj e).2

theorem StampedTo.congr {v : Int} {f f' : Feed} (h : StampedTo v f) (hn : f'.nextSeq = f.nextSeq)
    (hs : f'.history.map Entry.seq = f.history.map Entry.seq)
    (ht : f'.history.map Entry.stamp = f.history.map Entry.stamp) : StampedTo v f' where
  rising := by
    have := h.rising
    rw [← List.pairwise_map (f := Entry.stamp) (R := (· < ·))] at this ⊢
    rwa [ht]
  length := by simpa using (congrArg List.length hs).trans_le (by simpa using h.length)
  bound := hn ▸ h.bound
  runs := hn ▸ runsTo_congr hs h.runs
  last e he := by
    have hm : e.stamp ∈ f.history.map Entry.stamp := ht ▸ List.mem_map_of_mem he
    obtain ⟨e', he', heq⟩ := List.mem_map.1 hm
    exact heq ▸ h.last e' he'

theorem mapNewest_map {β : Type} {g : Entry → Entry} {k : Entry → β} (hk : ∀ e, k (g e) = k e) :
    ∀ h : List Entry, (mapNewest g h).map k = h.map k
  | [] => rfl
  | [e] => by simp [mapNewest, hk]
  | e :: b :: rest => by
    have ih := mapNewest_map hk (b :: rest)
    simpa [mapNewest] using ih

theorem StampedTo.mono {v w : Int} {f : Feed} (h : StampedTo v f) (hvw : v ≤ w) : StampedTo w f :=
  ⟨h.rising, h.length, h.bound, h.runs, fun e he => (h.last e he).trans hvw⟩

theorem StampedTo.empty {v : Int} {f : Feed} (he : f.history = []) (hb : f.nextSeq < 4294967296) : StampedTo v f :=
  ⟨by simp [he], by simp [he], hb, by rw [he]; trivial, by simp [he]⟩

/-! ### Room and appending -/

/-- A feed with room for one entry more (R30). -/
def roomMade (f : Feed) : Feed := if 8 ≤ f.history.length then { f with history := f.history.tail } else f

/-- A feed with an entry joined at the new end (R29). -/
def pushed (e : Entry) (f : Feed) : Feed :=
  { f with history := f.history ++ [e], nextSeq := (f.nextSeq + 1) % 4294967296 }

theorem StampedTo.roomMade {v : Int} {f : Feed} (h : StampedTo v f) : StampedTo v (roomMade f) := by
  unfold HistoryLaw.roomMade
  split
  · exact ⟨h.rising.tail, by simpa using h.length.trans (by simp), h.bound, runsTo_tail h.runs,
      fun e he => h.last e (List.mem_of_mem_tail he)⟩
  · exact h

theorem roomMade_length {f : Feed} (h : f.history.length ≤ 8) : (roomMade f).history.length ≤ 7 := by
  unfold roomMade
  split
  · simp only [List.length_tail]; omega
  · omega

theorem StampedTo.pushed {v : Int} {f : Feed} {e : Entry} (h : StampedTo v f) (hl : f.history.length ≤ 7)
    (he : e.seq = f.nextSeq) (hv : v < e.stamp) : StampedTo e.stamp (pushed e f) where
  rising := List.pairwise_append.2 ⟨h.rising, List.pairwise_singleton _ _,
    fun a ha b hb => by rw [List.mem_singleton.1 hb]; exact (h.last a ha).trans_lt hv⟩
  length := by simp only [HistoryLaw.pushed, List.length_append, List.length_singleton]; omega
  bound := Nat.mod_lt _ (by decide)
  runs := runsTo_append he h.runs
  last a ha := by
    rcases List.mem_append.1 ha with ha | ha
    · exact (h.last a ha).trans hv.le
    · rw [List.mem_singleton.1 ha]

/-! ### The operations of a feed on its own record -/

section Ops
variable (n : Ix) (p : Part)

@[simp] theorem returnEntry_feeds (e : Entry) : (returnEntry n e p).feeds = p.feeds := storeBlind_feeds.returnEntry n e

theorem makeRoom_feeds : (makeRoom n p).feeds = p.feeds.modify n roomMade := by
  unfold makeRoom
  split
  · next h => simp [Four.modify, roomMade, h]
  · next e rest h =>
    split <;> rename_i hl
    · have hr : roomMade (p.feeds.get n) = { p.feeds.get n with history := rest } := by
        rw [roomMade, if_pos (by rw [h]; exact hl), h, List.tail_cons]
      simp [Four.modify, hr]
    · have hr : roomMade (p.feeds.get n) = p.feeds.get n := by rw [roomMade, if_neg (by rw [h]; exact hl)]
      simp [Four.modify, hr]

@[simp] theorem grant_feeds : (grant n p).1.feeds = p.feeds := storeBlind_feeds.grant n

end Ops

/-- While a picture start appends to feed `n`: its last stamp is already `w`, its history runs to `v`. -/
structure Appending (n : Ix) (w v : Int) (p : Part) : Prop where
  others : ∀ m, m ≠ n → feedOk (p.feeds.get m)
  lastStamp : (p.feeds.get n).lastStamp = some w
  stamped : StampedTo v (p.feeds.get n)

section Appends
variable {n : Ix} {w v : Int} {p q : Part}

theorem Appending.of_feeds (h : Appending n w v p) (he : q.feeds = p.feeds) : Appending n w v q :=
  ⟨fun m hm => he ▸ h.others m hm, he ▸ h.lastStamp, he ▸ h.stamped⟩

theorem Appending.modFeed (h : Appending n w v p) {v' : Int} {f : Feed → Feed} (hl : ∀ r, (f r).lastStamp = r.lastStamp)
    (hs : StampedTo v' (f (p.feeds.get n))) : Appending n w v' (modFeed n f p) where
  others m hm := by simpa [Four.get_modify_other _ _ hm] using h.others m hm
  lastStamp := by simpa [hl] using h.lastStamp
  stamped := by simpa using hs

theorem Appending.bumpFeed (h : Appending n w v p) (f : FeedCounters → FeedCounters) : Appending n w v (bumpFeed n f p) :=
  h.modFeed (fun _ => rfl) ⟨h.stamped.rising, h.stamped.length, h.stamped.bound, h.stamped.runs, h.stamped.last⟩

theorem Appending.report (h : Appending n w v p) (l : LogId) (c : ErrCode) (d : Detail) :
    Appending n w v (report l c d p) := h.of_feeds (by simp)

theorem roomMade_lastStamp (f : Feed) : (roomMade f).lastStamp = f.lastStamp := by unfold roomMade; split <;> rfl
theorem roomMade_nextSeq (f : Feed) : (roomMade f).nextSeq = f.nextSeq := by unfold roomMade; split <;> rfl

theorem Appending.makeRoom (h : Appending n w v p) : Appending n w v (makeRoom n p) :=
  (h.modFeed roomMade_lastStamp h.stamped.roomMade).of_feeds (makeRoom_feeds n p)

theorem makeRoom_length (h : Appending n w v p) : ((Machine.makeRoom n p).feeds.get n).history.length ≤ 7 := by
  rw [makeRoom_feeds, Four.get_modify_same]
  exact roomMade_length h.stamped.length

theorem Appending.pushEntry (h : Appending n w v p) {e : Entry} {u : Int} (hl : (p.feeds.get n).history.length ≤ 7)
    (he : e.seq = (p.feeds.get n).nextSeq) (hu : e.stamp = u) (hv : v < u) : Appending n w u (pushEntry n e p) :=
  h.modFeed (fun _ => rfl) (hu ▸ h.stamped.pushed hl he (hu ▸ hv))

/-- The holes of a gap run a period apart from the expected stamp on (R26). -/
theorem Appending.appendHoles (h : Appending n w v p) (b : Bool) {period : Nat} (hp : 0 < period) {x : Int} (hx : v < x) :
    ∀ m : Nat, ∃ u, u < x + ((m * period : Nat) : Int) ∧ Appending n w u (appendHoles n b period x m p)
  | 0 => ⟨v, by simpa using hx, h⟩
  | m + 1 => by
    obtain ⟨u, hu, hm⟩ := Appending.appendHoles h b hp hx m
    refine ⟨x + ((m * period : Nat) : Int), ?_, ?_⟩
    · have : m * period < (m + 1) * period := Nat.mul_lt_mul_of_pos_right (Nat.lt_succ_self m) hp
      omega
    · have hroom := hm.makeRoom
      unfold Machine.appendHoles appendMissed
      refine Appending.bumpFeed (Appending.report ?_ _ _ _) _
      refine hroom.pushEntry (makeRoom_length hm) ?_ rfl hu
      rw [makeRoom_feeds, Four.get_modify_same, roomMade_nextSeq]

theorem Appending.appendPicture (h : Appending n w v p) {stamp : Int} (hv : v < stamp) (a : Int) (par : Option Parity) :
    Appending n w stamp (appendPicture n stamp a par p) := by
  have hg : Appending n w v (grant n (Machine.makeRoom n p)).1 := h.makeRoom.of_feeds (by simp)
  have hl : ((grant n (Machine.makeRoom n p)).1.feeds.get n).history.length ≤ 7 := by
    rw [grant_feeds]; exact makeRoom_length h
  unfold Machine.appendPicture
  dsimp only
  refine Appending.bumpFeed ?_ _
  split
  · exact hg.pushEntry hl (by rw [grant_feeds]) rfl hv
  · refine Appending.bumpFeed (Appending.report ?_ _ _ _) _
    exact hg.pushEntry hl (by rw [grant_feeds]) rfl hv

theorem Appending.ok (h : Appending n w v p) (hv : v ≤ w) : historyOk p :=
  (historyOk_iff p).2 (fun m => by
    by_cases hm : m = n
    · subst hm
      rw [feedOk, h.lastStamp]
      exact h.stamped.mono hv
    · exact h.others m hm)

end Appends

/-! ### The law -/

theorem periodOf_pos (s : Std) : 1024 ≤ (stdRow s).period := by cases s <;> decide

/-- The expected stamp lies after the last stamp: the correction is less than a period (R25). -/
theorem correction_lower (d : Int) (period : Nat) : -((period / 1024 : Nat) : Int) ≤ correction d period := by
  unfold correction clampInt
  split
  · exact le_rfl
  · split <;> omega

theorem historyOk_of_feeds {p q : Part} (h : q.feeds = p.feeds) (hp : historyOk p) : historyOk q := by
  unfold historyOk
  rwa [h]

theorem blind : StoreKeeps historyOk := store_blind storeBlind_feeds (fun fs => ∀ n,
    ((fs.get n).history.Pairwise (fun a b => a.stamp < b.stamp))
      ∧ (fs.get n).history.length ≤ 8
      ∧ (fs.get n).nextSeq < 4294967296 ∧ runsTo (fs.get n).nextSeq (fs.get n).history
      ∧ (match (fs.get n).lastStamp with
         | none => (fs.get n).history = []
         | some v => ∀ e ∈ (fs.get n).history, e.stamp ≤ v))

theorem modFeed_ok {n : Ix} {f : Feed → Feed} {p : Part} (hf : feedOk (p.feeds.get n) → feedOk (f (p.feeds.get n)))
    (hp : historyOk p) : historyOk (modFeed n f p) := by
  rw [historyOk_iff] at hp ⊢
  intro m
  rw [modFeed_feeds, Four.get_modify]
  split
  · next hm => subst hm; exact hf (hp _)
  · exact hp m

theorem feedOk_congr {f f' : Feed} (hl : f'.lastStamp = f.lastStamp) (hn : f'.nextSeq = f.nextSeq)
    (hs : f'.history.map Entry.seq = f.history.map Entry.seq)
    (ht : f'.history.map Entry.stamp = f.history.map Entry.stamp) (h : feedOk f) : feedOk f' := by
  unfold feedOk at h ⊢
  rw [hl]
  split <;> rename_i hlast <;> rw [hlast] at h
  · exact ⟨by simpa [h.1] using hs, hn ▸ h.2⟩
  · exact h.congr hn hs ht

theorem modNewest_ok (n : Ix) (g : Entry → Entry) (p : Part) (hg : ∀ e, (g e).seq = e.seq ∧ (g e).stamp = e.stamp)
    (hp : historyOk p) : historyOk (modNewest n g p) :=
  modFeed_ok (feedOk_congr rfl rfl (mapNewest_map (fun e => (hg e).1) _) (mapNewest_map (fun e => (hg e).2) _)) hp

theorem abandonNewest_ok (n : Ix) (b : Bool) (p : Part) (hp : historyOk p) : historyOk (abandonNewest n b p) := by
  unfold abandonNewest
  split
  · next e _ =>
    split
    · have h1 : historyOk (returnEntry n e (modNewest n (toHole .abandoned) p)) :=
        historyOk_of_feeds (returnEntry_feeds ..) (modNewest_ok n _ p (fun _ => ⟨rfl, rfl⟩) hp)
      have h2 := modFeed_ok (n := n)
        (f := fun f => { f with ctr := { f.ctr with holesAbandoned := bump f.ctr.holesAbandoned } })
        (feedOk_congr rfl rfl rfl rfl) h1
      dsimp only
      split
      · exact blind.report _ _ _ _ h2
      · exact h2
    · exact hp
  · exact hp

/-- A picture start begins to append with its stamp as the last one, over a history that runs to the one before. -/
theorem appending_of {n : Ix} {p : Part} (hp : historyOk p) {w : Int} {f : Feed → Feed} {v : Int}
    (hv : ∀ u, (p.feeds.get n).lastStamp = some u → u ≤ v) (hw : ∀ r, (f r).lastStamp = some w)
    (hn : ∀ r, (f r).nextSeq = r.nextSeq) (hh : ∀ r, (f r).history = r.history) : Appending n w v (modFeed n f p) := by
  rw [historyOk_iff] at hp
  refine ⟨fun m hm => by simpa [Four.get_modify_other _ _ hm] using hp m, by simp [hw], ?_⟩
  have h := hp n
  unfold feedOk at h
  rw [modFeed_feeds, Four.get_modify_same]
  cases hl : (p.feeds.get n).lastStamp with
  | none =>
    rw [hl] at h
    exact .empty (by rw [hh]; exact h.1) (by rw [hn]; exact h.2)
  | some u =>
    rw [hl] at h
    exact (h.congr (hn _) (by rw [hh]) (by rw [hh])).mono (hv u hl)

theorem pictureStart_ok (n : Ix) (code : Std) (a : Int) (par : Parity) (p : Part) (hp : historyOk p) :
    historyOk (pictureStart n code a par p) := by
  have h1 := abandonNewest_ok n true p hp
  have hpos := periodOf_pos code
  unfold pictureStart
  dsimp only
  generalize abandonNewest n true p = q at h1 ⊢
  unfold stampOf
  split <;> rename_i hs
  · split at hs
    · next hl =>
      have ha := appending_of (n := n) (w := a) (v := a - 1) (f := fun f => { f with lastStamp := some a, dPrev := 0 }) h1
        (fun u hu => by rw [hl] at hu; cases hu) (fun _ => rfl) (fun _ => rfl) (fun _ => rfl)
      exact (ha.appendPicture (by omega) a _).ok le_rfl
    · dsimp only at hs; split at hs <;> cases hs
  · next m expected deviation =>
    split at hs
    · cases hs
    · next prev hl =>
      dsimp only at hs
      split at hs <;> cases hs
      have hc := correction_lower (q.feeds.get n).dPrev (stdRow code).period
      set x := prev + (stdRow code).period + correction (q.feeds.get n).dPrev (stdRow code).period with hx
      have ha := appending_of (n := n) (w := x + ((m * (stdRow code).period : Nat) : Int)) (v := prev)
        (f := fun f => { f with
          lastStamp := some (x + ((m * (stdRow code).period : Nat) : Int))
          dPrev := a - x - ((m * (stdRow code).period : Nat) : Int) }) h1
        (fun u hu => by rw [hl] at hu; cases hu; exact le_rfl) (fun _ => rfl) (fun _ => rfl) (fun _ => rfl)
      obtain ⟨u, hu, hm⟩ := ha.appendHoles (stdRow code).interlaced (by omega : 0 < (stdRow code).period)
        (x := x) (by omega) m
      exact (hm.appendPicture hu a _).ok le_rfl
  · next stamp =>
    split at hs
    · cases hs
    · next prev hl =>
      dsimp only at hs
      split at hs <;> cases hs
      have ha := appending_of (n := n) (w := if prev < a then a else prev + 1) (v := prev)
        (f := fun f => { f with
          segment := (f.segment + 1) % 65536, lastStamp := some (if prev < a then a else prev + 1), dPrev := 0 }) h1
        (fun u hu => by rw [hl] at hu; cases hu; exact le_rfl) (fun _ => rfl) (fun _ => rfl) (fun _ => rfl)
      refine (Appending.appendPicture (.bumpFeed (.report (ha.of_feeds (by simp)) _ _ _) _) ?_ a _).ok le_rfl
      split <;> omega

theorem flushFeed_feeds (n : Ix) (p : Part) : (flushFeed n p).feeds = p.feeds.modify n (fun f => { f with
    history := [], lastStamp := none, dPrev := 0, segment := (f.segment + 1) % 65536
    ctr := { f.ctr with flushes := bump f.ctr.flushes } }) := by
  simp only [flushFeed, bumpFeed_eq, modFeed_feeds]
  rw [forAll_keeps (fun p => p.feeds) _ (fun e q => returnEntry_feeds n q e)]
  simp

theorem flushFeed_ok (n : Ix) (p : Part) (hp : historyOk p) : historyOk (flushFeed n p) :=
  historyOk_of_feeds (flushFeed_feeds n p) (modFeed_ok (n := n) (f := fun f => { f with
    history := [], lastStamp := none, dPrev := 0, segment := (f.segment + 1) % 65536
    ctr := { f.ctr with flushes := bump f.ctr.flushes } }) (fun _ => ⟨rfl, (hp n).2.2.1⟩) hp)

theorem feeds : FeedKeeps (fun _ => True) historyOk where
  link _ _ _ _ _ hp := hp
  feed _ _ _ _ h hp := modFeed_ok (feedOk_congr h.lastStamp h.nextSeq (by rw [h.history]) (by rw [h.history])) hp
  newest n g p _ hg hp := modNewest_ok n g p hg hp
  pictureStart n code a par p _ hp := pictureStart_ok n code a par p hp
  flush n p _ hp := flushFeed_ok n p hp

theorem outs : OutFree historyOk where
  out _ _ _ hp := hp
  mgmt _ _ hp := hp
  ref r _ _ hp := by cases r <;> exact hp

theorem lanes : LaneFree historyOk :=
  { blind with lane := fun _ _ _ hp => hp, endLaneOp := fun n s _ => outs.endLaneOp n s }

theorem resetFeeds_ok {p : Part} (h : p.feeds = Four.all resetFeed) : historyOk p := by
  rw [historyOk_iff, h]
  intro n
  rw [Four.get_all]
  exact ⟨rfl, by decide⟩

theorem keeps : Keeps (fun _ => True) historyOk := ⟨blind, feeds, lane_free lanes _, out_free outs _⟩

theorem commands : CommandsKeep (fun _ => True) historyOk (fun _ _ => historyOk) :=
  ⟨reply_commands_free outs, lane_commands_free lanes feeds (fun n op _ => fillRecord_kept outs.mgmt (.lane n) op),
    out_commands_free outs,
    fault_commands_free (fun _ _ hp => hp), fun _ _ _ _ hp => hp,
    fun _ _ _ _ _ => deviceReset_kept blind (fun n k _ => outs.placeNotice n k) (resetFeeds_ok rfl),
    fun _ _ _ _ _ _ hp => hp, fun _ _ _ _ _ hp => hp⟩

theorem upset (u : Upset) (p : Part) (hp : historyOk p) : historyOk (applyUpset u p) := by
  cases u <;> exact hp

theorem law : Law (fun _ => True) historyOk historyOk (fun _ _ => historyOk) :=
  plain_law keeps commands (fun n ws _ => outs.arrive n ws) upset (fun _ _ hp => hp) (fun _ _ hp => hp)

/-- Settles O12: what a picture start appends comes after all that the history holds. -/
theorem historyStaysOrdered : Obligations.HistoryStaysOrdered :=
  law.kept (fun _ => trivial) (fun _ _ _ => resetFeeds_ok rfl)

end Sys2Proof.Machine.HistoryLaw
end

section
/-! SUPPORT. Laws of the lanes, one by one: what the operations of the part make of one lane's record, and how a predicate
on that record is kept by every step. -/

namespace Sys2Proof.Machine.Keeping

open Frames

/-! ### What operations make of the lanes -/

section Lanes
variable (n m : Ix) (p : Part)

/-- The item that a packet becomes in a carry queue (R144). -/
def carryItemOf (k : Packet) : CarryItem :=
  match currentEntry p n with
  | some e => ⟨k, e.stamp, some e.seq, true⟩
  | none => ⟨k, p.timebase, none, true⟩

/-- A lane with room for one carried item more (R144). -/
def carryRoomed (l : Lane) : Lane :=
  if 64 ≤ l.carry.length then
    { l with carry := l.carry.tail, carryCtr := { l.carryCtr with carryOverflows := bump l.carryCtr.carryOverflows } }
  else l

theorem carryRoom_lanes : (carryRoom m p).lanes = p.lanes.modify m carryRoomed := by
  unfold carryRoom
  split
  · next h => simp [Four.modify, carryRoomed, h]
  · next i rest h =>
    split <;> rename_i hl
    · have hr : carryRoomed (p.lanes.get m) = { p.lanes.get m with
          carry := rest
          carryCtr := { (p.lanes.get m).carryCtr with
            carryOverflows := bump (p.lanes.get m).carryCtr.carryOverflows } } := by
        rw [carryRoomed, if_pos (by rw [h]; exact hl), h, List.tail_cons]
      simp [Four.modify, hr]
    · have hr : carryRoomed (p.lanes.get m) = p.lanes.get m := by rw [carryRoomed, if_neg (by rw [h]; exact hl)]
      simp [Four.modify, hr]

/-- A packet carried by a lane (R143, R144). -/
theorem carryPacket_lanes (k : Packet) : (carryPacket n m k p).lanes = p.lanes.modify m (fun l =>
    { carryRoomed l with
      carry := (carryRoomed l).carry ++ [carryItemOf n p k]
      carryCtr := { (carryRoomed l).carryCtr with packetsCarried := bump (carryRoomed l).carryCtr.packetsCarried } }) := by
  simp only [carryPacket, bumpCarry_eq, modLane_lanes, carryRoom_lanes, Four.modify_modify]
  rfl

/-- A lane whose job in flight has ended: it holds no pins and keeps no rows (R81). -/
def jobEnded (l : Lane) : Lane := if l.job.inFlight then { l with job := { closeJob l.job with pinned := [] } } else l

theorem endJob_lanes : (endJob n p).lanes = p.lanes.modify n jobEnded := by
  unfold endJob
  split
  · next h => simp [unpinJob_lanes, Four.modify, jobEnded, h]
  · next h => simp [Four.modify, jobEnded, h]

/-- A lane after the swap of the COMMIT that it holds (R163). -/
def swapped (l : Lane) : Lane :=
  match l.commit with
  | some c => { l with tables := swapTables c l.tables, commit := none, job := keepRows l }
  | none => l

theorem commitSwap_lanes : (commitSwap n p).lanes = p.lanes.modify n swapped := by
  unfold commitSwap
  split
  · next h => simp [Four.modify, swapped, h]
  · next h => simp [Four.modify, swapped, h]

theorem pinOne_lanes (source : Ix) (k : SlotIx) : (pinOne n source k p).lanes = p.lanes.modify n (fun l =>
    if (pinSlot source k p).2 then { l with job := { l.job with pinned := l.job.pinned ++ [k] } } else l) := by
  have e : (pinSlot source k p).1.lanes = p.lanes := storeBlind_lanes.pinSlot source k
  unfold pinOne
  split <;> simp [e]

section Keeps
variable {n m p} {β : Type} {g : Part → β} (h : StoreBlind g)
include h

theorem endJob_keeps (hl : ∀ f p, g (modLane n f p) = g p) : g (endJob n p) = g p := by
  unfold endJob
  split
  · rw [unpinJob_keeps n _ h, hl, hl]
  · rfl

theorem carryPacket_keeps (hl : ∀ f p, g (modLane m f p) = g p) (k : Packet) : g (carryPacket n m k p) = g p := by
  have hroom : g (carryRoom m p) = g p := by
    unfold carryRoom
    split
    · rfl
    · split
      · rw [h.report, bumpCarry_eq, hl, hl]
      · rfl
  rw [carryPacket, bumpCarry_eq, hl, hl, hroom]

theorem pinOne_keeps (hl : ∀ f p, g (modLane n f p) = g p) (source : Ix) (k : SlotIx) : g (pinOne n source k p) = g p := by
  unfold pinOne
  split
  · rw [hl, h.pinSlot]
  · rw [h.pinSlot]

end Keeps

theorem abandoned_eq (l : Lane) : abandoned l = { jobEnded l with
    jobCtr := if l.job.inFlight then { l.jobCtr with jobsAbandoned := bump l.jobCtr.jobsAbandoned } else l.jobCtr } := by
  unfold abandoned jobEnded
  split <;> rfl

end Lanes

/-! ### A law of one lane -/

/-- A predicate on each lane that survives the changes that operations make of a lane's record. -/
structure LaneLaw (A : Nat → Prop) (Q : Ix → Lane → Prop) : Prop where
  minor : ∀ n l l' b, LaneChange b l l' → Q n l → Q n l'
  stop : ∀ n l s, s = .faulted ∨ s = .stopped → l.job.inFlight = false → l.carry = [] → Q n l → Q n { l with state := s }
  faultStopped : ∀ n l, l.state = .stopped → Q n l → Q n { l with state := .faulted }
  ended : ∀ n l, Q n l → Q n (jobEnded l)
  carryShrink : ∀ n l (f : List CarryItem → List CarryItem), (∀ c, (f c).length ≤ c.length) → Q n l →
    Q n { l with carry := f l.carry }
  carried : ∀ n l i, isRunning l.state = true → Q n l →
    Q n { l with carry := (if 64 ≤ l.carry.length then l.carry.tail else l.carry) ++ [i] }
  swap : ∀ n l, Q n l → Q n (swapped l)
  timerOff : ∀ n l, Q n l → Q n { l with acquireAt := none }
  commitOff : ∀ n l, Q n l → Q n { l with commit := none }
  jobSet : ∀ n l job, runsJobs l.state = true → job.inFlight = true → job.pinned = [] → job.kept = none → Q n l →
    Q n { l with job := job, jobNumber := l.jobNumber + 1 }
  pin : ∀ n l k, l.job.inFlight = true → Q n l → Q n { l with job := { l.job with pinned := l.job.pinned ++ [k] } }
  spoilTable : ∀ n l t b row, Q n l → Q n { l with tables := modTable t (spoilBank b row) l.tables }
  spoilItem : ∀ n l i, Q n l → Q n { l with carry := l.carry.modify i (fun c => { c with parityOk := false }) }
  profile : ∀ n l v, A 8 → l.state = .stopped → Q n l → Q n (storeProfile v l)
  start : ∀ n l t, A 9 → l.state = .stopped → Q n l →
    Q n { l with acquireAt := some t, jobNumber := 0, holdCount := 0, state := .acquiring }
  resumed : ∀ n l, A 11 → l.state = .faulted → Q n l → Q n { l with state := .stopped }
  shadow : ∀ n l t first rows, A 14 → l.commit = none → Q n l → Q n { l with tables := loadShadow t first rows l.tables }
  commitHeld : ∀ n l c, A 15 → checkTables c l.tables = none → Q n l → Q n { l with commit := some c }
  route : ∀ n l t, A 18 → t.entries.length ≤ 32 → Q n l → Q n { l with route := t }
  reset : ∀ n t, A 4 → Q n (resetLane t n)

section Builder
variable {A : Nat → Prop} {Q : Ix → Lane → Prop} {p : Part}

/-- Every lane satisfies its predicate. -/
def eachLane (Q : Ix → Lane → Prop) (p : Part) : Prop := ∀ n, Q n (p.lanes.get n)

theorem eachLane_of_lanes {q : Part} (h : q.lanes = p.lanes) (hp : eachLane Q p) : eachLane Q q := by
  unfold eachLane
  rwa [h]

theorem eachLane_modify {q : Part} {n : Ix} {f : Lane → Lane} (h : q.lanes = p.lanes.modify n f)
    (hf : Q n (p.lanes.get n) → Q n (f (p.lanes.get n))) (hp : eachLane Q p) : eachLane Q q := by
  intro m
  rw [h, Four.get_modify]
  split
  · next hm => subst hm; exact hf (hp m)
  · exact hp m

theorem eachLane_modLane {n : Ix} {f : Lane → Lane} (hf : Q n (p.lanes.get n) → Q n (f (p.lanes.get n)))
    (hp : eachLane Q p) : eachLane Q (modLane n f p) := eachLane_modify rfl hf hp

/-- Only one lane's operation record and the replies change where an operation ends. -/
theorem eachLane_endLaneOp (n : Ix) (s : DoneStatus) (hp : eachLane Q p) : eachLane Q (endLaneOp n s p) :=
  eachLane_of_lanes (by simp) hp

theorem eachLane_store : StoreKeeps (eachLane Q) := store_blind storeBlind_lanes (fun ls => ∀ n, Q n (ls.get n))

theorem eachLane_feeds : FeedKeeps (fun _ => True) (eachLane Q) :=
  feed_free { eachLane_store with feed := fun _ _ _ hp => hp } (fun _ _ _ _ _ hp => hp)

theorem eachLane_outs : OutFree (eachLane Q) where
  out _ _ _ hp := hp
  mgmt _ _ hp := hp
  ref r _ _ hp := by cases r <;> exact hp

section
variable (h : LaneLaw A Q)
include h

theorem LaneLaw.lanes : LaneKeeps (fun _ => True) (eachLane Q) where
  lane n f p _ hf hp := eachLane_modify rfl (h.minor n _ _ _ hf) hp
  laneRuns n f p _ hf hp := eachLane_modify rfl (h.minor n _ _ _ hf) hp
  laneStop n s p _ hs hj hc _ hp := eachLane_modLane (h.stop n _ s (hs.imp_right (fun e => e.1)) hj hc) hp
  faultStopped n p _ hs hp := eachLane_modLane (h.faultStopped n _ hs) hp
  endJob n p _ hp := eachLane_modify (endJob_lanes n p) (h.ended n _) hp
  abandonJob n p _ hp := eachLane_modify (abandonJob_lanes n p) (fun hq => by
    rw [abandoned_eq]
    exact h.minor n (jobEnded (p.lanes.get n)) _ false ⟨rfl, rfl, rfl, rfl, rfl, rfl, rfl, rfl, rfl, rfl, rfl⟩
      (h.ended n _ hq)) hp
  carryShrink n f p _ hf hp := eachLane_modLane (h.carryShrink n _ f hf) hp
  carryPacket n m k p _ hr hp := eachLane_modify (carryPacket_lanes n m p k) (fun hq => by
    refine h.minor m { p.lanes.get m with
        carry := (if 64 ≤ (p.lanes.get m).carry.length then (p.lanes.get m).carry.tail else (p.lanes.get m).carry)
          ++ [carryItemOf n p k] } _ false ?_ (h.carried m _ _ hr hq)
    unfold carryRoomed
    split <;> exact ⟨rfl, rfl, rfl, rfl, rfl, rfl, rfl, rfl, rfl, rfl, rfl⟩) hp
  commitSwap n p _ hp := eachLane_modify (commitSwap_lanes n p) (h.swap n _) hp
  endPending n s p _ hp := eachLane_modify (p := p) (n := n) (f := fun l => { l with acquireAt := none, commit := none })
    (by simp [clearPending]) (fun hq => h.timerOff n _ (h.commitOff n _ hq)) hp
  endStart n s p _ _ hp := eachLane_modify (p := p) (n := n) (f := fun l => { l with acquireAt := none }) (by simp)
    (h.timerOff n _) hp
  endCommit n s p _ _ hp := eachLane_modify (p := p) (n := n) (f := fun l => { l with commit := none }) (by simp)
    (h.commitOff n _) hp
  endOther n s p _ _ hp := eachLane_endLaneOp n s hp
  jobSet n job p _ hr hj hpin hk hp := eachLane_modLane (h.jobSet n _ job hr hj hpin hk) hp
  pin n source k p _ hj hp := eachLane_modify (pinOne_lanes n p source k) (fun hq => by
    dsimp only
    split
    · exact h.pin n _ k hj hq
    · exact hq) hp

theorem LaneLaw.keeps : Keeps (fun _ => True) (eachLane Q) :=
  ⟨eachLane_store, eachLane_feeds, h.lanes, out_free eachLane_outs _⟩

theorem LaneLaw.laneCommands : LaneCommands A (fun _ _ => eachLane Q) where
  profile _ _ n v p hA hs hp := eachLane_modLane (h.profile n _ v hA hs) hp
  start _ n op p hA _ _ _ hs hp := by
    have hq : eachLane Q (fillRecord (.lane n) op p) := hp
    exact eachLane_modLane (h.start n _ _ hA hs) hq
  resumed _ _ n p hA hs _ hp := eachLane_modLane (h.resumed n _ hA hs) hp
  shadow _ _ n t first rows p hA hc hp := eachLane_modLane (h.shadow n _ t first rows hA hc) hp
  commitWaits _ n op c p hA _ _ _ hc _ hp :=
    eachLane_modify (p := p) (n := n) (f := fun l => { l with commit := some c }) rfl (h.commitHeld n _ c hA hc) hp
  commitNow _ n op c p hA _ _ _ hc _ hp := eachLane_modify (commitSwap_lanes n _) (h.swap n _)
    (eachLane_modify (p := p) (f := fun l => { l with commit := some c }) rfl (h.commitHeld n _ c hA hc) hp)
  route _ _ n t p hA ht hp := eachLane_modLane (h.route n _ t hA ht) hp
  halted _ _ n p _ _ hj hc hp := by
    have h1 : eachLane Q (leaveRunning n .stopped p) :=
      eachLane_modify (leaveRunning_lanes n p .stopped) (h.stop n _ .stopped (.inr rfl) hj hc) hp
    exact h.keeps.haltStart n h1

theorem LaneLaw.commands : CommandsKeep A (eachLane Q) (fun _ _ => eachLane Q) :=
  ⟨reply_commands_free eachLane_outs, h.laneCommands,
    out_commands_free eachLane_outs,
    fault_commands_free (fun _ _ hp => hp), fun _ _ _ _ hp => hp,
    fun _ _ p hA _ => deviceReset_kept eachLane_store (fun n k _ => eachLane_outs.placeNotice n k)
      (fun n => by simpa [resetPart] using h.reset n p.straps hA),
    fun _ _ _ _ _ _ hp => hp, fun _ _ _ _ _ hp => hp⟩

theorem LaneLaw.upset (u : Upset) (p : Part) (hp : eachLane Q p) : eachLane Q (applyUpset u p) := by
  cases u with
  | storedSample => exact hp
  | slotRecord => exact hp
  | tableRow n t b row => exact eachLane_modLane (h.spoilTable n _ t b row) hp
  | carryItem n i => exact eachLane_modLane (h.spoilItem n _ i) hp

/-- A law of one lane is a law of every step. -/
theorem LaneLaw.law : Law A (eachLane Q) (eachLane Q) (fun _ _ => eachLane Q) :=
  plain_law h.keeps h.commands (fun n ws _ => eachLane_outs.arrive n ws) h.upset (fun _ _ hp => hp) (fun _ _ hp => hp)

end

theorem LaneLaw.kept (h : LaneLaw (fun _ => True) Q) : keptByStep (eachLane Q) :=
  h.law.kept (fun _ => trivial) (fun _ t _ n => by simpa [resetPart] using h.reset n t trivial)

end Builder
end Sys2Proof.Machine.Keeping
end

section
/-! SUPPORT. Idle lanes hold nothing (O8), a law of one lane. -/

namespace Sys2Proof.Machine.IdleLaw

open Keeping

/-- The law of one lane. -/
def laneIdle (_ : Ix) (l : Lane) : Prop :=
  (l.state = .stopped ∨ l.state = .faulted → l.job.inFlight = false ∧ l.carry = [])
    ∧ (l.job.inFlight = false → l.job.pinned = [] ∧ l.job.kept = none)

theorem not_idle_of_running {s : LaneState} (h : isRunning s = true) : ¬ (s = .stopped ∨ s = .faulted) := by
  rintro (rfl | rfl) <;> cases h

theorem not_idle_of_runsJobs {s : LaneState} (h : runsJobs s = true) : ¬ (s = .stopped ∨ s = .faulted) := by
  rintro (rfl | rfl) <;> cases h

theorem minor {n : Ix} {l l' : Lane} {b : Bool} (h : LaneChange b l l') (hq : laneIdle n l) : laneIdle n l' := by
  refine ⟨fun hs => ?_, fun hj => ?_⟩
  · have hst := h.state
    cases b with
    | true => exact absurd hs (not_idle_of_running hst.2)
    | false =>
      rw [h.inFlight, h.carry]
      exact hq.1 (by rwa [← (show l'.state = l.state from hst)])
  · rw [h.pinned, h.kept]
    exact hq.2 (h.inFlight ▸ hj)

/-- A change that leaves the state, the job and the carry queue. -/
theorem same {n : Ix} {l l' : Lane} (hs : l'.state = l.state) (hj : l'.job = l.job) (hc : l'.carry = l.carry)
    (hq : laneIdle n l) : laneIdle n l' := by
  unfold laneIdle
  rwa [hs, hj, hc]

theorem law : LaneLaw (fun _ => True) laneIdle where
  minor _ _ _ _ h hq := minor h hq
  stop _ _ _ _ hj hc hq := ⟨fun _ => ⟨hj, hc⟩, hq.2⟩
  faultStopped _ _ hs hq := ⟨fun _ => hq.1 (.inl hs), hq.2⟩
  ended n l hq := by
    unfold jobEnded
    split
    · exact ⟨fun hs => ⟨rfl, (hq.1 hs).2⟩, fun _ => ⟨rfl, rfl⟩⟩
    · exact hq
  carryShrink _ l f hf hq := ⟨fun hs => ⟨(hq.1 hs).1, by
    have hlen := hf l.carry
    rw [(hq.1 hs).2] at hlen ⊢
    exact List.length_eq_zero_iff.1 (Nat.le_zero.1 hlen)⟩, hq.2⟩
  carried _ _ _ hr hq := ⟨fun hs => absurd hs (not_idle_of_running hr), hq.2⟩
  swap n l hq := by
    unfold swapped
    split
    · refine ⟨fun hs => ⟨(keepRows_inFlight l).trans (hq.1 hs).1, (hq.1 hs).2⟩, fun hj => ?_⟩
      have hj' : l.job.inFlight = false := (keepRows_inFlight l).symm.trans hj
      simpa [keepRows, hj'] using hq.2 hj'
    · exact hq
  timerOff _ _ hq := same rfl rfl rfl hq
  commitOff _ _ hq := same rfl rfl rfl hq
  jobSet _ _ _ hr hj _ _ hq := ⟨fun hs => absurd hs (not_idle_of_runsJobs hr), fun h => by cases hj.symm.trans h⟩
  pin _ _ _ hj hq := ⟨fun hs => (hq.1 hs), fun h => by cases hj.symm.trans h⟩
  spoilTable _ _ _ _ _ hq := same rfl rfl rfl hq
  spoilItem _ _ _ hq := ⟨fun hs => ⟨(hq.1 hs).1, by simp [(hq.1 hs).2]⟩, hq.2⟩
  profile _ _ _ _ _ hq := by
    unfold storeProfile
    split <;> exact same rfl rfl rfl hq
  start _ _ _ _ _ hq := ⟨fun hs => absurd hs (not_idle_of_running rfl), hq.2⟩
  resumed _ _ _ hs hq := ⟨fun _ => hq.1 (.inr hs), hq.2⟩
  shadow _ _ _ _ _ _ _ hq := same rfl rfl rfl hq
  commitHeld _ _ _ _ _ hq := same rfl rfl rfl hq
  route _ _ _ _ _ hq := same rfl rfl rfl hq
  reset _ _ _ := ⟨fun _ => ⟨rfl, rfl⟩, fun _ => ⟨rfl, rfl⟩⟩

/-- Settles O8: a lane leaves the running states with its job ended and its carry queue flushed. -/
theorem idleLanesHoldNothing : Obligations.IdleLanesHoldNothing := law.kept

end Sys2Proof.Machine.IdleLaw
end

section
/-! SUPPORT. Tables keep their CRC (first half of O11): validity and CRC look at the coefficients of the rows, which parity
failures, swaps and checks leave. -/

namespace Sys2Proof.Machine.TablesLaw

open Keeping

/-- The coefficients of a row, without its parity. -/
def rowBits (r : TRow) : BitVec 16 × BitVec 16 × BitVec 16 × BitVec 16 := (r.k0, r.k1, r.k2, r.k3)

/-- Two banks with the same coefficients in every row. -/
def SameRows (a b : List TRow) : Prop := a.map rowBits = b.map rowBits

theorem rowBits_eq {r r' : TRow} (h : rowBits r = rowBits r') :
    r.k0 = r'.k0 ∧ r.k1 = r'.k1 ∧ r.k2 = r'.k2 ∧ r.k3 = r'.k3 := by simpa [rowBits] using h

theorem rowCoefs_of_bits {r r' : TRow} (h : rowBits r = rowBits r') : rowCoefs r = rowCoefs r' := by
  obtain ⟨h0, h1, h2, h3⟩ := rowBits_eq h
  simp [rowCoefs, h0, h1, h2, h3]

theorem rowValid_of_bits {t : Table} {r r' : TRow} (h : rowBits r = rowBits r') (hr : rowValid t r) : rowValid t r' := by
  unfold rowValid coefsInRange at hr ⊢
  rwa [← rowCoefs_of_bits h]

theorem SameRows.rowsCrc {a b : List TRow} (h : SameRows a b) : rowsCrc a = rowsCrc b := by
  have key (rows : List TRow) : Machine.rowsCrc rows = (rows.map rowBits).foldl (fun c r =>
      crcValue 16 r.2.2.2.toNat (crcValue 16 r.2.2.1.toNat (crcValue 16 r.2.1.toNat (crcValue 16 r.1.toNat c))))
      0xFFFF#16 := by
    rw [List.foldl_map]; rfl
  rw [key, key, h]

theorem SameRows.length {a b : List TRow} (h : SameRows a b) : a.length = b.length := by
  simpa using congrArg List.length h

theorem SameRows.rowsValid {t : Table} {a b : List TRow} (h : SameRows a b) (ha : rowsValid t a) : rowsValid t b := by
  refine ⟨h.length ▸ ha.1, fun r hr => ?_⟩
  have hm : rowBits r ∈ a.map rowBits := by rw [h]; exact List.mem_map_of_mem hr
  obtain ⟨r', hr', he⟩ := List.mem_map.1 hm
  exact rowValid_of_bits he (ha.2 r' hr')

theorem SameRows.coefs {a b : List TRow} (h : SameRows a b) : a.map rowCoefs = b.map rowCoefs := by
  have key (rows : List TRow) : rows.map rowCoefs
      = (rows.map rowBits).map (fun r => [r.1.toInt, r.2.1.toInt, r.2.2.1.toInt, r.2.2.2.toInt]) := by
    rw [List.map_map]; rfl
  rw [key, key, h]

theorem spoilRow_same (row : Nat) (rows : List TRow) : SameRows rows (spoilRow row rows) := by
  unfold SameRows spoilRow
  refine List.ext_getElem (by simp) (fun i h1 h2 => ?_)
  simp only [List.getElem_map, List.getElem_modify]
  split <;> rfl

theorem freshParity_same (rows : List TRow) : SameRows rows (rows.map (fun r => { r with parityOk := true })) := by
  rw [SameRows, List.map_map]; rfl

/-! ### One table -/

theorem bankOk_noCommit {t : Table} {b : TableBanks} {c : Option (BitVec 16)} (h : bankOk t b c) : bankOk t b none :=
  ⟨h.1, h.2.1, h.2.2.1, fun _ he => by cases he⟩

theorem bankOk_spoil {t : Table} {b : TableBanks} {c : Option (BitVec 16)} (k : Bank) (row : Nat) (h : bankOk t b c) :
    bankOk t (spoilBank k row b) c := by
  obtain ⟨ha, hs, hcrc, hc⟩ := h
  cases k with
  | active => exact ⟨(spoilRow_same row _).rowsValid ha, hs, hcrc.trans (spoilRow_same row _).rowsCrc, hc⟩
  | shadow =>
    have same := spoilRow_same row b.shadow
    exact ⟨ha, same.length ▸ hs, hcrc, fun d hd =>
      ⟨(hc d hd).1.trans same.rowsCrc, same.rowsValid (hc d hd).2⟩⟩

theorem bankOk_swap {t : Table} {b : TableBanks} {c : Option (BitVec 16)} (h : bankOk t b c) :
    bankOk t (swapTable c b) none := by
  obtain ⟨_, _, _, hc⟩ := id h
  cases c with
  | none => exact h
  | some d =>
    have same := freshParity_same b.shadow
    obtain ⟨hd, hv⟩ := hc d rfl
    exact ⟨same.rowsValid hv, (same.rowsValid hv).1, hd.trans same.rowsCrc, fun _ he => by cases he⟩

theorem writeRows_length (rows : List TRow) : ∀ (first : Nat) (bank : List TRow),
    (writeRows first rows bank).length = bank.length := by
  induction rows with
  | nil => exact fun _ _ => rfl
  | cons r rs ih => exact fun first bank => (ih (first + 1) _).trans (by simp)

theorem bankOk_load {t : Table} {b : TableBanks} (first : Nat) (rows : List TRow) (h : bankOk t b none) :
    bankOk t { b with shadow := writeRows first rows b.shadow } none :=
  ⟨h.1, (writeRows_length rows first _).trans h.2.1, h.2.2.1, fun _ he => by cases he⟩

/-- A bank without a failing row is valid (R161). -/
theorem firstFailure_none {t : Table} {rows : List TRow} : ∀ {i : Nat}, firstFailure t i rows = none →
    ∀ r ∈ rows, r.parityOk = true ∧ rowValid t r := by
  induction rows with
  | nil => exact fun _ _ hr => by cases hr
  | cons r rs ih =>
    intro i hf a ha
    unfold firstFailure at hf
    split at hf
    · cases hf
    · next hrow =>
      rcases List.mem_cons.1 ha with rfl | ha
      · unfold rowFailure at hrow
        split_ifs at hrow with h1 h2 h3
        simp only [Bool.not_eq_true', Bool.not_eq_false, ne_eq, not_not] at h1 h2 h3
        exact ⟨h1, h2, h3⟩
      · exact ih hf a ha

theorem bankOk_held {t : Table} {b : TableBanks} {c : Option (BitVec 16)} {d : Option (BitVec 16)} (h : bankOk t b d)
    (hc : checkTable t c b.shadow = none) : bankOk t b c := by
  refine ⟨h.1, h.2.1, h.2.2.1, fun crc he => ?_⟩
  subst he
  unfold checkTable at hc
  dsimp only at hc
  split at hc
  · cases hc
  · next hf =>
    split_ifs at hc with heq
    exact ⟨heq.symm, h.2.1, fun r hr => (firstFailure_none hf r hr).2⟩

theorem checkTables_none {c : CommitRec} {ts : Tables} (h : checkTables c ts = none) :
    checkTable .tt c.tt ts.tt.shadow = none ∧ checkTable .hc c.hc ts.hc.shadow = none
      ∧ checkTable .vc c.vc ts.vc.shadow = none := by
  unfold checkTables at h
  split at h
  · cases h
  · split at h
    · cases h
    · exact ⟨‹_›, ‹_›, h⟩

/-! ### One lane -/

/-- The three tables of a lane under a commit record. -/
structure BanksOk (ts : Tables) (c : Option CommitRec) : Prop where
  tt : bankOk .tt ts.tt (c.bind CommitRec.tt)
  hc : bankOk .hc ts.hc (c.bind CommitRec.hc)
  vc : bankOk .vc ts.vc (c.bind CommitRec.vc)

/-- Rows that a job keeps are whole banks of valid rows. -/
def keptOk (k : Option ActiveRows) : Prop := ∀ a, k = some a → rowsValid .tt a.tt ∧ rowsValid .hc a.hc ∧ rowsValid .vc a.vc

/-- The law of one lane. -/
structure LaneOk (l : Lane) : Prop where
  banks : BanksOk l.tables l.commit
  kept : keptOk l.job.kept

theorem tablesOk_iff (p : Part) : tablesOk p ↔ eachLane (fun _ => LaneOk) p :=
  forall_congr' fun _ => ⟨fun ⟨a, b, c, d⟩ => ⟨⟨a, b, c⟩, d⟩, fun ⟨⟨a, b, c⟩, d⟩ => ⟨a, b, c, d⟩⟩

theorem BanksOk.noCommit {ts : Tables} {c : Option CommitRec} (h : BanksOk ts c) : BanksOk ts none :=
  ⟨bankOk_noCommit h.tt, bankOk_noCommit h.hc, bankOk_noCommit h.vc⟩

theorem BanksOk.active {ts : Tables} {c : Option CommitRec} (h : BanksOk ts c) : keptOk (some (activeRows ts)) := by
  rintro _ ⟨⟩
  exact ⟨h.tt.1, h.hc.1, h.vc.1⟩

theorem BanksOk.swap {ts : Tables} {c : CommitRec} (h : BanksOk ts (some c)) : BanksOk (swapTables c ts) none :=
  ⟨bankOk_swap h.tt, bankOk_swap h.hc, bankOk_swap h.vc⟩

theorem LaneOk.same {l l' : Lane} (h : LaneOk l) (ht : l'.tables = l.tables) (hc : l'.commit = l.commit)
    (hk : l'.job.kept = l.job.kept) : LaneOk l' := ⟨by rw [ht, hc]; exact h.banks, hk ▸ h.kept⟩

theorem LaneOk.swapped {l : Lane} (h : LaneOk l) : LaneOk (swapped l) := by
  unfold Keeping.swapped
  split
  · next c hc =>
    have hb : BanksOk l.tables (some c) := hc ▸ h.banks
    refine ⟨hb.swap, ?_⟩
    show keptOk (keepRows l).kept
    unfold keepRows
    split
    · exact h.banks.active
    · exact h.kept
  · exact h

theorem LaneOk.modTable {l : Lane} (h : LaneOk l) (t : Table) {f : TableBanks → TableBanks}
    (hf : ∀ u b c, (l.commit = none → c = none) → bankOk u b c → bankOk u (f b) c) : LaneOk { l with tables := modTable t f l.tables } := by
  have key (g : CommitRec → Option (BitVec 16)) : l.commit = none → l.commit.bind g = none := fun e => by rw [e]; rfl
  obtain ⟨⟨h1, h2, h3⟩, hk⟩ := h
  cases t with
  | tt => exact ⟨⟨hf _ _ _ (key _) h1, h2, h3⟩, hk⟩
  | hc => exact ⟨⟨h1, hf _ _ _ (key _) h2, h3⟩, hk⟩
  | vc => exact ⟨⟨h1, h2, hf _ _ _ (key _) h3⟩, hk⟩

theorem law : LaneLaw (fun _ => True) (fun _ => LaneOk) where
  minor _ _ _ _ hm h := h.same hm.tables hm.commit hm.kept
  stop _ _ _ _ _ _ h := h.same rfl rfl rfl
  faultStopped _ _ _ h := h.same rfl rfl rfl
  ended _ l h := by
    unfold jobEnded
    split
    · exact ⟨h.banks, fun _ he => by cases he⟩
    · exact h
  carryShrink _ _ _ _ h := h.same rfl rfl rfl
  carried _ _ _ _ h := h.same rfl rfl rfl
  swap _ _ h := h.swapped
  timerOff _ _ h := h.same rfl rfl rfl
  commitOff _ _ h := ⟨h.banks.noCommit, h.kept⟩
  jobSet _ _ _ _ _ _ hk h := ⟨h.banks, fun _ he => by cases hk.symm.trans he⟩
  pin _ _ _ _ h := h.same rfl rfl rfl
  spoilTable _ _ t b row h := h.modTable t (fun _ _ _ _ hb => bankOk_spoil b row hb)
  spoilItem _ _ _ h := h.same rfl rfl rfl
  profile _ _ _ _ _ h := by
    unfold storeProfile
    split <;> exact h.same rfl rfl rfl
  start _ _ _ _ _ h := h.same rfl rfl rfl
  resumed _ _ _ _ h := h.same rfl rfl rfl
  shadow _ _ t first rows _ hc h := h.modTable t (fun u b c he hb => by
    obtain rfl := he hc
    exact bankOk_load first rows hb)
  commitHeld _ _ c _ hc h := by
    obtain ⟨h1, h2, h3⟩ := checkTables_none hc
    exact ⟨⟨bankOk_held h.banks.tt h1, bankOk_held h.banks.hc h2, bankOk_held h.banks.vc h3⟩, h.kept⟩
  route _ _ _ _ _ h := h.same rfl rfl rfl
  reset _ _ _ := ⟨⟨resetTable_bankOk .tt, resetTable_bankOk .hc, resetTable_bankOk .vc⟩, fun _ he => by cases he⟩

/-- Every step keeps the banks whole, valid and with their CRC. -/
theorem tablesOk_kept : keptByStep (fun p => tablesOk p) := by
  intro s t hs he
  exact (tablesOk_iff _).2 (law.kept s t ((tablesOk_iff _).1 hs) he)

end Sys2Proof.Machine.TablesLaw
end

section
/-! SUPPORT. Laws of the outputs and of the link receivers, one by one. -/

namespace Sys2Proof.Machine.Keeping

open Frames

/-! ### A law of one output -/

/-- Every output satisfies its predicate. -/
def eachOut (Q : Ix → OutUnit → Prop) (p : Part) : Prop := ∀ n, Q n (p.outs.get n)

/-- A predicate on each output that survives the changes that operations make of an output's record. -/
structure OutLaw (A : Nat → Prop) (Q : Ix → OutUnit → Prop) : Prop where
  minor : ∀ n o o', OutMinor o o' → Q n o → Q n o'
  replies : ∀ n o rs k, Q n o → Q n { o with replies := rs, reserved := k }
  relock : ∀ n o b, Q n o → Q n { o with relockPending := b }
  placed : ∀ n (h : Handover) p, h.carried.length ≤ 7 → eachOut Q p → eachOut Q (placePackets n h p)
  setOutput : ∀ n o sel off pol, A 16 → Q n o → Q n (storeOutput sel off pol o)
  degraded : ∀ p, A 4 → p.outs = Four.all (resetOut p.straps) → eachOut Q (degradeAtReset p)

section Out
variable {A : Nat → Prop} {Q : Ix → OutUnit → Prop} {p : Part}

theorem eachOut_modOut {n : Ix} {f : OutUnit → OutUnit} (hf : Q n (p.outs.get n) → Q n (f (p.outs.get n)))
    (hp : eachOut Q p) : eachOut Q (modOut n f p) := by
  intro m
  rw [modOut_outs, Four.get_modify]
  split
  · next hm => subst hm; exact hf (hp m)
  · exact hp m

variable (h : OutLaw A Q)
include h

theorem OutLaw.latch (c : Cond) (hp : eachOut Q p) : eachOut Q (latchSet c p) := by
  unfold latchSet
  split
  · exact hp
  · refine forAll_kept (P := eachOut Q) (f := addNotice c) (fun m q hq => ?_) allIx hp
    unfold addNotice
    split
    · exact eachOut_modOut (h.minor _ _ _ ⟨rfl, rfl, rfl, rfl, rfl, rfl⟩) hq
    · exact hq

theorem OutLaw.store : StoreKeeps (eachOut Q) := store_free {
  store := fun _ _ _ hp => hp
  black := fun _ _ hp => hp
  line := fun _ _ _ _ _ hp => hp
  report := report_kept (fun _ _ hp => hp)
  due := fun _ hp => hp
  latch := fun c _ hp => h.latch c hp }

theorem OutLaw.feeds : FeedKeeps (fun _ => True) (eachOut Q) :=
  feed_free { h.store with feed := fun _ _ _ hp => hp } (fun _ _ _ _ _ hp => hp)

theorem OutLaw.reply (n : Ix) (r : Reply) (hp : eachOut Q p) : eachOut Q (postReply n r p) :=
  eachOut_modOut (h.replies _ _ _ _) hp

theorem OutLaw.endLaneOp (n : Ix) (s : DoneStatus) (hp : eachOut Q p) : eachOut Q (endLaneOp n s p) :=
  endLaneOp_kept (fun n r _ => h.reply n r) (fun _ _ hp => hp) n s p hp

theorem OutLaw.endOutOp (n : Ix) (s : DoneStatus) (hp : eachOut Q p) : eachOut Q (endOutOp n s p) :=
  endOutOp_kept (fun n r _ => h.reply n r) (fun _ _ hp => hp) n s p hp

theorem OutLaw.lanes : LaneFree (eachOut Q) :=
  { h.store with lane := fun _ _ _ hp => hp, endLaneOp := fun n s _ => h.endLaneOp n s }

theorem OutLaw.keeps : Keeps (fun _ => True) (eachOut Q) :=
  ⟨h.store, h.feeds, lane_free h.lanes _,
    { out := fun n _ _ ho hp => eachOut_modOut (h.minor n _ _ ho) hp
      placePackets := fun n o p _ hc hp => h.placed n o p hc hp
      endRelock := fun n s _ hp => h.endOutOp n s (eachOut_modOut (h.relock _ _ _) hp)
      setRef := fun r _ _ _ hp => by cases r <;> exact hp }⟩

theorem OutLaw.arrive (n : Ix) (ws : List Byte) (hp : eachOut Q p) : eachOut Q (arrive n ws p) := by
  unfold Machine.arrive
  split
  · exact hp
  · split <;> exact hp

theorem OutLaw.commands : CommandsKeep A (eachOut Q) (fun _ _ => eachOut Q) :=
  ⟨{ opened := fun _ _ _ _ hp => eachOut_modOut (h.replies _ _ _ _) hp
     reply := fun _ _ _ _ hp => h.reply _ _ hp
     unreserve := fun _ _ _ hp => eachOut_modOut (h.replies _ _ _ _) hp
     mgmtCtr := fun _ _ _ _ hp => hp },
    lane_commands_free h.lanes h.feeds (fun _ _ _ hp => hp),
    { setOutput := fun _ _ _ _ _ _ _ hA _ hp => eachOut_modOut (h.setOutput _ _ _ _ _ hA) hp
      relockNow := fun _ n op p _ _ _ _ hp => h.endOutOp n _ (p := fillRecord (.output n) op p) hp
      relockWaits := fun _ n op p _ _ _ _ hp => eachOut_modOut (p := fillRecord (.output n) op p) (h.relock _ _ _) hp },
    fault_commands_free (fun _ _ hp => hp), fun _ _ _ _ hp => hp,
    fun _ _ _ hA _ => h.degraded _ hA rfl,
    fun _ _ _ _ _ _ hp => hp, fun _ _ _ _ _ hp => hp⟩

/-- A law of one output is a law of every step. -/
theorem OutLaw.law : Law A (eachOut Q) (eachOut Q) (fun _ _ => eachOut Q) :=
  plain_law h.keeps h.commands (fun n ws _ => h.arrive n ws) (fun u _ hp => by cases u <;> exact hp) (fun _ _ hp => hp) (fun _ _ hp => hp)

end Out

/-! ### A law of one link receiver -/

/-- Every link receiver satisfies its predicate. -/
def eachLink (Q : Ix → LinkRx → Prop) (p : Part) : Prop := ∀ n, Q n (p.links.get n)

/-- A predicate on each link receiver that survives the changes that operations make of its record. -/
structure LinkLaw (A : Nat → Prop) (Q : Ix → LinkRx → Prop) : Prop where
  change : ∀ n l l', LinkChange l l' → Q n l → Q n l'
  settings : ∀ n l v, A 5 → Q n l → Q n { l with settings := v }
  reset : ∀ n a, A 4 → Q n (resetLink a)

section Link
variable {A : Nat → Prop} {Q : Ix → LinkRx → Prop} {p : Part}

theorem eachLink_modLink {n : Ix} {f : LinkRx → LinkRx} (hf : Q n (p.links.get n) → Q n (f (p.links.get n)))
    (hp : eachLink Q p) : eachLink Q (modLink n f p) := by
  intro m
  rw [modLink_links, Four.get_modify]
  split
  · next hm => subst hm; exact hf (hp m)
  · exact hp m

theorem eachLink_store : StoreKeeps (eachLink Q) := store_blind storeBlind_links (fun ls => ∀ n, Q n (ls.get n))

theorem eachLink_outs : OutFree (eachLink Q) where
  out _ _ _ hp := hp
  mgmt _ _ hp := hp
  ref r _ _ hp := by cases r <;> exact hp

theorem eachLink_lanes : LaneFree (eachLink Q) :=
  { eachLink_store with lane := fun _ _ _ hp => hp, endLaneOp := fun n s _ => eachLink_outs.endLaneOp n s }

variable (h : LinkLaw A Q)
include h

theorem LinkLaw.feeds : FeedKeeps (fun _ => True) (eachLink Q) :=
  feed_free { eachLink_store with feed := fun _ _ _ hp => hp }
    (fun n _ _ _ hl hp => eachLink_modLink (h.change n _ _ hl) hp)

theorem LinkLaw.keeps : Keeps (fun _ => True) (eachLink Q) :=
  ⟨eachLink_store, h.feeds, lane_free eachLink_lanes _, out_free eachLink_outs _⟩

theorem LinkLaw.commands : CommandsKeep A (eachLink Q) (fun _ _ => eachLink Q) :=
  ⟨reply_commands_free eachLink_outs,
    lane_commands_free eachLink_lanes h.feeds (fun n op _ => fillRecord_kept eachLink_outs.mgmt (.lane n) op),
    out_commands_free eachLink_outs, fault_commands_free (fun _ _ hp => hp), fun _ _ _ _ hp => hp,
    fun _ _ p hA _ => deviceReset_kept eachLink_store (fun n k _ => eachLink_outs.placeNotice n k)
      (fun n => by simpa [resetPart] using h.reset n _ hA),
    fun _ _ n v _ hA hp => eachLink_modLink (h.settings n _ v hA) hp, fun _ _ _ _ _ hp => hp⟩

/-- A law of one link receiver is a law of every step. -/
theorem LinkLaw.law : Law A (eachLink Q) (eachLink Q) (fun _ _ => eachLink Q) :=
  plain_law h.keeps h.commands (fun n ws _ => eachLink_outs.arrive n ws) (fun u _ hp => by cases u <;> exact hp) (fun _ _ hp => hp) (fun _ _ hp => hp)

end Link
end Sys2Proof.Machine.Keeping
end

section
/-! SUPPORT. The bounds of lists and counts (O6): one law for each block. -/

namespace Sys2Proof.Machine.BoundsLaw

open Keeping Frames HistoryLaw

/-! ### Histories -/

/-- No history holds more than 8 entries. -/
def historiesFit (p : Part) : Prop := ∀ n, (p.feeds.get n).history.length ≤ 8

section Histories
variable {p : Part}

theorem historiesFit_of_feeds {q : Part} (h : q.feeds = p.feeds) (hp : historiesFit p) : historiesFit q := by
  unfold historiesFit
  rwa [h]

theorem historiesFit_modFeed {n : Ix} {f : Feed → Feed}
    (hf : (p.feeds.get n).history.length ≤ 8 → (f (p.feeds.get n)).history.length ≤ 8) (hp : historiesFit p) :
    historiesFit (modFeed n f p) := by
  intro m
  rw [modFeed_feeds, Four.get_modify]
  split
  · next hm => subst hm; exact hf (hp m)
  · exact hp m

theorem histories_store : StoreKeeps historiesFit :=
  store_blind storeBlind_feeds (fun fs => ∀ n, (fs.get n).history.length ≤ 8)

theorem mapNewest_length (g : Entry → Entry) (h : List Entry) : (mapNewest g h).length = h.length := by
  simpa using congrArg List.length (mapNewest_map (g := g) (k := fun _ => ()) (fun _ => rfl) h)

theorem historiesFit_push (n : Ix) (e : Entry) {q : Part} (hq : q.feeds = (makeRoom n p).feeds) (hp : historiesFit p) :
    historiesFit (pushEntry n e q) := by
  have hroom : historiesFit q := historiesFit_of_feeds (hq.trans (makeRoom_feeds n p)) (historiesFit_modFeed (n := n)
    (f := roomMade) (fun hl => (roomMade_length hl).trans (by decide)) hp)
  refine historiesFit_modFeed (fun _ => ?_) hroom
  have hl : (q.feeds.get n).history.length ≤ 7 := by
    rw [hq, makeRoom_feeds, Four.get_modify_same]
    exact roomMade_length (hp n)
  simp only [List.length_append, List.length_singleton]
  omega

theorem historiesFit_bump (n : Ix) (f : FeedCounters → FeedCounters) (hp : historiesFit p) : historiesFit (bumpFeed n f p) :=
  historiesFit_modFeed id hp

theorem historiesFit_appendHoles (n : Ix) (b : Bool) (period : Nat) (x : Int) (m : Nat) (hp : historiesFit p) :
    historiesFit (appendHoles n b period x m p) := by
  induction m with
  | zero => exact hp
  | succ m ih => exact historiesFit_bump n _ (histories_store.report _ _ _ _ (historiesFit_push n _ rfl ih))

theorem historiesFit_appendPicture (n : Ix) (stamp a : Int) (par : Option Parity) (hp : historiesFit p) :
    historiesFit (appendPicture n stamp a par p) := by
  unfold appendPicture
  dsimp only
  refine historiesFit_bump n _ ?_
  split
  · exact historiesFit_push n _ (grant_feeds n _) hp
  · exact historiesFit_bump n _ (histories_store.report _ _ _ _ (historiesFit_push n _ (grant_feeds n _) hp))

theorem historiesFit_abandonNewest (n : Ix) (b : Bool) (hp : historiesFit p) : historiesFit (abandonNewest n b p) := by
  unfold abandonNewest
  split
  · next e _ =>
    split
    · have h1 : historiesFit (returnEntry n e (modNewest n (toHole .abandoned) p)) :=
        historiesFit_of_feeds (returnEntry_feeds ..)
          (historiesFit_modFeed (fun h => (mapNewest_length _ _).trans_le h) hp)
      have h2 := historiesFit_bump n (fun c => { c with holesAbandoned := bump c.holesAbandoned }) h1
      dsimp only
      split
      · exact histories_store.report _ _ _ _ h2
      · exact h2
    · exact hp
  · exact hp

theorem historiesFit_pictureStart (n : Ix) (code : Std) (a : Int) (par : Parity) (hp : historiesFit p) :
    historiesFit (pictureStart n code a par p) := by
  have h1 := historiesFit_abandonNewest n true hp
  unfold pictureStart
  dsimp only
  split
  · exact historiesFit_appendPicture n _ _ _ (historiesFit_modFeed id h1)
  · exact historiesFit_appendPicture n _ _ _ (historiesFit_appendHoles n _ _ _ _ (historiesFit_modFeed id h1))
  · refine historiesFit_appendPicture n _ _ _ (historiesFit_bump n _ (histories_store.report _ _ _ _
      (histories_store.latch _ _ ?_)))
    exact historiesFit_modFeed id h1

theorem histories_feeds : FeedKeeps (fun _ => True) historiesFit where
  link _ _ _ _ _ hp := hp
  feed _ _ _ _ h hp := historiesFit_modFeed (fun hl => by rwa [h.history]) hp
  newest _ _ _ _ _ hp := historiesFit_modFeed (fun h => (mapNewest_length _ _).trans_le h) hp
  pictureStart n code a par _ _ hp := historiesFit_pictureStart n code a par hp
  flush n p _ hp := historiesFit_of_feeds (flushFeed_feeds n p)
    (historiesFit_modFeed (n := n) (f := fun f => { f with
      history := [], lastStamp := none, dPrev := 0, segment := (f.segment + 1) % 65536
      ctr := { f.ctr with flushes := bump f.ctr.flushes } }) (fun _ => Nat.zero_le _) hp)

theorem histories_outs : OutFree historiesFit where
  out _ _ _ hp := hp
  mgmt _ _ hp := hp
  ref r _ _ hp := by cases r <;> exact hp

theorem histories_lanes : LaneFree historiesFit :=
  { histories_store with lane := fun _ _ _ hp => hp, endLaneOp := fun n s _ => histories_outs.endLaneOp n s }

theorem histories_law : Law (fun _ => True) historiesFit historiesFit (fun _ _ => historiesFit) :=
  plain_law ⟨histories_store, histories_feeds, lane_free histories_lanes _, out_free histories_outs _⟩
    ⟨reply_commands_free histories_outs,
      lane_commands_free histories_lanes histories_feeds (fun n op _ => fillRecord_kept histories_outs.mgmt (.lane n) op),
      out_commands_free histories_outs, fault_commands_free (fun _ _ hp => hp), fun _ _ _ _ hp => hp,
      fun _ _ _ _ _ => deviceReset_kept histories_store (fun n k _ => histories_outs.placeNotice n k)
        (fun n => by simp [resetPart, resetFeed]),
      fun _ _ _ _ _ _ hp => hp, fun _ _ _ _ _ hp => hp⟩
    (fun n ws _ => histories_outs.arrive n ws) (fun u _ hp => by cases u <;> exact hp) (fun _ _ hp => hp) (fun _ _ hp => hp)

end Histories

/-! ### Carry queues and routing tables -/

theorem lanes_law : LaneLaw (fun _ => True) (fun _ l => l.carry.length ≤ 64 ∧ l.route.entries.length ≤ 32) where
  minor _ _ _ _ h hq := by rwa [h.carry, h.route]
  stop _ _ _ _ _ _ hq := hq
  faultStopped _ _ _ hq := hq
  ended _ l hq := by unfold jobEnded; split <;> exact hq
  carryShrink _ l _ hf hq := ⟨(hf l.carry).trans hq.1, hq.2⟩
  carried _ l _ _ hq := by
    refine ⟨?_, hq.2⟩
    simp only [List.length_append, List.length_singleton]
    split
    · simp only [List.length_tail]; omega
    · omega
  swap _ l hq := by unfold swapped; split <;> exact hq
  timerOff _ _ hq := hq
  commitOff _ _ hq := hq
  jobSet _ _ _ _ _ _ _ hq := hq
  pin _ _ _ _ hq := hq
  spoilTable _ _ _ _ _ hq := hq
  spoilItem _ _ _ hq := by simpa using hq
  profile _ _ _ _ _ hq := by unfold storeProfile; split <;> exact hq
  start _ _ _ _ _ hq := hq
  resumed _ _ _ _ hq := hq
  shadow _ _ _ _ _ _ _ hq := hq
  commitHeld _ _ _ _ _ hq := hq
  route _ _ _ _ ht hq := ⟨hq.1, ht⟩
  reset _ _ _ := ⟨Nat.zero_le _, Nat.zero_le _⟩

/-! ### Command queues and lost counts -/

/-- No command queue holds more than 8 blocks, and no lost count is above 255. -/
def queuesFit (m : Mgmt) : Prop := ∀ n, (m.queues.get n).length ≤ 8 ∧ m.lost.get n ≤ 255

section Queues
variable {p : Part}

theorem queues_store : StoreKeeps (fun p => queuesFit p.mgmt) := store_blind storeBlind_mgmt queuesFit

theorem queues_lanes : LaneFree (fun p => queuesFit p.mgmt) :=
  { queues_store with
    lane := fun _ _ _ hp => hp
    endLaneOp := fun n s p hp => by rw [endLaneOp_mgmt]; exact hp }

theorem queuesFit_endOutOp (n : Ix) (s : DoneStatus) (hp : queuesFit p.mgmt) : queuesFit (endOutOp n s p).mgmt := by
  rw [endOutOp_mgmt]; exact hp

theorem queuesFit_placeReply (n : Ix) (hp : queuesFit p.mgmt) : queuesFit (placeReply n p).mgmt := by
  unfold placeReply
  split
  · exact hp
  · intro m
    refine ⟨(hp m).1, ?_⟩
    simp only [bumpOut_eq, modOut_mgmt, modMgmt_mgmt, Four.get_set]
    split
    · exact Nat.zero_le _
    · exact (hp m).2

theorem placeNotice_mgmt (n : Ix) (k : Nat) (p : Part) : (placeNotice n k p).mgmt = p.mgmt := by
  unfold placeNotice
  dsimp only
  split <;> rfl

theorem queuesFit_lost {m : Mgmt} (n : Ix) (hp : queuesFit m) :
    queuesFit { m with lost := m.lost.modify n (saturate 255) } := by
  intro i
  refine ⟨(hp i).1, ?_⟩
  simp only [Four.get_modify]
  split
  · unfold saturate; split <;> omega
  · exact (hp i).2

theorem queuesFit_arrive (n : Ix) (ws : List Byte) (hp : queuesFit p.mgmt) : queuesFit (arrive n ws p).mgmt := by
  unfold arrive
  split
  · exact queuesFit_lost n hp
  · split
    · exact queuesFit_lost n hp
    · next hfull =>
      intro i
      refine ⟨?_, (hp i).2⟩
      simp only [modMgmt_mgmt, Four.get_modify]
      split
      · next hi =>
        subst hi
        simp only [Config.commandMax] at hfull
        simp only [List.length_append, List.length_singleton]
        omega
      · exact (hp i).1

theorem queues_outs : OutKeeps (fun _ => True) (fun p => queuesFit p.mgmt) where
  out _ _ _ _ hp := hp
  placePackets n h p _ _ hp := by
    unfold placePackets
    dsimp only
    rw [modOut_mgmt, placeNotice_mgmt]
    exact queuesFit_placeReply n (queuesFit_placeReply n hp)
  endRelock n s p hp := queuesFit_endOutOp n s hp
  setRef r _ _ _ hp := by cases r <;> exact hp

theorem queues_feeds : FeedKeeps (fun _ => True) (fun p => queuesFit p.mgmt) :=
  feed_free { queues_store with feed := fun _ _ _ hp => hp } (fun _ _ _ _ _ hp => hp)

theorem queues_law : Law (fun _ => True) (fun p => queuesFit p.mgmt) (fun p => queuesFit p.mgmt)
    (fun _ _ p => queuesFit p.mgmt) :=
  plain_law ⟨queues_store, queues_feeds, lane_free queues_lanes _, queues_outs⟩
    ⟨{ opened := fun _ l p _ hp i => by
         refine ⟨?_, (hp i).2⟩
         simp only [openTake, reservePlaces, modOut_mgmt, modMgmt_mgmt, Four.get_modify]
         split
         · exact List.length_drop.trans_le ((Nat.sub_le ..).trans (hp i).1)
         · exact (hp i).1
       reply := fun _ _ _ _ hp => hp
       unreserve := fun _ _ _ hp => hp
       mgmtCtr := fun _ _ _ _ hp => hp },
      lane_commands_free queues_lanes queues_feeds (fun _ _ _ hp => hp),
      { setOutput := fun _ _ _ _ _ _ _ _ _ hp => hp
        relockNow := fun _ _ _ _ _ _ _ _ hp => queuesFit_endOutOp _ _ hp
        relockWaits := fun _ _ _ _ _ _ _ _ hp => hp },
      fault_commands_free (fun _ _ hp => hp), fun _ _ _ _ hp => hp,
      fun _ _ _ _ _ => deviceReset_kept queues_store (fun n k p hp => by rwa [placeNotice_mgmt])
        (fun n => by simp [resetPart, resetMgmt]),
      fun _ _ _ _ _ _ hp => hp, fun _ _ _ _ _ hp => hp⟩
    (fun n ws _ => queuesFit_arrive n ws) (fun u _ hp => by cases u <;> exact hp) (fun _ _ hp => hp) (fun _ _ hp => hp)

end Queues

/-! ### Runs of missed markers -/

theorem links_law : LinkLaw (fun _ => True) (fun _ l => runOk l) where
  change _ _ _ h hq := h.run hq
  settings _ _ _ _ hq := hq
  reset _ _ _ := ⟨Nat.zero_le _, fun _ => Nat.zero_le _⟩

/-! ### Packets of a picture -/

section Packets
variable (n m : Ix) (p : Part)

/-- The number of packets of the picture of an output, and of the replies that wait. -/
def packetCount : Nat := (p.outs.get n).packets.length

theorem placeReply_counts :
    packetCount n (placeReply n p) = packetCount n p + min 1 (p.outs.get n).replies.length
      ∧ ((placeReply n p).outs.get n).replies.length = (p.outs.get n).replies.length - 1 := by
  unfold placeReply packetCount
  split
  · next h => simp [h]
  · next r rest h => simp [h]

theorem placeNotice_count (k : Nat) :
    packetCount m (placeNotice n k p) ≤ packetCount m p + (if m = n ∧ k < 2 then 1 else 0) := by
  unfold placeNotice packetCount
  dsimp only
  split
  · next h =>
    simp only [bumpOut_eq, modOut_outs, Four.get_modify]
    by_cases hm : m = n
    · simp [hm, show k < 2 from h.1]
    · simp [hm]
  · omega

theorem placePackets_count (h : Handover) (hc : h.carried.length ≤ 7) : packetCount n (placePackets n h p) ≤ 10 := by
  have htc : h.timecode.toList.length ≤ 1 := by cases h.timecode <;> simp
  set q := modOut n (fun o => { o with packets := [] }) p with hq
  have hq0 : packetCount n q = 0 := by simp [packetCount, hq]
  have hqr : (q.outs.get n).replies = (p.outs.get n).replies := by simp [hq]
  obtain ⟨hr1, hl1⟩ := placeReply_counts n q
  obtain ⟨hr2, hl2⟩ := placeReply_counts n (placeReply n q)
  have hn := placeNotice_count n n (placeReply n (placeReply n q)) (min Config.repliesPerPicture (p.outs.get n).replies.length)
  have hlast : packetCount n (placePackets n h p) = packetCount n (placeNotice n
      (min Config.repliesPerPicture (p.outs.get n).replies.length) (placeReply n (placeReply n q)))
        + (h.timecode.toList.length + h.carried.length) := by
    simp [placePackets, packetCount, hq]
  rw [hqr] at hr1 hl1
  simp only [Config.repliesPerPicture, true_and] at hn hlast
  split at hn <;> omega

theorem placePackets_other (h : Handover) (hm : m ≠ n) : packetCount m (placePackets n h p) = packetCount m p := by
  have hr (q : Part) : packetCount m (placeReply n q) = packetCount m q := by
    unfold placeReply packetCount
    split <;> simp [Four.get_modify_other _ _ hm]
  have hn (k : Nat) (q : Part) : packetCount m (placeNotice n k q) = packetCount m q := by
    unfold placeNotice packetCount
    dsimp only
    split <;> simp [Four.get_modify_other _ _ hm]
  have ho (f : OutUnit → OutUnit) (q : Part) : packetCount m (modOut n f q) = packetCount m q := by
    simp [packetCount, Four.get_modify_other _ _ hm]
  unfold placePackets
  dsimp only
  rw [ho, hn, hr, hr, ho]

theorem packetCount_latchSet (c : Cond) : packetCount m (latchSet c p) = packetCount m p := by simp [packetCount]

/-- The pool degraded at a reset: one notice at the most in each output's first picture (R45, R56). -/
theorem degradeAtReset_count (h : p.outs = Four.all (resetOut p.straps)) : packetCount m (degradeAtReset p) ≤ 10 := by
  have h0 : packetCount m (poolDegrade p) = 0 := by
    rw [packetCount, poolDegrade, (report_frame _ _ _ _).2.2.2.2.2.2.1, ← packetCount, packetCount_latchSet, packetCount, h,
      Four.get_all]
    rfl
  unfold degradeAtReset
  split
  · have e (q : Part) : forEach (fun n => placeNotice n 0) q
        = placeNotice 3 0 (placeNotice 2 0 (placeNotice 1 0 (placeNotice 0 0 q))) := rfl
    rw [e]
    have key (n : Ix) (q : Part) : packetCount m (placeNotice n 0 q) ≤ packetCount m q + 1 :=
      (placeNotice_count n m q 0).trans (by split <;> omega)
    have h1 := key 0 (poolDegrade p)
    have h2 := key 1 (placeNotice 0 0 (poolDegrade p))
    have h3 := key 2 (placeNotice 1 0 (placeNotice 0 0 (poolDegrade p)))
    have h4 := key 3 (placeNotice 2 0 (placeNotice 1 0 (placeNotice 0 0 (poolDegrade p))))
    omega
  · rw [packetCount, h, Four.get_all]
    exact Nat.zero_le _

end Packets

theorem outs_law : OutLaw (fun _ => True) (fun _ o => o.packets.length ≤ 10) where
  minor _ _ _ h hq := by rwa [h.packets]
  replies _ _ _ _ hq := hq
  relock _ _ _ hq := hq
  placed n h p hc hp m := by
    by_cases hm : m = n
    · subst hm; exact placePackets_count m p h hc
    · exact (placePackets_other n m p h hm).trans_le (hp m)
  setOutput _ _ _ _ _ _ hq := hq
  degraded p _ h m := degradeAtReset_count m p h

/-- Settles O6: each bound is a law of one block. -/
theorem boundsStay : Obligations.BoundsStay := by
  intro s t hs he
  obtain ⟨hh, hc, hq, hl, hr, hk, ht⟩ := hs
  have all : ∀ c : Nat, (fun _ => True) c := fun _ => trivial
  have hh' := histories_law.kept all (fun _ _ _ n => by simp [resetPart, resetFeed]) s t hh he
  have hlanes := lanes_law.kept s t (fun n => ⟨hc n, ht n⟩) he
  have hq' := queues_law.kept all (fun _ _ _ n => by simp [resetPart, resetMgmt]) s t (fun n => ⟨hq n, hl n⟩) he
  have hr' := links_law.law.kept all (fun _ _ _ n => by
    simpa [resetPart] using links_law.reset n _ trivial) s t hr he
  have hk' := outs_law.law.kept all (fun _ _ _ n => by simp [resetPart, resetOut]) s t hk he
  exact ⟨hh', fun n => (hlanes n).1, fun n => (hq' n).1, fun n => (hq' n).2, hr', hk', fun n => (hlanes n).2⟩

end Sys2Proof.Machine.BoundsLaw
end

section
/-! SUPPORT. The pending-operation records and what mirrors them: a lane's timer and commit record (R174), an output's
RELOCK pending. -/

namespace Sys2Proof.Machine.RecordsLaw

open Keeping Frames

/-! ### The lanes' records -/

/-- A lane's own records mirror the operation pending on it, and none is pending on an idle lane. -/
structure Mirrors (op : Option PendingOp) (l : Lane) : Prop where
  timer : l.acquireAt.isSome = true ↔ op.map PendingOp.op = some .start
  commit : l.commit.isSome = true ↔ op.map PendingOp.op = some .commit
  noRelock : op.map PendingOp.op ≠ some .relock
  idle : l.state = .stopped ∨ l.state = .faulted → op = none

/-- Every lane mirrors its record. -/
def lanesMirror (p : Part) : Prop := ∀ n, Mirrors (p.mgmt.laneOps.get n) (p.lanes.get n)

/-- "RELOCK pending" mirrors the record of every output. -/
def relockMirrors (p : Part) : Prop :=
  ∀ n, (p.outs.get n).relockPending = true ↔ (p.mgmt.outOps.get n).isSome = true

theorem recordsOk_iff (p : Part) : recordsOk p ↔ lanesMirror p ∧ relockMirrors p :=
  ⟨fun h => ⟨fun n => ⟨(h n).1, (h n).2.1, (h n).2.2.1, (h n).2.2.2.1⟩, fun n => (h n).2.2.2.2⟩,
    fun ⟨h, hr⟩ n => ⟨(h n).timer, (h n).commit, (h n).noRelock, (h n).idle, hr n⟩⟩

section Mirror
variable {p q : Part} {op : Option PendingOp} {l l' : Lane}

theorem Mirrors.same (h : Mirrors op l) (ha : l'.acquireAt = l.acquireAt) (hc : l'.commit = l.commit)
    (hs : l'.state = .stopped ∨ l'.state = .faulted → l.state = .stopped ∨ l.state = .faulted) : Mirrors op l' :=
  ⟨ha ▸ h.timer, hc ▸ h.commit, h.noRelock, fun hi => h.idle (hs hi)⟩

/-- A lane without records, and none pending. -/
theorem Mirrors.none (ha : l.acquireAt = none) (hc : l.commit = none) : Mirrors none l :=
  ⟨by simp [ha], by simp [hc], by simp, fun _ => rfl⟩

theorem Mirrors.noTimer (h : Mirrors op l) (hk : op.map PendingOp.op ≠ some .start) : l.acquireAt = .none := by
  have := h.timer.not.2 hk
  simpa using this

theorem Mirrors.noCommit (h : Mirrors op l) (hk : op.map PendingOp.op ≠ some .commit) : l.commit = .none := by
  have := h.commit.not.2 hk
  simpa using this

theorem Mirrors.change {b : Bool} (h : Mirrors op l) (hm : LaneChange b l l') : Mirrors op l' := by
  refine h.same hm.acquireAt hm.commit (fun hi => ?_)
  have hs := hm.state
  cases b with
  | true => exact absurd hi (IdleLaw.not_idle_of_running hs.2)
  | false => rwa [← (show l'.state = l.state from hs)]

/-- An operation that ends leaves no record: its own part of the lane is cleared, the other was empty. -/
theorem Mirrors.ended (h : Mirrors op l) (ha : l'.acquireAt = .none ∨ (l'.acquireAt = l.acquireAt ∧ op.map PendingOp.op ≠ some .start))
    (hc : l'.commit = .none ∨ (l'.commit = l.commit ∧ op.map PendingOp.op ≠ some .commit)) : Mirrors .none l' := by
  refine .none ?_ ?_
  · rcases ha with ha | ⟨ha, hk⟩
    · exact ha
    · exact ha.trans (h.noTimer hk)
  · rcases hc with hc | ⟨hc, hk⟩
    · exact hc
    · exact hc.trans (h.noCommit hk)

/-- Without a START pending, and without a commit record where a COMMIT is, none is pending. -/
theorem Mirrors.done (h : Mirrors op l) (hstart : op.map PendingOp.op ≠ some .start)
    (hcommit : op.map PendingOp.op = some .commit → l.commit = .none) : op = .none := by
  have hn : op.map PendingOp.op ≠ some .commit := fun hk => by
    have := h.commit.2 hk
    simp [hcommit hk] at this
  have hr := h.noRelock
  cases op with
  | none => rfl
  | some q => cases hq : q.op <;> simp_all

/-- Where one lane and its record change. -/
theorem lanesMirror_of (n : Ix) {f : Lane → Lane} (hl : q.lanes = p.lanes.modify n f)
    (ho : ∀ m, m ≠ n → q.mgmt.laneOps.get m = p.mgmt.laneOps.get m)
    (hq : Mirrors (p.mgmt.laneOps.get n) (p.lanes.get n) → Mirrors (q.mgmt.laneOps.get n) (f (p.lanes.get n)))
    (hp : lanesMirror p) : lanesMirror q := by
  intro m
  by_cases hm : m = n
  · subst hm
    rw [hl, Four.get_modify_same]
    exact hq (hp m)
  · rw [hl, Four.get_modify_other _ _ hm, ho m hm]
    exact hp m

theorem lanesMirror_lane (n : Ix) {f : Lane → Lane} (hl : q.lanes = p.lanes.modify n f)
    (ho : q.mgmt.laneOps = p.mgmt.laneOps)
    (hf : ∀ l, (f l).acquireAt = l.acquireAt ∧ (f l).commit = l.commit ∧ (f l).state = l.state) (hp : lanesMirror p) :
    lanesMirror q := by
  obtain ⟨ha, hc, hs⟩ := hf (p.lanes.get n)
  exact lanesMirror_of n hl (fun m _ => by rw [ho]) (fun h => by rw [ho]; exact h.same ha hc (by rw [hs]; exact id)) hp

theorem lanesMirror_congr (hl : q.lanes = p.lanes) (ho : q.mgmt.laneOps = p.mgmt.laneOps) (hp : lanesMirror p) :
    lanesMirror q := by
  unfold lanesMirror
  rwa [hl, ho]

theorem mirror_blind : StoreBlind (fun p => (p.lanes, p.mgmt.laneOps)) :=
  ⟨fun _ _ => rfl, fun _ _ => rfl, fun _ _ => by simp⟩

theorem mirror_store : StoreKeeps lanesMirror :=
  store_blind mirror_blind (fun g => ∀ n, Mirrors (g.2.get n) (g.1.get n))

theorem mirror_feeds : FeedKeeps (fun _ => True) lanesMirror :=
  feed_free { mirror_store with feed := fun _ _ _ hp => hp } (fun _ _ _ _ _ hp => hp)

/-- The end of the operation of lane `n`, with the change `f` of the lane. -/
theorem lanesMirror_ended (n : Ix) (s : DoneStatus) {f : Lane → Lane}
    (hf : ∀ l, Mirrors (p.mgmt.laneOps.get n) l → Mirrors none (f l)) (hp : lanesMirror p) :
    lanesMirror (modLane n f (endLaneOp n s p)) :=
  lanesMirror_of n (f := f) (by simp) (fun m hm => by simp [Four.get_set_other _ _ hm])
    (fun h => by simpa using hf _ h) hp

theorem mirror_commitSwap (n : Ix) (hp : lanesMirror p) : lanesMirror (commitSwap n p) := by
  have hl := commitSwap_lanes n p
  unfold commitSwap at hl ⊢
  split <;> rename_i hc
  · simp only [hc] at hl
    refine lanesMirror_of n hl (fun m hm => by simp [Four.get_set_other _ _ hm]) (fun h => ?_) hp
    have hk : (p.mgmt.laneOps.get n).map PendingOp.op = some .commit := h.commit.1 (by simp [hc])
    have hsw : (swapped (p.lanes.get n)).acquireAt = (p.lanes.get n).acquireAt
        ∧ (swapped (p.lanes.get n)).commit = none := by simp [swapped, hc]
    simpa using h.ended (.inr ⟨hsw.1, by simp [hk]⟩) (.inl hsw.2)
  · exact hp

theorem mirror_lanes : LaneKeeps (fun _ => True) lanesMirror where
  lane n f p _ h hp := lanesMirror_of n rfl (fun _ _ => rfl) (fun hm => hm.change h) hp
  laneRuns n f p _ h hp := lanesMirror_of n rfl (fun _ _ => rfl) (fun hm => hm.change h) hp
  laneStop n s p _ _ _ _ ho hp := lanesMirror_of (p := p) n (f := fun l => { l with state := s }) rfl (fun _ _ => rfl)
    (fun hm => by
      have he : p.mgmt.laneOps.get n = none := hm.done ho.1 ho.2
      show Mirrors (p.mgmt.laneOps.get n) _
      rw [he] at hm ⊢
      exact .none (hm.noTimer (by simp)) (hm.noCommit (by simp))) hp
  faultStopped n p _ hs hp := lanesMirror_of (p := p) n (f := fun l => { l with state := .faulted }) rfl (fun _ _ => rfl)
    (fun hm => hm.same rfl rfl (fun _ => .inl hs)) hp
  endJob n p _ hp := lanesMirror_lane n (endJob_lanes n p) (by rw [endJob_keeps storeBlind_mgmt (fun _ _ => rfl)]) (fun l => by
    unfold jobEnded; split <;> exact ⟨rfl, rfl, rfl⟩) hp
  abandonJob n p _ hp := lanesMirror_lane n (abandonJob_lanes n p) (by simp) (fun l => by
    unfold abandoned; split <;> exact ⟨rfl, rfl, rfl⟩) hp
  carryShrink n f p _ _ hp := lanesMirror_lane (p := p) n (f := fun l => { l with carry := f l.carry }) rfl rfl (fun _ => ⟨rfl, rfl, rfl⟩) hp
  carryPacket n m k p _ _ hp := lanesMirror_lane m (carryPacket_lanes n m p k) (by rw [carryPacket_keeps storeBlind_mgmt (fun _ _ => rfl)]) (fun l => by
    unfold carryRoomed; split <;> exact ⟨rfl, rfl, rfl⟩) hp
  commitSwap n p _ hp := mirror_commitSwap n hp
  endPending n s p _ hp := lanesMirror_ended n s (fun _ _ => .none rfl rfl) hp
  endStart n s p _ hk hp := lanesMirror_ended n s (fun l h => h.ended (.inl rfl) (.inr ⟨rfl, by
    rw [laneOpKind] at hk; simp [hk]⟩)) hp
  endCommit n s p _ hk hp := lanesMirror_ended n s (fun l h => h.ended (.inr ⟨rfl, by
    rw [laneOpKind] at hk; simp [hk]⟩) (.inl rfl)) hp
  endOther n s p _ hk hp := absurd hk (hp n).noRelock
  jobSet n job p _ _ _ _ _ hp := lanesMirror_lane (p := p) n (f := fun l => { l with job := job, jobNumber := l.jobNumber + 1 }) rfl rfl (fun _ => ⟨rfl, rfl, rfl⟩) hp
  pin n source k p _ _ hp := lanesMirror_lane n (pinOne_lanes n p source k) (by rw [pinOne_keeps storeBlind_mgmt (fun _ _ => rfl)]) (fun l => by
    split <;> exact ⟨rfl, rfl, rfl⟩) hp

theorem endOutOp_laneOps (n : Ix) (s : DoneStatus) (p : Part) : (endOutOp n s p).mgmt.laneOps = p.mgmt.laneOps := by
  rw [endOutOp_mgmt]

theorem placeReply_ops (n : Ix) (p : Part) : (placeReply n p).mgmt.laneOps = p.mgmt.laneOps
    ∧ (placeReply n p).mgmt.outOps = p.mgmt.outOps ∧ (placeReply n p).lanes = p.lanes := by
  unfold placeReply
  split <;> exact ⟨rfl, rfl, rfl⟩

theorem placeNotice_ops (n : Ix) (k : Nat) (p : Part) : (placeNotice n k p).mgmt = p.mgmt ∧ (placeNotice n k p).lanes = p.lanes := by
  unfold placeNotice
  dsimp only
  split <;> exact ⟨rfl, rfl⟩

theorem placePackets_ops (n : Ix) (h : Handover) (p : Part) : (placePackets n h p).mgmt.laneOps = p.mgmt.laneOps
    ∧ (placePackets n h p).mgmt.outOps = p.mgmt.outOps ∧ (placePackets n h p).lanes = p.lanes := by
  simp [placePackets, placeNotice_ops, placeReply_ops]

theorem arrive_ops (n : Ix) (ws : List Byte) (p : Part) : (arrive n ws p).mgmt.laneOps = p.mgmt.laneOps
    ∧ (arrive n ws p).mgmt.outOps = p.mgmt.outOps ∧ (arrive n ws p).lanes = p.lanes ∧ (arrive n ws p).outs = p.outs := by
  unfold arrive
  split
  · exact ⟨rfl, rfl, rfl, rfl⟩
  · split <;> exact ⟨rfl, rfl, rfl, rfl⟩

theorem mirror_outs : OutKeeps (fun _ => True) lanesMirror where
  out _ _ _ _ hp := hp
  placePackets n h p _ _ hp := lanesMirror_congr (placePackets_ops n h p).2.2 (placePackets_ops n h p).1 hp
  endRelock n s p hp := lanesMirror_congr (by simp [endRelock]) (by rw [endRelock, endOutOp_laneOps]; rfl) hp
  setRef r _ _ _ hp := by cases r <;> exact hp

theorem mirror_keeps : Keeps (fun _ => True) lanesMirror := ⟨mirror_store, mirror_feeds, mirror_lanes, mirror_outs⟩

/-- A lane that no operation waits for takes one on with its own record. -/
theorem lanesMirror_begun (n : Ix) (op : PendingOp) {f : Lane → Lane}
    (hf : ∀ l, Mirrors none l → Mirrors (some op) (f l)) (he : p.mgmt.laneOps.get n = none) (hp : lanesMirror p) :
    lanesMirror (modLane n f (fillRecord (.lane n) op p)) :=
  lanesMirror_of (p := p) n (f := f) rfl (fun m hm => by simp [fillRecord, Four.get_set_other _ _ hm])
    (fun h => by simpa [fillRecord] using hf _ (he ▸ h)) hp

theorem mirror_laneCommands : LaneCommands (fun _ => True) (fun _ _ => lanesMirror) where
  profile _ _ n v p _ _ hp := lanesMirror_lane (p := p) n (f := storeProfile v) rfl rfl (fun l => by
    unfold storeProfile; split <;> exact ⟨rfl, rfl, rfl⟩) hp
  start _ n op p _ hop _ he _ hp := lanesMirror_begun n op (fun l h =>
    ⟨by simp [hop], by simp [hop, h.noCommit (by simp)], by simp [hop], fun hi => by rcases hi with hi | hi <;> cases hi⟩)
    he hp
  resumed _ _ n p _ hs _ hp := lanesMirror_of (p := p) n (f := fun r => { r with state := .stopped }) rfl (fun _ _ => rfl)
    (fun h => h.same rfl rfl (fun _ => .inr hs)) hp
  shadow _ _ n t first rows p _ _ hp := lanesMirror_lane (p := p) n
    (f := fun r => { r with tables := loadShadow t first rows r.tables }) rfl rfl (fun _ => ⟨rfl, rfl, rfl⟩) hp
  commitWaits _ n op c p _ hop _ he _ hr hp := lanesMirror_of (p := p) n (f := fun l => { l with commit := some c }) rfl
    (fun m hm => by simp [commitHeld, fillRecord, Four.get_set_other _ _ hm]) (fun h => by
      rw [he] at h
      simp only [commitHeld, fillRecord, modLane_mgmt, modMgmt_mgmt, Four.get_set_same]
      exact ⟨by simp [hop, h.noTimer (by simp)], by simp [hop], by simp [hop],
        fun hi => absurd hi (IdleLaw.not_idle_of_runsJobs hr)⟩) hp
  commitNow _ n op c p _ hop _ he _ _ hp := by
    have hq : lanesMirror p := hp
    have hl : (commitSwap n (commitHeld n c (fillRecord (.lane n) op p))).lanes
        = p.lanes.modify n (fun l => swapped { l with commit := some c }) := by
      rw [commitSwap_lanes]
      simp [commitHeld, fillRecord]
    have hops : (commitSwap n (commitHeld n c (fillRecord (.lane n) op p))).mgmt.laneOps = p.mgmt.laneOps.set n none := by
      simp [commitSwap, commitHeld, fillRecord]
    refine lanesMirror_of n hl (fun m hm => by rw [hops, Four.get_set_other _ _ hm]) (fun h => ?_) hq
    rw [he] at h
    rw [hops, Four.get_set_same]
    exact .none (h.noTimer (by simp)) rfl
  route _ _ n t p _ _ hp := lanesMirror_lane (p := p) n (f := fun r => { r with route := t }) rfl rfl
    (fun _ => ⟨rfl, rfl, rfl⟩) hp
  halted _ _ n p _ hk _ _ hp := by
    have hk' : laneOpKind (leaveRunning n .stopped p) n = some .start := by simpa [laneOpKind] using hk
    rw [haltStart, if_pos hk']
    refine lanesMirror_of (p := p) n (f := fun l => { l with state := .stopped, acquireAt := none }) (by simp)
      (fun m hm => by simp [Four.get_set_other _ _ hm]) (fun h => ?_) hp
    have hc : (p.lanes.get n).commit = none := h.noCommit (by rw [laneOpKind] at hk; simp [hk])
    simpa using Mirrors.none (l := { p.lanes.get n with state := .stopped, acquireAt := none }) rfl hc

theorem lanesMirror_reset {p : Part} {t : Straps} (hl : p.lanes = Four.make (resetLane t)) (hm : p.mgmt = resetMgmt) :
    lanesMirror p := by
  intro n
  rw [hl, hm, Four.get_make]
  simpa [resetMgmt] using Mirrors.none (l := resetLane t n) rfl rfl

theorem mirror_law : Law (fun _ => True) lanesMirror lanesMirror (fun _ _ => lanesMirror) :=
  plain_law mirror_keeps
    ⟨{ opened := fun _ _ _ _ hp => hp, reply := fun _ _ _ _ hp => hp, unreserve := fun _ _ _ hp => hp
       mgmtCtr := fun _ _ _ _ hp => hp },
      mirror_laneCommands,
      { setOutput := fun _ _ _ _ _ _ _ _ _ hp => hp
        relockNow := fun _ n op p _ _ _ _ hp => lanesMirror_congr (by simp [fillRecord])
          (by rw [endOutOp_laneOps]; rfl) hp
        relockWaits := fun _ _ _ _ _ _ _ _ hp => hp },
      fault_commands_free (fun _ _ hp => hp), fun _ _ _ _ hp => hp,
      fun _ _ _ _ _ => deviceReset_kept mirror_store
        (fun n k p hp => lanesMirror_congr (placeNotice_ops n k p).2 (by rw [(placeNotice_ops n k p).1]) hp)
        (lanesMirror_reset rfl rfl),
      fun _ _ _ _ _ _ hp => hp, fun _ _ _ _ _ hp => hp⟩
    (fun n ws p hp => lanesMirror_congr (arrive_ops n ws p).2.2.1 (arrive_ops n ws p).1 hp)
    (fun u p hp => by
      cases u with
      | storedSample => exact hp
      | slotRecord => exact hp
      | tableRow n t b row =>
        exact lanesMirror_lane (p := p) n (f := fun l => { l with tables := modTable t (spoilBank b row) l.tables }) rfl rfl
          (fun _ => ⟨rfl, rfl, rfl⟩) hp
      | carryItem n i =>
        exact lanesMirror_lane (p := p) n
          (f := fun l => { l with carry := l.carry.modify i (fun c => { c with parityOk := false }) }) rfl rfl
          (fun _ => ⟨rfl, rfl, rfl⟩) hp)
    (fun _ _ hp => hp) (fun _ _ hp => hp)

end Mirror

/-! ### The outputs' RELOCK -/

section Relock
variable {p q : Part}

theorem relockMirrors_congr (ho : ∀ n, (q.outs.get n).relockPending = (p.outs.get n).relockPending)
    (hm : q.mgmt.outOps = p.mgmt.outOps) (hp : relockMirrors p) : relockMirrors q := by
  intro n
  rw [ho, hm]
  exact hp n

theorem relock_store : StoreKeeps relockMirrors := store_free {
  store := fun _ _ _ hp => hp
  black := fun _ _ hp => hp
  line := fun _ _ _ _ _ hp => hp
  report := report_kept (fun _ _ hp => hp)
  due := fun _ hp => hp
  latch := fun c p hp => relockMirrors_congr (fun n => by simp) (by simp) hp }

theorem relock_feeds : FeedKeeps (fun _ => True) relockMirrors :=
  feed_free { relock_store with feed := fun _ _ _ hp => hp } (fun _ _ _ _ _ hp => hp)

/-- A change of an output that leaves its RELOCK. -/
theorem relockMirrors_modOut {n : Ix} {f : OutUnit → OutUnit} (hf : ∀ o, (f o).relockPending = o.relockPending)
    (hp : relockMirrors p) : relockMirrors (modOut n f p) :=
  relockMirrors_congr (p := p) (fun m => by rw [modOut_outs, Four.get_modify]; split <;> simp [hf]) rfl hp

theorem relock_lanes : LaneFree relockMirrors :=
  { relock_store with
    lane := fun _ _ _ hp => hp
    endLaneOp := fun n s p hp => by
      unfold endLaneOp
      split
      · exact relockMirrors_modOut (p := modMgmt _ p) (fun _ => rfl) hp
      · exact hp }

/-- Where one output and its record change. -/
theorem relockMirrors_of (n : Ix) (ho : ∀ m, m ≠ n → (q.outs.get m).relockPending = (p.outs.get m).relockPending)
    (hm : ∀ m, m ≠ n → q.mgmt.outOps.get m = p.mgmt.outOps.get m)
    (hn : (q.outs.get n).relockPending = true ↔ (q.mgmt.outOps.get n).isSome = true) (hp : relockMirrors p) :
    relockMirrors q := by
  intro m
  by_cases h : m = n
  · subst h; exact hn
  · rw [ho m h, hm m h]; exact hp m

theorem postReply_relock (n m : Ix) (r : Reply) (p : Part) :
    ((postReply n r p).outs.get m).relockPending = (p.outs.get m).relockPending := by
  rw [postReply, modOut_outs, Four.get_modify]; split <;> rfl

theorem endOutOp_relock (n m : Ix) (s : DoneStatus) (p : Part) :
    ((endOutOp n s p).outs.get m).relockPending = (p.outs.get m).relockPending := by
  unfold endOutOp
  split
  · rw [postDone, postReply_relock]; rfl
  · rfl

/-- An output whose RELOCK has ended. -/
theorem relockMirrors_ended (n : Ix) (s : DoneStatus) (hn : (p.outs.get n).relockPending = false)
    (hp : ∀ m, m ≠ n → ((p.outs.get m).relockPending = true ↔ (p.mgmt.outOps.get m).isSome = true)) :
    relockMirrors (endOutOp n s p) := by
  intro m
  rw [endOutOp_relock, endOutOp_mgmt]
  by_cases h : m = n
  · subst h; simp [hn]
  · simpa [Four.get_set_other _ _ h] using hp m h

theorem modOut_out {β : Type} (g : OutUnit → β) {f : OutUnit → OutUnit} (hf : ∀ o, g (f o) = g o) (n m : Ix) (p : Part) :
    g ((modOut n f p).outs.get m) = g (p.outs.get m) := by
  rw [modOut_outs, Four.get_modify]
  split <;> simp [hf]

/-- The packets of a picture change replies, notices, packets and counters of an output alone. -/
theorem placePackets_out {β : Type} (g : OutUnit → β)
    (hg : ∀ (o : OutUnit) rs ps ns ctr, g { o with replies := rs, packets := ps, notices := ns, ctr := ctr } = g o)
    (n m : Ix) (h : Handover) (p : Part) : g ((placePackets n h p).outs.get m) = g (p.outs.get m) := by
  have hr (q : Part) : g ((placeReply n q).outs.get m) = g (q.outs.get m) := by
    unfold placeReply
    split
    · rfl
    · simp only [bumpOut_eq]
      rw [modOut_out g (fun o => hg o _ _ _ _), modMgmt_outs, modOut_out g (fun o => hg o _ _ _ _)]
  have hn (k : Nat) (q : Part) : g ((placeNotice n k q).outs.get m) = g (q.outs.get m) := by
    unfold placeNotice
    dsimp only
    split
    · simp only [bumpOut_eq]
      rw [modOut_out g (fun o => hg o _ _ _ _), modOut_out g (fun o => hg o _ _ _ _)]
    · rfl
  unfold placePackets
  dsimp only
  rw [modOut_out g (fun o => hg o _ _ _ _), hn, hr, hr, modOut_out g (fun o => hg o _ _ _ _)]

theorem placeNotice_out {β : Type} (g : OutUnit → β)
    (hg : ∀ (o : OutUnit) ps ns ctr, g { o with packets := ps, notices := ns, ctr := ctr } = g o)
    (n m : Ix) (k : Nat) (p : Part) : g ((placeNotice n k p).outs.get m) = g (p.outs.get m) := by
  unfold placeNotice
  dsimp only
  split
  · simp only [bumpOut_eq]
    rw [modOut_out g (fun o => hg o _ _ _), modOut_out g (fun o => hg o _ _ _)]
  · rfl

theorem relock_outs : OutKeeps (fun _ => True) relockMirrors where
  out n f p ho hp := relockMirrors_congr (p := p) (fun m => by
    rw [modOut_outs, Four.get_modify]
    split
    · next h => subst h; exact ho.relockPending
    · rfl) rfl hp
  placePackets n h p _ _ hp :=
    relockMirrors_congr (fun m => placePackets_out OutUnit.relockPending (fun _ _ _ _ _ => rfl) n m h p) (placePackets_ops n h p).2.1 hp
  endRelock n s p hp := relockMirrors_ended n s (by simp) (fun m hm => by
    simpa [Four.get_modify_other _ _ hm] using hp m)
  setRef r _ _ _ hp := by cases r <;> exact hp

theorem relock_keeps : Keeps (fun _ => True) relockMirrors :=
  ⟨relock_store, relock_feeds, lane_free relock_lanes _, relock_outs⟩

theorem relock_replies : ReplyCommands relockMirrors (fun _ _ => relockMirrors) where
  opened _ _ p _ hp := relockMirrors_modOut (p := modMgmt _ p) (fun _ => rfl) hp
  reply _ _ _ _ hp := relockMirrors_modOut (fun _ => rfl) hp
  unreserve _ _ _ hp := relockMirrors_modOut (fun _ => rfl) hp
  mgmtCtr _ _ _ _ hp := hp

theorem relock_outCommands : OutCommands (fun _ => True) (fun _ _ => relockMirrors) where
  setOutput _ _ n sel off pol p _ _ hp := relockMirrors_modOut (fun _ => rfl) hp
  relockNow _ n op p _ _ _ hr hp := relockMirrors_ended n _ (by simpa [fillRecord] using hr) (fun m hm => by
    simpa [fillRecord, Four.get_set_other _ _ hm] using hp m)
  relockWaits _ n op p _ _ _ _ hp := relockMirrors_of (p := p) n
    (fun m hm => by simp [fillRecord, Four.get_modify_other _ _ hm])
    (fun m hm => by simp [fillRecord, Four.get_set_other _ _ hm]) (by simp [fillRecord]) hp

theorem relockMirrors_reset {p : Part} {t : Straps} (ho : p.outs = Four.all (resetOut t)) (hm : p.mgmt = resetMgmt) :
    relockMirrors p := by
  intro n
  rw [ho, hm, Four.get_all]
  simp [resetOut, resetMgmt]

theorem relock_law : Law (fun _ => True) relockMirrors relockMirrors (fun _ _ => relockMirrors) :=
  plain_law relock_keeps
    ⟨relock_replies,
      lane_commands_free relock_lanes relock_feeds (fun _ _ _ hp => hp),
      relock_outCommands, fault_commands_free (fun _ _ hp => hp), fun _ _ _ _ hp => hp,
      fun _ _ _ _ _ => deviceReset_kept relock_store
        (fun n k p hp => relockMirrors_congr
          (fun m => placeNotice_out OutUnit.relockPending (fun _ _ _ _ => rfl) n m k p) (by rw [(placeNotice_ops n k p).1]) hp)
        (relockMirrors_reset rfl rfl),
      fun _ _ _ _ _ _ hp => hp, fun _ _ _ _ _ hp => hp⟩
    (fun n ws p hp => relockMirrors_congr (fun m => by rw [(arrive_ops n ws p).2.2.2]) (arrive_ops n ws p).2.1 hp)
    (fun u p hp => by cases u <;> exact hp)
    (fun _ _ hp => hp) (fun _ _ hp => hp)

/-- Every step keeps the records mirrored. -/
theorem recordsOk_kept : keptByStep recordsOk := by
  intro s t hs he
  obtain ⟨hl, hr⟩ := (recordsOk_iff _).1 hs
  exact (recordsOk_iff _).2
    ⟨mirror_law.kept (fun _ => trivial) (fun _ _ _ => lanesMirror_reset rfl rfl) s t hl he,
      relock_law.kept (fun _ => trivial) (fun _ _ _ => relockMirrors_reset rfl rfl) s t hr he⟩

end Relock
end Sys2Proof.Machine.RecordsLaw
end

section
/-! SUPPORT. Reply places (O7): each reserved place waits for one pending operation, or is in the hand of the take (R170). -/

namespace Sys2Proof.Machine.RepliesLaw

open Keeping Frames RecordsLaw

/-- Replies and reserved places of OUTn. -/
def heldPlaces (o : OutUnit) : Nat × Nat := (o.replies.length, o.reserved)

/-- The places of a reply queue: none too many, and each waits for an operation or, k of OUTl, for the take in hand. -/
def placesOk (l : Ix) (k : Nat) (p : Part) : Prop :=
  ∀ n, (heldPlaces (p.outs.get n)).1 + (heldPlaces (p.outs.get n)).2 ≤ 16
    ∧ (heldPlaces (p.outs.get n)).2 = pendingFrom p n + (if n = l then k else 0)

section Places
variable {l : Ix} {k : Nat} {p q : Part}

theorem repliesOk_iff (l : Ix) : repliesOk p ↔ placesOk l 0 p := by
  unfold repliesOk placesOk
  simp [heldPlaces]

theorem pendingFrom_congr (ho : q.mgmt.laneOps = p.mgmt.laneOps) (hq : q.mgmt.outOps = p.mgmt.outOps) (n : Ix) :
    pendingFrom q n = pendingFrom p n := by simp only [pendingFrom, ho, hq]

theorem placesOk_congr (hh : ∀ n, heldPlaces (q.outs.get n) = heldPlaces (p.outs.get n))
    (ho : q.mgmt.laneOps = p.mgmt.laneOps) (hq : q.mgmt.outOps = p.mgmt.outOps) (hp : placesOk l k p) : placesOk l k q := by
  intro n
  rw [hh, pendingFrom_congr ho hq]
  exact hp n

theorem Four.countP_set {α : Type} (f : α → Bool) (v : Four α) (n : Ix) (a : α) :
    (v.set n a).toList.countP f + (if f (v.get n) then 1 else 0) = v.toList.countP f + (if f a then 1 else 0) := by
  have key (x y : α) (us vs : List α) :
      (us ++ y :: vs).countP f + (if f x then 1 else 0) = (us ++ x :: vs).countP f + (if f y then 1 else 0) := by
    simp only [List.countP_append, List.countP_cons]
    ac_rfl
  revert n
  exact Ix.cases (key v.q0 a [] [v.q1, v.q2, v.q3]) (key v.q1 a [v.q0] [v.q2, v.q3]) (key v.q2 a [v.q0, v.q1] [v.q3])
    (key v.q3 a [v.q0, v.q1, v.q2] [])

theorem pendingFrom_setLane (n m : Ix) (a : Option PendingOp) (hq : q.mgmt.laneOps = p.mgmt.laneOps.set n a)
    (ho : q.mgmt.outOps = p.mgmt.outOps) :
    pendingFrom q m + (if originIs m (p.mgmt.laneOps.get n) then 1 else 0)
      = pendingFrom p m + (if originIs m a then 1 else 0) := by
  have h := Four.countP_set (originIs m) p.mgmt.laneOps n a
  simp only [pendingFrom, hq, ho]
  omega

theorem pendingFrom_setOut (n m : Ix) (a : Option PendingOp) (hq : q.mgmt.outOps = p.mgmt.outOps.set n a)
    (ho : q.mgmt.laneOps = p.mgmt.laneOps) :
    pendingFrom q m + (if originIs m (p.mgmt.outOps.get n) then 1 else 0)
      = pendingFrom p m + (if originIs m a then 1 else 0) := by
  have h := Four.countP_set (originIs m) p.mgmt.outOps n a
  simp only [pendingFrom, hq, ho]
  omega

theorem originIs_some (m : Ix) (op : PendingOp) : originIs m (some op) = decide (op.origin = m) := rfl

/-- A reply posted into one place that was reserved for it, of `origin`. -/
theorem placesOk_posted {origin : Ix} {r : Reply}
    (hp : ∀ m, (heldPlaces (p.outs.get m)).1 + (heldPlaces (p.outs.get m)).2 ≤ 16
      ∧ (heldPlaces (p.outs.get m)).2 = pendingFrom p m + (if m = l then k else 0) + (if m = origin then 1 else 0)) :
    placesOk l k (postReply origin r p) := by
  intro m
  obtain ⟨hb, hr⟩ := hp m
  have he : pendingFrom (postReply origin r p) m = pendingFrom p m := rfl
  rw [he, postReply, modOut_outs, Four.get_modify]
  by_cases hm : m = origin
  · rw [if_pos hm] at hr ⊢
    simp only [heldPlaces, List.length_append, List.length_singleton] at hb hr ⊢
    omega
  · rw [if_neg hm] at hr ⊢
    exact ⟨hb, by omega⟩

theorem placesOk_endLaneOp (n : Ix) (s : DoneStatus) (hp : placesOk l k p) : placesOk l k (endLaneOp n s p) := by
  unfold endLaneOp
  split
  · next op hop =>
    refine placesOk_posted (fun m => ?_)
    have hc := pendingFrom_setLane (p := p)
      (q := modMgmt (fun m => { m with laneOps := m.laneOps.set n none }) p) n m none rfl rfl
    rw [hop, originIs_some] at hc
    obtain ⟨hb, hr⟩ := hp m
    refine ⟨hb, ?_⟩
    simp only [modMgmt_outs, eq_comm (a := m) (b := op.origin), decide_eq_true_eq] at hc ⊢
    simp only [originIs, Option.any_none, Bool.false_eq_true, if_false] at hc
    omega
  · exact hp

theorem placesOk_endOutOp (n : Ix) (s : DoneStatus) (hp : placesOk l k p) : placesOk l k (endOutOp n s p) := by
  unfold endOutOp
  split
  · next op hop =>
    refine placesOk_posted (fun m => ?_)
    have hc := pendingFrom_setOut (p := p)
      (q := modMgmt (fun m => { m with outOps := m.outOps.set n none }) p) n m none rfl rfl
    rw [hop, originIs_some] at hc
    obtain ⟨hb, hr⟩ := hp m
    refine ⟨hb, ?_⟩
    simp only [modMgmt_outs, eq_comm (a := m) (b := op.origin), decide_eq_true_eq] at hc ⊢
    simp only [originIs, Option.any_none, Bool.false_eq_true, if_false] at hc
    omega
  · exact hp

/-- A place in hand becomes the place of an operation that begins. -/
theorem placesOk_fillLane {n : Ix} {op : PendingOp} (he : p.mgmt.laneOps.get n = none) (ho : op.origin = l)
    (hp : placesOk l (k + 1) p) : placesOk l k (fillRecord (.lane n) op p) := by
  intro m
  have hc := pendingFrom_setLane (p := p) (q := fillRecord (.lane n) op p) n m (some op) rfl rfl
  obtain ⟨hb, hr⟩ := hp m
  refine ⟨hb, ?_⟩
  rw [he, originIs_some, ho] at hc
  simp only [originIs, Option.any_none, Bool.false_eq_true, if_false, decide_eq_true_eq, eq_comm (a := l)] at hc
  have hh : heldPlaces ((fillRecord (.lane n) op p).outs.get m) = heldPlaces (p.outs.get m) := rfl
  rw [hh]
  rcases eq_or_ne m l with hm | hm
  · simp only [hm, if_true] at hr hc ⊢; omega
  · simp only [hm, if_false] at hr hc ⊢; omega

theorem placesOk_fillOutput {n : Ix} {op : PendingOp} (he : p.mgmt.outOps.get n = none) (ho : op.origin = l)
    (hp : placesOk l (k + 1) p) : placesOk l k (fillRecord (.output n) op p) := by
  intro m
  have hc := pendingFrom_setOut (p := p) (q := fillRecord (.output n) op p) n m (some op) rfl rfl
  obtain ⟨hb, hr⟩ := hp m
  refine ⟨hb, ?_⟩
  rw [he, originIs_some, ho] at hc
  simp only [originIs, Option.any_none, Bool.false_eq_true, if_false, decide_eq_true_eq, eq_comm (a := l)] at hc
  have hh : heldPlaces ((fillRecord (.output n) op p).outs.get m) = heldPlaces (p.outs.get m) := rfl
  rw [hh]
  rcases eq_or_ne m l with hm | hm
  · simp only [hm, if_true] at hr hc ⊢; omega
  · simp only [hm, if_false] at hr hc ⊢; omega

theorem placesOk_modOut {n : Ix} {f : OutUnit → OutUnit} (hf : ∀ o, heldPlaces (f o) = heldPlaces o)
    (hp : placesOk l k p) : placesOk l k (modOut n f p) :=
  placesOk_congr (p := p) (fun m => modOut_out heldPlaces hf n m p) rfl rfl hp

theorem placeReply_held (n m : Ix) (q : Part) :
    (heldPlaces ((placeReply n q).outs.get m)).1 ≤ (heldPlaces (q.outs.get m)).1
      ∧ (heldPlaces ((placeReply n q).outs.get m)).2 = (heldPlaces (q.outs.get m)).2 := by
  unfold placeReply
  split
  · exact ⟨le_rfl, rfl⟩
  · next r rest hrest =>
    by_cases hm : m = n
    · subst hm; simp [heldPlaces, hrest]
    · simp [heldPlaces, Four.get_modify_other _ _ hm]

/-- A picture takes replies from the queue and gives up no reserved place. -/
theorem placesOk_placePackets (n : Ix) (h : Handover) (hp : placesOk l k p) : placesOk l k (placePackets n h p) := by
  have hr (q : Part) (hq : placesOk l k q) : placesOk l k (placeReply n q) := by
    intro m
    obtain ⟨hb, hres⟩ := hq m
    obtain ⟨hlen, hplaces⟩ := placeReply_held n m q
    rw [pendingFrom_congr (placeReply_ops n q).1 (placeReply_ops n q).2.1]
    exact ⟨by omega, hplaces.trans hres⟩
  refine placesOk_modOut (fun _ => rfl) ?_
  refine placesOk_congr (fun m => placeNotice_out heldPlaces (fun _ _ _ _ => rfl) n m _ _)
    (by rw [(placeNotice_ops ..).1]) (by rw [(placeNotice_ops ..).1]) (hr _ (hr _ ?_))
  exact placesOk_modOut (fun _ => rfl) hp

theorem places_store : StoreKeeps (placesOk l k) := store_free {
  store := fun _ _ _ hp => hp
  black := fun _ _ hp => hp
  line := fun _ _ _ _ _ hp => hp
  report := report_kept (fun _ _ hp => hp)
  due := fun _ hp => hp
  latch := fun c p hp => placesOk_congr (p := p) (fun n => by simp [heldPlaces]) (by simp) (by simp) hp }

theorem places_keeps : Keeps (fun _ => True) (placesOk l k) :=
  ⟨places_store, feed_free { places_store with feed := fun _ _ _ hp => hp } (fun _ _ _ _ _ hp => hp),
    lane_free { places_store with lane := fun _ _ _ hp => hp, endLaneOp := fun n s _ => placesOk_endLaneOp n s } _,
    { out := fun n f p ho hp => placesOk_congr (p := p) (fun m => by
        rw [modOut_outs, Four.get_modify]
        split
        · next h => subst h; simp only [heldPlaces, ho.replies, ho.reserved]
        · rfl) rfl rfl hp
      placePackets := fun n h _ _ _ hp => placesOk_placePackets n h hp
      endRelock := fun n s _ hp => placesOk_endOutOp n s (placesOk_modOut (fun _ => rfl) hp)
      setRef := fun r _ _ _ hp => by cases r <;> exact hp }⟩

theorem relockMirrors_none {n : Ix} (hp : relockMirrors p) (h : (p.outs.get n).relockPending = false) :
    p.mgmt.outOps.get n = none := by
  have := (hp n).not.1 (by simp [h])
  simpa using this

/-- The law of a take: the places with those in hand, and the outputs' records, which show that none is overwritten. -/
def placesLaw (l : Ix) (k : Nat) (p : Part) : Prop := placesOk l k p ∧ relockMirrors p

theorem placesLaw_zero : (repliesOk p ∧ relockMirrors p) ↔ placesLaw l 0 p := and_congr_left (fun _ => repliesOk_iff l)

theorem places_replies : ReplyCommands (fun p => repliesOk p ∧ relockMirrors p) placesLaw where
  opened code l p hroom hp := by
    refine ⟨fun m => ?_, relock_replies.opened code l p hroom hp.2⟩
    obtain ⟨hb, hr⟩ := (repliesOk_iff l).1 hp.1 m
    have he : pendingFrom (openTake code l p) m = pendingFrom p m := rfl
    have ho : (openTake code l p).outs = p.outs.modify l (fun o => { o with reserved := o.reserved + need code }) := rfl
    rw [he, ho, Four.get_modify]
    rcases eq_or_ne m l with hm | hm
    · subst hm
      simp only [room, Config.replyMax, heldPlaces, if_true] at hroom hb hr ⊢
      have hneed : 1 ≤ need code := by unfold need; split <;> omega
      omega
    · simp only [hm, if_false] at hr ⊢
      exact ⟨hb, hr⟩
  reply l k r p hp := by
    refine ⟨placesOk_posted (fun m => ?_), relock_replies.reply l k r p hp.2⟩
    obtain ⟨hb, hr⟩ := hp.1 m
    refine ⟨hb, hr.trans ?_⟩
    split <;> omega
  unreserve l k p hp := by
    refine ⟨fun m => ?_, relock_replies.unreserve l k p hp.2⟩
    obtain ⟨hb, hr⟩ := hp.1 m
    have he : pendingFrom (unreserve l p) m = pendingFrom p m := rfl
    rw [he, unreserve, modOut_outs, Four.get_modify]
    rcases eq_or_ne m l with hm | hm
    · simp only [hm, if_true, heldPlaces] at hb hr ⊢; omega
    · simp only [hm, if_false] at hr ⊢
      exact ⟨hb, hr⟩
  mgmtCtr _ _ _ _ hp := hp

theorem places_laneCommands : LaneCommands (fun _ => True) placesLaw where
  profile _ _ _ _ _ _ _ hp := hp
  start _ n op p _ _ ho he _ hp := ⟨placesOk_fillLane he ho hp.1, hp.2⟩
  resumed _ _ _ _ _ _ _ hp := hp
  shadow _ _ _ _ _ _ _ _ _ hp := hp
  commitWaits _ n op c p _ _ ho he _ _ hp := ⟨placesOk_fillLane he ho hp.1, hp.2⟩
  commitNow l n op c p _ _ ho he _ _ hp :=
    (places_keeps.and relock_keeps).commitSwap n (commitHeld n c (fillRecord (.lane n) op p)) trivial
      ⟨placesOk_fillLane he ho hp.1, hp.2⟩
  route _ _ _ _ _ _ _ hp := hp
  halted l k n p _ hk _ _ hp := by
    have hK : Keeps (fun _ => True) (placesLaw l k) := places_keeps.and relock_keeps
    have h1 : placesLaw l k (modLane n (fun l => { l with state := .stopped }) p) := hp
    have h2 : placesLaw l k (leaveRunning n .stopped p) := by
      unfold leaveRunning
      dsimp only
      split
      · exact hK.recapture trivial (hK.flush _ _ trivial h1)
      · exact hK.recapture trivial h1
    exact hK.haltStart n h2

theorem places_outCommands : OutCommands (fun _ => True) placesLaw where
  setOutput l k n sel off pol p hA hr hp :=
    ⟨placesOk_modOut (fun _ => rfl) hp.1, relock_outCommands.setOutput l k n sel off pol p hA hr hp.2⟩
  relockNow l n op p hA hop ho hr hp :=
    ⟨placesOk_endOutOp n _ (placesOk_fillOutput (relockMirrors_none hp.2 hr) ho hp.1),
      relock_outCommands.relockNow l n op p hA hop ho hr hp.2⟩
  relockWaits l n op p hA hop ho hr hp :=
    ⟨placesOk_modOut (fun _ => rfl) (placesOk_fillOutput (relockMirrors_none hp.2 hr) ho hp.1),
      relock_outCommands.relockWaits l n op p hA hop ho hr hp.2⟩

theorem repliesOk_reset {p : Part} {t : Straps} (ho : p.outs = Four.all (resetOut t)) (hm : p.mgmt = resetMgmt) :
    repliesOk p := by
  intro n
  rw [pendingFrom, ho, hm, Four.get_all]
  simp [resetOut, resetMgmt, Four.all, Four.toList, originIs]

theorem places_law : Law (fun _ => True) (fun p => repliesOk p ∧ relockMirrors p) (fun p => repliesOk p ∧ relockMirrors p)
    placesLaw where
  toReplyCommands := places_replies
  toLaneCommands := places_laneCommands
  toOutCommands := places_outCommands
  toFaultCommands :=
    { logRead := fun _ _ _ _ _ hp => hp
      logClear := fun _ _ _ _ _ _ _ _ hp => hp
      ack := fun l k cs p _ hp => ackAll_kept (P := placesLaw l k) (fun _ _ hp => hp) cs hp
      mask := fun _ _ _ _ _ hp => hp }
  storeCtr _ _ _ _ hp := hp
  deviceReset l k p _ _ := by
    refine (placesLaw_zero (l := 0)).2 (deviceReset_kept (places_keeps.and relock_keeps).toStoreKeeps (fun n k p hp => ?_)
      ⟨(repliesOk_iff 0).1 (repliesOk_reset rfl rfl), relockMirrors_reset rfl rfl⟩)
    exact ⟨placesOk_congr (fun m => placeNotice_out heldPlaces (fun _ _ _ _ => rfl) n m _ _)
      (by rw [(placeNotice_ops ..).1]) (by rw [(placeNotice_ops ..).1]) hp.1,
      relockMirrors_congr (fun m => placeNotice_out OutUnit.relockPending (fun _ _ _ _ => rfl) n m _ _)
      (by rw [(placeNotice_ops ..).1]) hp.2⟩
  settings _ _ _ _ _ _ hp := hp
  mute _ _ _ _ _ hp := hp
  keeps l k := places_keeps.and relock_keeps
  arrive n ws p hp := ⟨(repliesOk_iff 0).2 (placesOk_congr (fun m => by rw [(arrive_ops n ws p).2.2.2])
    (arrive_ops n ws p).1 (arrive_ops n ws p).2.1 ((repliesOk_iff 0).1 hp.1)), relock_law.arrive n ws p hp.2⟩
  inEvent _ hp := hp
  taking l p := placesLaw_zero
  upset u p hp := by cases u <;> exact hp
  advance _ _ hp := hp
  settle p hp := by
    refine (placesLaw_zero (l := 0)).2 (settle_kept (P := placesLaw 0 0) (places_keeps.and relock_keeps) (fun _ hp => hp)
      (fun _ hp => hp) (fun _ hp _ => hp) p (placesLaw_zero.1 hp))

/-- Settles O7: a place is reserved by a take, and consumed by its reply or by the DONE of the operation it begins. -/
theorem replyPlacesStay : Obligations.ReplyPlacesStay := by
  intro s t ⟨hr, hrec⟩ he
  have h := places_law.kept (fun _ => trivial)
    (fun _ _ _ => ⟨repliesOk_reset rfl rfl, relockMirrors_reset rfl rfl⟩) s t ⟨hr, ((recordsOk_iff _).1 hrec).2⟩ he
  exact ⟨h.1, recordsOk_kept s t hrec he⟩

end Places
end Sys2Proof.Machine.RepliesLaw
end

section
/-! SUPPORT. Laws of the fault unit, and the hold of device fatal over the lanes (O10). -/

namespace Sys2Proof.Machine.Keeping

open Frames

/-- A predicate on the fault unit that survives what operations and commands change in it. -/
structure FaultLaw (A : Nat → Prop) (Q : FaultUnit → Prop) : Prop where
  report : ∀ l c d p, Q p.fault → Q (report l c d p).fault
  due : ∀ u b, Q u → Q { u with fatalDue := b }
  fatal : ∀ u, Q u → Q { u with deviceFatal := true }
  latch : ∀ c p, Q p.fault → Q (latchSet c p).fault
  logRead : ∀ l p, A 21 → Q p.fault → Q (modLog l markRead p).fault
  logClear : ∀ l r p, A 22 → getLog l p = some r → r.read = true → Q p.fault → Q (modLog l (fun _ => none) p).fault
  ack : ∀ cs p, A 24 → Q p.fault → Q (ackAll cs p).fault
  mask : ∀ v p, A 25 → Q p.fault → Q (storeMask v p).fault
  reset : A 4 → Q resetFault

section Fault
variable {A : Nat → Prop} {Q : FaultUnit → Prop} (h : FaultLaw A Q)
include h

theorem FaultLaw.store : StoreKeeps (fun p => Q p.fault) := store_free {
  store := fun _ _ _ hp => hp
  black := fun _ _ hp => hp
  line := fun _ _ _ _ _ hp => hp
  report := h.report
  due := fun _ hp => h.due _ _ hp
  latch := h.latch }

omit h in
theorem faultOuts : OutFree (fun p => Q p.fault) where
  out _ _ _ hp := hp
  mgmt _ _ hp := hp
  ref r _ _ hp := by cases r <;> exact hp

theorem FaultLaw.lanes : LaneFree (fun p => Q p.fault) :=
  { h.store with lane := fun _ _ _ hp => hp, endLaneOp := fun n s _ => faultOuts.endLaneOp n s }

theorem FaultLaw.feeds : FeedKeeps (fun _ => True) (fun p => Q p.fault) :=
  feed_free { h.store with feed := fun _ _ _ hp => hp } (fun _ _ _ _ _ hp => hp)

theorem FaultLaw.keeps : Keeps (fun _ => True) (fun p => Q p.fault) :=
  ⟨h.store, h.feeds, lane_free h.lanes _, out_free faultOuts _⟩

theorem FaultLaw.law : Law A (fun p => Q p.fault) (fun p => Q p.fault) (fun _ _ p => Q p.fault) where
  toReplyCommands := reply_commands_free faultOuts
  toLaneCommands := lane_commands_free h.lanes h.feeds (fun _ _ _ hp => hp)
  toOutCommands := out_commands_free faultOuts
  logRead _ _ l p hA hp := h.logRead l p hA hp
  logClear _ _ l r p hA hl hr hp := h.logClear l r p hA hl hr hp
  ack _ _ cs p hA hp := h.ack cs p hA hp
  mask _ _ v p hA hp := h.mask v p hA hp
  storeCtr _ _ _ _ hp := hp
  deviceReset _ _ _ hA _ := deviceReset_kept h.store (fun n k _ => faultOuts.placeNotice n k) (h.reset hA)
  settings _ _ _ _ _ _ hp := hp
  mute _ _ _ _ _ hp := hp
  keeps _ _ := h.keeps
  arrive n ws _ := faultOuts.arrive n ws
  inEvent _ hp := hp
  taking _ _ := Iff.rfl
  upset u _ hp := by cases u <;> exact hp
  advance _ _ hp := hp
  settle := settle_kept h.keeps (fun _ hp => h.fatal _ hp) (fun _ hp => h.due _ _ hp) (fun _ hp _ => hp)

end Fault

/-! ### The alarm line and the order of the latches -/

theorem report_alarm {l : LogId} {c : ErrCode} {d : Detail} {p : Part} :
    alarmValue (report l c d p).fault = alarmValue p.fault := by simp [alarmValue]

theorem modLog_flags (l : LogId) (f : Option LogRec → Option LogRec) (p : Part) :
    (modLog l f p).fault.latches = p.fault.latches ∧ (modLog l f p).fault.mask = p.fault.mask
      ∧ (modLog l f p).fault.alarm = p.fault.alarm := by cases l <;> exact ⟨rfl, rfl, rfl⟩

/-- Acknowledging changes the latches and the alarm line alone (R185). -/
theorem ackAll_fault (cs : List Cond) (p : Part) : ∃ ls : List Cond, ls.Sublist p.fault.latches
    ∧ (ackAll cs p).fault = { p.fault with latches := ls, alarm := alarmValue { p.fault with latches := ls } } := by
  have key : ∀ (cs : List Cond) (q : Part), (∃ ls : List Cond, ls.Sublist p.fault.latches ∧ q.fault = { p.fault with latches := ls }) →
      ∃ ls : List Cond, ls.Sublist p.fault.latches ∧ (forAll cs ackOne q).fault = { p.fault with latches := ls } := by
    intro cs
    induction cs with
    | nil => exact fun q hq => hq
    | cons c cs ih =>
      intro q ⟨ls, hls, hq⟩
      refine ih (ackOne c q) ?_
      unfold ackOne
      split
      · exact ⟨ls, hls, hq⟩
      · exact ⟨ls.filter (fun d => d != c), List.filter_sublist.trans hls, by simp [latchClear, hq]⟩
  obtain ⟨ls, hls, hq⟩ := key cs p ⟨p.fault.latches, List.Sublist.refl _, rfl⟩
  exact ⟨ls, hls, by rw [ackAll, (alarmEval_frame _).2.2.2.2.2.2.2.2.2.2.2, hq]⟩

/-- The latches listed in order, and the alarm line that follows them. -/
theorem latches_law : FaultLaw (fun _ => True) (fun u => u.latches.Sublist allConds) where
  report _ _ _ _ hq := by simpa using hq
  due _ _ hq := hq
  fatal _ hq := hq
  latch c p hq := by
    rw [latchSet_fault]
    split
    · exact hq
    · exact List.filter_sublist
  logRead l p _ hq := by rwa [(modLog_flags l _ p).1]
  logClear l _ p _ _ _ hq := by rwa [(modLog_flags l _ p).1]
  ack cs p _ hq := by
    obtain ⟨ls, hls, he⟩ := ackAll_fault cs p
    rw [he]
    exact hls.trans hq
  mask _ _ _ hq := hq
  reset _ := List.nil_sublist _

theorem alarm_law : FaultLaw (fun _ => True) (fun u => u.alarm = alarmValue u) where
  report _ _ _ _ hq := by rw [report_alarm]; simpa using hq
  due _ _ hq := hq
  fatal _ hq := hq
  latch c p hq := by
    rw [latchSet_fault]
    split
    · exact hq
    · rfl
  logRead l p _ hq := by
    obtain ⟨h1, h2, h3⟩ := modLog_flags l markRead p
    rw [alarmValue, h1, h2, h3]; exact hq
  logClear l _ p _ _ _ hq := by
    obtain ⟨h1, h2, h3⟩ := modLog_flags l (fun _ => none) p
    rw [alarmValue, h1, h2, h3]; exact hq
  ack cs p _ _ := by
    obtain ⟨ls, _, he⟩ := ackAll_fault cs p
    rw [he]; rfl
  mask _ _ _ _ := rfl
  reset _ := rfl

end Sys2Proof.Machine.Keeping

namespace Sys2Proof.Machine.FatalLaw

open Keeping Frames RecordsLaw

/-! ### Device fatal holds every lane FAULTED -/

/-- While the flag stands no lane leaves FAULTED. -/
def fatalHeld (p : Part) : Prop := p.fault.deviceFatal = true → ∀ n, (p.lanes.get n).state = .faulted

section Fatal
variable {p q : Part}

theorem fatalHeld_of (n : Ix) {f : Lane → Lane} (hf : q.fault.deviceFatal = p.fault.deviceFatal)
    (hl : q.lanes = p.lanes.modify n f)
    (hs : (p.lanes.get n).state = .faulted → (f (p.lanes.get n)).state = .faulted) (hp : fatalHeld p) : fatalHeld q := by
  intro hq m
  have hm := hp (hf ▸ hq)
  rw [hl, Four.get_modify]
  split
  · next e => subst e; exact hs (hm m)
  · exact hm m

theorem fatalHeld_congr (hf : q.fault.deviceFatal = p.fault.deviceFatal) (hl : q.lanes = p.lanes) (hp : fatalHeld p) :
    fatalHeld q := by
  unfold fatalHeld
  rwa [hf, hl]

theorem fatal_store : StoreKeeps fatalHeld := store_free {
  store := fun _ _ _ hp => hp
  black := fun _ _ hp => hp
  line := fun _ _ _ _ _ hp => hp
  report := fun l c d p hp => fatalHeld_congr (by simp) (by simp) hp
  due := fun _ hp => hp
  latch := fun c p hp => fatalHeld_congr (by simp) (by simp) hp }

theorem fatal_outs : OutFree fatalHeld where
  out _ _ _ hp := hp
  mgmt _ _ hp := hp
  ref r _ _ hp := by cases r <;> exact hp

theorem fatal_feeds : FeedKeeps (fun _ => True) fatalHeld :=
  feed_free { fatal_store with feed := fun _ _ _ hp => hp } (fun _ _ _ _ _ hp => hp)

theorem fatalHeld_modLane {n : Ix} {f : Lane → Lane}
    (hs : (p.lanes.get n).state = .faulted → (f (p.lanes.get n)).state = .faulted) (hp : fatalHeld p) :
    fatalHeld (modLane n f p) := fatalHeld_of (p := p) n rfl rfl hs hp

/-- The flag is set by the entry to device fatal alone. -/
theorem flag_store (c : Bool) : StoreKeeps (fun p => p.fault.deviceFatal = c) := store_free {
  store := fun _ _ _ hp => hp
  black := fun _ _ hp => hp
  line := fun _ _ _ _ _ hp => hp
  report := fun l c d p hp => by simpa using hp
  due := fun _ hp => hp
  latch := fun c p hp => by simpa using hp }

theorem flag_lanes (c : Bool) : LaneKeeps (fun _ => True) (fun p => p.fault.deviceFatal = c) :=
  lane_free { flag_store c with lane := fun _ _ _ hp => hp, endLaneOp := fun n s _ hp => by simpa using hp } _

theorem jobEnded_state (l : Lane) : (jobEnded l).state = l.state := by unfold jobEnded; split <;> rfl
theorem swapped_state (l : Lane) : (swapped l).state = l.state := by unfold swapped; split <;> rfl
theorem carryRoomed_state (l : Lane) : (carryRoomed l).state = l.state := by unfold carryRoomed; split <;> rfl

theorem LaneChange.faulted {b : Bool} {l l' : Lane} (h : LaneChange b l l') (hl : l.state = .faulted) : l'.state = .faulted := by
  have hs := h.state
  cases b with
  | true => rw [hl] at hs; cases hs.1
  | false => exact (show l'.state = l.state from hs).trans hl

theorem fatal_lanes : LaneKeeps (fun _ => True) fatalHeld where
  lane n f p _ h hp := fatalHeld_modLane (LaneChange.faulted h) hp
  laneRuns n f p _ h hp := fatalHeld_modLane (LaneChange.faulted h) hp
  laneStop n s p _ hs _ _ _ hp := fatalHeld_modLane (fun hl => by
    rcases hs with hs | ⟨_, hr⟩
    · exact hs
    · rw [hl] at hr; cases hr) hp
  faultStopped n p _ _ hp := fatalHeld_modLane (fun _ => rfl) hp
  endJob n p _ hp := fatalHeld_of n ((flag_lanes _).endJob n p trivial rfl) (endJob_lanes n p)
    (jobEnded_state _).trans hp
  abandonJob n p _ hp := fatalHeld_of n ((flag_lanes _).abandonJob n p trivial rfl) (abandonJob_lanes n p)
    (abandoned_state _).trans hp
  carryShrink n f p _ _ hp := fatalHeld_modLane id hp
  carryPacket n m k p _ hr hp := fatalHeld_of m ((flag_lanes _).carryPacket n m k p trivial hr rfl)
    (carryPacket_lanes n m p k) (carryRoomed_state _).trans hp
  commitSwap n p _ hp := fatalHeld_of n ((flag_lanes _).commitSwap n p trivial rfl) (commitSwap_lanes n p)
    (swapped_state _).trans hp
  endPending n s p _ hp := fatalHeld_of (p := p) n (f := fun l => { l with acquireAt := none, commit := none })
    (by simp [clearPending]) (by simp [clearPending]) id hp
  endStart n s p _ _ hp := fatalHeld_of (p := p) n (f := fun l => { l with acquireAt := none }) (by simp) (by simp) id hp
  endCommit n s p _ _ hp := fatalHeld_of (p := p) n (f := fun l => { l with commit := none }) (by simp) (by simp) id hp
  endOther n s p _ _ hp := fatalHeld_congr (by simp) (by simp) hp
  jobSet n job p _ _ _ _ _ hp := fatalHeld_modLane id hp
  pin n source k p _ hj hp := fatalHeld_of n ((flag_lanes _).pin n source k p trivial hj rfl) (pinOne_lanes n p source k)
    (fun hl => by dsimp only; split <;> exact hl) hp

theorem fatal_keeps : Keeps (fun _ => True) fatalHeld := ⟨fatal_store, fatal_feeds, fatal_lanes, out_free fatal_outs _⟩

/-- No operation is pending on a FAULTED lane. -/
theorem not_pending {n : Ix} {k : PendingKind} (hm : lanesMirror p) (hk : laneOpKind p n = some k) :
    (p.lanes.get n).state ≠ .faulted := fun hs => by
  rw [laneOpKind, (hm n).idle (.inr hs)] at hk
  cases hk

theorem fatal_laneCommands : LaneCommands (fun _ => True) (fun _ _ p => lanesMirror p ∧ fatalHeld p) where
  profile l k n v p hA hs hp := ⟨mirror_laneCommands.profile l k n v p hA hs hp.1, fatalHeld_modLane (fun hl => by
    unfold storeProfile; split <;> exact hl) hp.2⟩
  start l n op p hA hop ho he hs hp := ⟨mirror_laneCommands.start l n op p hA hop ho he hs hp.1,
    fatalHeld_modLane (p := fillRecord (.lane n) op p) (fun hl => by cases hs.symm.trans hl) hp.2⟩
  resumed l k n p hA hs hf hp := ⟨mirror_laneCommands.resumed l k n p hA hs hf hp.1, fun h => by cases hf.symm.trans h⟩
  shadow l k n t first rows p hA hc hp :=
    ⟨mirror_laneCommands.shadow l k n t first rows p hA hc hp.1, fatalHeld_modLane id hp.2⟩
  commitWaits l n op c p hA hop ho he hc hr hp := ⟨mirror_laneCommands.commitWaits l n op c p hA hop ho he hc hr hp.1,
    fatalHeld_modLane (p := fillRecord (.lane n) op p) id hp.2⟩
  commitNow l n op c p hA hop ho he hc hr hp := ⟨mirror_laneCommands.commitNow l n op c p hA hop ho he hc hr hp.1,
    fatal_lanes.commitSwap n _ trivial (fatalHeld_modLane (p := fillRecord (.lane n) op p) id hp.2)⟩
  route l k n t p hA ht hp := ⟨mirror_laneCommands.route l k n t p hA ht hp.1, fatalHeld_modLane id hp.2⟩
  halted l k n p hA hk hj hc hp := by
    refine ⟨mirror_laneCommands.halted l k n p hA hk hj hc hp.1, ?_⟩
    have hflag : (haltStart n (leaveRunning n .stopped p)).fault.deviceFatal = p.fault.deviceFatal := by
      have hK : Keeps (fun _ => True) (fun q => q.fault.deviceFatal = p.fault.deviceFatal) :=
        ⟨flag_store _, feed_free { flag_store _ with feed := fun _ _ _ hp => hp } (fun _ _ _ _ _ hp => hp), flag_lanes _,
          out_free { out := fun _ _ _ hp => hp, mgmt := fun _ _ hp => hp, ref := fun r _ _ hp => by cases r <;> exact hp } _⟩
      refine hK.haltStart n ?_
      unfold leaveRunning
      dsimp only
      split
      · exact hK.recapture trivial (hK.flush _ _ trivial rfl)
      · exact hK.recapture (p := modLane n _ p) trivial rfl
    intro hf
    exact absurd (hp.2 (hflag ▸ hf) n) (not_pending hp.1 hk)

/-- The law inside an event: the records mirrored, and device fatal holds the lanes. -/
def heldLaw (p : Part) : Prop := lanesMirror p ∧ fatalHeld p

/-- The law between events: besides, no integrity error is left to act on. -/
def settledLaw (p : Part) : Prop := lanesMirror p ∧ fatalOk p

/-! ### The end of a step -/

theorem deviceFatalLane_states (n m : Ix) (p : Part) : ((deviceFatalLane n p).lanes.get m).state =
    if m = n then .faulted else (p.lanes.get m).state := by
  have fatal : ((laneFatal n p).lanes.get m).state = if m = n then .faulted else (p.lanes.get m).state := by
    simp only [laneFatal, bumpLane_eq, modLane_lanes, latchSet_frame, leaveRunning_lanes, clearPending,
      endLaneOp_frame, clearLane_lanes, Four.modify_modify, Four.get_modify]
    split <;> rfl
  unfold deviceFatalLane
  split <;> rename_i hs
  · split
    · next h => rw [h, hs]
    · rfl
  · simp only [bumpLane_eq, modLane_lanes, latchSet_frame, Four.modify_modify, Four.get_modify]
    split <;> rfl
  all_goals exact fatal

theorem enterDeviceFatal_states (n : Ix) (p : Part) : ((enterDeviceFatal p).lanes.get n).state = .faulted := by
  have e (q : Part) : forEach deviceFatalLane q
      = deviceFatalLane 3 (deviceFatalLane 2 (deviceFatalLane 1 (deviceFatalLane 0 q))) := rfl
  simp only [enterDeviceFatal, e, deviceFatalLane_states]
  revert n
  exact Ix.cases rfl rfl rfl rfl

theorem settle_fatalOk (p : Part) (hp : fatalHeld p) : fatalOk (settle p) := by
  unfold settle
  split
  · refine ⟨rfl, fun _ n => ?_⟩
    dsimp only
    split
    · next hf => exact hp hf n
    · exact enterDeviceFatal_states n p
  · next h => exact ⟨Bool.eq_false_iff.2 h, hp⟩

theorem held_law : Law (fun _ => True) settledLaw heldLaw (fun _ _ => heldLaw) where
  opened _ _ _ _ hp := hp
  reply _ _ _ _ hp := hp
  unreserve _ _ _ hp := hp
  mgmtCtr _ _ _ _ hp := hp
  toLaneCommands := fatal_laneCommands
  setOutput _ _ _ _ _ _ _ _ _ hp := hp
  relockNow l n op p hA hop ho hr hp :=
    ⟨mirror_law.relockNow l n op p hA hop ho hr hp.1, fatalHeld_congr (by simp [fillRecord]) (by simp [fillRecord]) hp.2⟩
  relockWaits _ _ _ _ _ _ _ _ hp := hp
  logRead _ _ l p _ hp := ⟨hp.1, fatalHeld_congr (p := p) (by cases l <;> rfl) rfl hp.2⟩
  logClear _ _ l _ p _ _ _ hp := ⟨hp.1, fatalHeld_congr (p := p) (by cases l <;> rfl) rfl hp.2⟩
  ack l k cs p hA hp := by
    obtain ⟨ls, _, he⟩ := ackAll_fault cs p
    refine ⟨mirror_law.ack l k cs p hA hp.1, fatalHeld_congr (by rw [he]) ?_ hp.2⟩
    exact ackAll_kept (P := fun q => q.lanes = p.lanes) (fun _ _ hp => hp) cs rfl
  mask _ _ _ _ _ hp := hp
  storeCtr _ _ _ _ hp := hp
  deviceReset l k p hA hp := ⟨mirror_law.deviceReset l k p hA hp.1, deviceReset_kept fatal_store
    (fun n k _ => fatal_outs.placeNotice n k) (fun h => by cases h)⟩
  settings _ _ _ _ _ _ hp := hp
  mute _ _ _ _ _ hp := hp
  keeps _ _ := mirror_keeps.and fatal_keeps
  arrive n ws p hp := ⟨mirror_law.arrive n ws p hp.1, fatal_outs.arrive n ws hp.2⟩
  inEvent _ hp := ⟨hp.1, hp.2.2⟩
  taking _ _ := Iff.rfl
  upset u p hp := ⟨mirror_law.upset u p hp.1, by
    cases u with
    | storedSample => exact hp.2
    | slotRecord => exact hp.2
    | tableRow n t b row => exact fatalHeld_modLane id hp.2
    | carryItem n i => exact fatalHeld_modLane id hp.2⟩
  advance _ _ hp := hp
  settle p hp := ⟨mirror_law.settle p hp.1, settle_fatalOk p hp.2⟩

/-- Settles O10: the latches are set and cleared with the alarm line re-evaluated, and a step ends with every lane FAULTED
where it enters device fatal. -/
theorem faultUnitLawsStay : Obligations.FaultUnitLawsStay := by
  have all : ∀ c : Nat, (fun _ => True) c := fun _ => trivial
  refine ⟨fun s t ⟨hr, ha, hf⟩ he => ⟨recordsOk_kept s t hr he, ?_, ?_⟩, ?_⟩
  · exact alarm_law.law.kept all (fun _ _ _ => rfl) s t ha he
  · exact (held_law.kept all (fun _ _ _ => ⟨lanesMirror_reset rfl rfl, rfl, fun h => by cases h⟩) s t
      ⟨((recordsOk_iff _).1 hr).1, hf⟩ he).2
  · exact latches_law.law.kept all (fun _ _ _ => List.nil_sublist _)

end Fatal
end Sys2Proof.Machine.FatalLaw
end

section
/-! SUPPORT. The slot records (O9): what each operation of the store makes of one record, and the laws of the free list, the
quarantine count, the ceiling and the pins as facts about one changed record. -/

namespace Sys2Proof.Machine.SlotsLaw

open Keeping Frames

/-! ### One record changed -/

section Records
variable {p q : Part} {k : SlotIx} {r : SlotRec}

theorem slotOf_set (h : q.store.slots = p.store.slots.set k.val r) (j : SlotIx) :
    slotOf q j = if j = k then r else slotOf p j := by
  have e : slotOf q j = (p.store.slots.set k.val r)[j.val] := by rw [slotOf, ← h]
  rw [e, Vector.getElem_set]
  by_cases hj : j = k
  · subst hj; simp
  · rw [if_neg hj, if_neg (fun h => hj (Fin.ext h).symm)]; rfl

theorem modSlot_slots (f : SlotRec → SlotRec) :
    (modSlot k f p).store.slots = p.store.slots.set k.val { f (slotOf p k) with intact := true } := rfl

theorem slotOf_modSlot (f : SlotRec → SlotRec) (j : SlotIx) :
    slotOf (modSlot k f p) j = if j = k then { f (slotOf p k) with intact := true } else slotOf p j :=
  slotOf_set (modSlot_slots f) j

/-- The number of records with a property, after one of them has changed. -/
theorem countP_set (f : SlotRec → Bool) (h : q.store.slots = p.store.slots.set k.val r) :
    q.store.slots.toList.countP f + (if f (slotOf p k) then 1 else 0)
      = p.store.slots.toList.countP f + (if f r then 1 else 0) := by
  have hk : k.val < p.store.slots.toList.length := by simp
  have hm : (slotOf p k) ∈ p.store.slots.toList := by
    rw [slotOf, ← Vector.getElem_toList hk]; exact List.getElem_mem hk
  have hpos : (if f (slotOf p k) then 1 else 0) ≤ p.store.slots.toList.countP f := by
    split
    · next hf => exact List.countP_pos_iff.2 ⟨_, hm, hf⟩
    · exact Nat.zero_le _
  have he : p.store.slots.toList[k.val] = slotOf p k := Vector.getElem_toList hk
  rw [h, Vector.toList_set, List.countP_set hk, he]
  omega

/-- The feed holds the slot in FILLING, HISTORY or RETIRING (R48). -/
def heldFor (n : Ix) (r : SlotRec) : Bool :=
  decide (r.owner = some n) && (r.state == .filling || r.state == .history || r.state == .retiring)

theorem heldBy_eq (p : Part) (n : Ix) : heldBy p n = p.store.slots.toList.countP (heldFor n) := rfl

/-- The law of pins of one record (R52, R53). -/
structure PinsOk (r : SlotRec) : Prop where
  retiring : r.state = .retiring → 1 ≤ r.pins
  idle : r.state = .free ∨ r.state = .quarantined ∨ r.state = .uninitialized → r.pins = 0 ∧ r.owner = none
  most : r.pins ≤ 4

theorem pinsOk_iff (p : Part) : pinsOk p ↔ ∀ k, PinsOk (slotOf p k) :=
  forall_congr' fun _ => ⟨fun ⟨a, b, c⟩ => ⟨a, b, c⟩, fun ⟨a, b, c⟩ => ⟨a, b, c⟩⟩

/-- One record changed with free list and quarantine count to fit: the law of the store is kept. -/
theorem storeOk_set (hp : storeOk p) (hs : q.store.slots = p.store.slots.set k.val r) (hr : PinsOk r)
    (hheld : ∀ n, heldFor n r = true → heldFor n (slotOf p k) = true ∨ heldBy p n < 11)
    (hnodup : q.store.freeList.Nodup)
    (hfree : ∀ j, j ∈ q.store.freeList ↔ if j = k then r.state = .free else j ∈ p.store.freeList)
    (hq : q.store.quarantine + (if (slotOf p k).state = .quarantined then 1 else 0)
      = p.store.quarantine + (if r.state = .quarantined then 1 else 0)) : storeOk q := by
  obtain ⟨_, hf, hqc, hh, hpins⟩ := hp
  refine ⟨hnodup, fun j => ?_, ?_, fun n => ?_, ?_⟩
  · rw [hfree, slotOf_set hs]
    split
    · rfl
    · exact hf j
  · have hc := countP_set (fun r => r.state == .quarantined) hs
    simp only [countSlots, beq_iff_eq] at hc hqc ⊢
    omega
  · have hc := countP_set (heldFor n) hs
    have hn := hh n
    rw [heldBy_eq] at hn ⊢
    by_cases hr' : heldFor n r = true
    · rcases hheld n hr' with ho | hl
      · simp only [hr', ho, if_true] at hc; omega
      · rw [heldBy_eq] at hl
        simp only [hr', if_true] at hc
        omega
    · simp only [hr', Bool.false_eq_true, if_false] at hc; omega
  · rw [pinsOk_iff] at hpins ⊢
    intro j
    rw [slotOf_set hs]
    split
    · exact hr
    · exact hpins j

/-- A change of a record that leaves its state's place: neither FREE nor QUARANTINED comes or goes. -/
theorem storeOk_record (hp : storeOk p) (hs : q.store.slots = p.store.slots.set k.val r) (hr : PinsOk r)
    (hheld : ∀ n, heldFor n r = true → heldFor n (slotOf p k) = true)
    (hfree : q.store.freeList = p.store.freeList) (hquar : q.store.quarantine = p.store.quarantine)
    (hstate : r.state = .free ↔ (slotOf p k).state = .free)
    (hq : r.state = .quarantined ↔ (slotOf p k).state = .quarantined) : storeOk q := by
  refine storeOk_set hp hs hr (fun n h => .inl (hheld n h)) (hfree ▸ hp.1) (fun j => ?_) (by simp only [hquar, hq])
  rw [hfree]
  split
  · next h => subst h; rw [hp.2.1, hstate]
  · rfl

theorem storeOk_congr (hs : q.store.slots = p.store.slots) (hf : q.store.freeList = p.store.freeList)
    (hq : q.store.quarantine = p.store.quarantine) (hp : storeOk p) : storeOk q := by
  unfold storeOk at hp ⊢
  simp only [pinsOk, countSlots, heldBy, slotOf] at hp ⊢
  simp only [hs, hf, hq]
  exact hp

end Records

/-! ### The operations of the store -/

section Ops
variable {p q : Part} {k : SlotIx} {r : SlotRec}

/-- A slot without a pin, of no other place, joins the free list at its tail. -/
theorem storeOk_freed (hp : storeOk p) (hs : q.store.slots = p.store.slots.set k.val r) (hr : r.state = .free)
    (hpins : r.pins = 0) (hown : r.owner = none) (hfree : q.store.freeList = p.store.freeList ++ [k])
    (hold : (slotOf p k).state ≠ .free)
    (hq : q.store.quarantine + (if (slotOf p k).state = .quarantined then 1 else 0) = p.store.quarantine) : storeOk q := by
  have hk : k ∉ p.store.freeList := fun h => hold ((hp.2.1 k).1 h)
  refine storeOk_set hp hs ⟨by simp [hr], fun _ => ⟨hpins, hown⟩, by omega⟩ (fun n h => ?_) ?_ (fun j => ?_) ?_
  · simp [heldFor, hown] at h
  · rw [hfree]
    exact List.nodup_append.2 ⟨hp.1, List.nodup_singleton _, fun a ha b hb => by
      rw [List.mem_singleton.1 hb]; exact fun e => hk (e ▸ ha)⟩
  · rw [hfree, List.mem_append, List.mem_singleton]
    split
    · next h => simp [h, hr]
    · next h => simp [h]
  · simpa [hr] using hq

/-- A slot without a pin goes into quarantine and is counted. -/
theorem storeOk_quarantined (hp : storeOk p) (hs : q.store.slots = p.store.slots.set k.val r) (hr : r.state = .quarantined)
    (hpins : r.pins = 0) (hown : r.owner = none) (hfree : q.store.freeList = p.store.freeList)
    (hold : (slotOf p k).state ≠ .free) (hold' : (slotOf p k).state ≠ .quarantined)
    (hq : q.store.quarantine = p.store.quarantine + 1) : storeOk q := by
  have hk : k ∉ p.store.freeList := fun h => hold ((hp.2.1 k).1 h)
  refine storeOk_set hp hs ⟨by simp [hr], fun _ => ⟨hpins, hown⟩, by omega⟩ (fun n h => ?_) (hfree ▸ hp.1) (fun j => ?_) ?_
  · simp [heldFor, hown] at h
  · rw [hfree]
    split
    · next h => subst h; simp [hk, hr]
    · rfl
  · simp [hr, hold', hq]

theorem slotToQuarantine_store (k : SlotIx) (p : Part) : (slotToQuarantine k p).store =
    { p.store with
      slots := p.store.slots.set k.val { slotOf p k with state := .quarantined, owner := none, intact := true }
      quarantine := p.store.quarantine + 1
      ctr := { p.store.ctr with quarantineEntries := bump p.store.ctr.quarantineEntries } } := by
  unfold slotToQuarantine
  dsimp only
  split
  · simp only [poolDegrade, report_frame, latchSet_frame]; rfl
  · rfl

theorem slotToFree_store (k : SlotIx) (p : Part) : (slotToFree k p).store =
    { p.store with
      slots := p.store.slots.set k.val { slotOf p k with state := .free, owner := none, intact := true }
      freeList := p.store.freeList ++ [k] } := rfl

/-- A slot moves on without a pin: from a record `r0` just set, of a slot that was in use. -/
theorem storeOk_released {r0 : SlotRec} (hp : storeOk p) (hs : q.store.slots = p.store.slots.set k.val r0)
    (hf : q.store.freeList = p.store.freeList) (hq : q.store.quarantine = p.store.quarantine) (hpins : r0.pins = 0)
    (hold : (slotOf p k).state ≠ .free) (hold' : (slotOf p k).state ≠ .quarantined) : storeOk (releaseSlot k q) := by
  have h0 : slotOf q k = r0 := by rw [slotOf_set hs, if_pos rfl]
  unfold releaseSlot
  split
  · refine storeOk_quarantined (k := k) (r := { r0 with state := .quarantined, owner := none, intact := true }) hp ?_ rfl hpins rfl ?_ hold hold' ?_
    · rw [slotToQuarantine_store, h0, hs, Vector.set_set]
    · rw [slotToQuarantine_store, hf]
    · rw [slotToQuarantine_store, hq]
  · refine storeOk_freed (k := k) (r := { r0 with state := .free, owner := none, intact := true }) hp ?_ rfl hpins rfl ?_ hold ?_
    · rw [slotToFree_store, h0, hs, Vector.set_set]
    · rw [slotToFree_store, hf]
    · rw [slotToFree_store, hq]; simp [hold']

theorem set_self (p : Part) (k : SlotIx) : p.store.slots = p.store.slots.set k.val (slotOf p k) :=
  (Vector.set_getElem_self _).symm

theorem storeOk_report (l : LogId) (c : ErrCode) (d : Detail) (hp : storeOk p) : storeOk (report l c d p) :=
  storeOk_congr (by simp) (by simp) (by simp) hp

theorem storeOk_integrityError (k : SlotIx) (hp : storeOk p) : storeOk (integrityError k p) :=
  storeOk_congr (p := report .dl .slotRecord (.slot k.val) p) rfl rfl rfl (storeOk_report _ _ _ hp)

theorem storeOk_reportOwner (k : SlotIx) (c : ErrCode) (hp : storeOk p) : storeOk (reportOwner k c p) := by
  unfold reportOwner
  split
  · exact storeOk_report _ _ _ hp
  · exact hp

theorem pins_of (hp : storeOk p) (k : SlotIx) : PinsOk (slotOf p k) := (pinsOk_iff p).1 hp.2.2.2.2 k

theorem storeOk_returnSlot (n : Ix) (k : SlotIx) (hp : storeOk p) : storeOk (returnSlot n k p) := by
  unfold returnSlot
  dsimp only
  split
  · next h =>
    simp only [Bool.and_eq_true, decide_eq_true_eq, Bool.or_eq_true, beq_iff_eq] at h
    obtain ⟨⟨_, hown⟩, hst⟩ := h
    have hnf : (slotOf p k).state ≠ .free := by rcases hst with h | h <;> simp [h]
    have hnq : (slotOf p k).state ≠ .quarantined := by rcases hst with h | h <;> simp [h]
    split
    · next hpins =>
      refine storeOk_record hp (modSlot_slots _) ⟨fun _ => hpins, by simp, (pins_of hp k).most⟩ (fun m hm => ?_) rfl rfl
        (by simp [hnf]) (by simp [hnq])
      simp only [heldFor, Bool.and_eq_true, decide_eq_true_eq] at hm ⊢
      exact ⟨hm.1, by rcases hst with h | h <;> simp [h]⟩
    · exact storeOk_released hp (set_self p k) rfl rfl (by omega) hnf hnq
  · exact storeOk_integrityError k hp

theorem storeOk_grant (n : Ix) (hp : storeOk p) : storeOk (grant n p).1 := by
  unfold grant
  split
  · exact hp
  · next hceil =>
    split
    · exact hp
    · next k rest hfl =>
      dsimp only
      split
      · next h =>
        simp only [Bool.and_eq_true, beq_iff_eq] at h
        have hnd := hp.1
        rw [hfl] at hnd
        obtain ⟨hkr, hnd'⟩ := List.nodup_cons.1 hnd
        refine storeOk_set (k := k)
          (r := { slotOf p k with state := .filling, owner := some n, pins := 0, poisoned := false, intact := true }) hp rfl
          ⟨by simp, by simp, by simp⟩ (fun m hm => ?_) hnd' (fun j => ?_) (by simp [h.2])
        · simp only [heldFor, Bool.and_eq_true, decide_eq_true_eq, Option.some.injEq] at hm
          obtain rfl := hm.1
          exact .inr (not_le.1 hceil)
        · show j ∈ rest ↔ _
          rw [hfl]
          split
          · next e => subst e; simp [hkr]
          · next e => simp [e]
      · exact storeOk_integrityError k hp

theorem storeOk_pinSlot (n : Ix) (k : SlotIx) (hp : storeOk p) : storeOk (pinSlot n k p).1 := by
  unfold pinSlot
  dsimp only
  split
  · next h =>
    simp only [Bool.and_eq_true, decide_eq_true_eq, beq_iff_eq] at h
    obtain ⟨⟨⟨⟨_, hst⟩, _⟩, _⟩, hlt⟩ := h
    exact storeOk_record hp (modSlot_slots _) ⟨by simp [hst], by simp [hst], by simp only; omega⟩ (fun m hm => hm) rfl rfl
      Iff.rfl Iff.rfl
  · exact storeOk_integrityError k hp

theorem storeOk_completeSlot (k : SlotIx) (hp : storeOk p) : storeOk (completeSlot k p) := by
  unfold completeSlot
  dsimp only
  split
  · next h =>
    simp only [Bool.and_eq_true, beq_iff_eq] at h
    refine storeOk_record hp (modSlot_slots _) ⟨by simp, by simp, (pins_of hp k).most⟩ (fun m hm => ?_) rfl rfl (by simp [h.2])
      (by simp [h.2])
    simp only [heldFor, Bool.and_eq_true, decide_eq_true_eq] at hm ⊢
    exact ⟨hm.1, by simp [h.2]⟩
  · exact storeOk_integrityError k hp

theorem storeOk_unpinSlot (k : SlotIx) (hp : storeOk p) : storeOk (unpinSlot k p) := by
  have hpins := pins_of hp k
  unfold unpinSlot
  dsimp only
  split
  · next h =>
    simp only [Bool.and_eq_true, decide_eq_true_eq] at h
    split
    · next hlast =>
      simp only [Bool.and_eq_true, decide_eq_true_eq, beq_iff_eq] at hlast
      exact storeOk_released hp (modSlot_slots _) rfl rfl (by simp [hlast.1]) (by simp [hlast.2]) (by simp [hlast.2])
    · next hlast =>
      simp only [Bool.and_eq_true, decide_eq_true_eq, beq_iff_eq, not_and] at hlast
      refine storeOk_record hp (modSlot_slots _) ⟨fun hr => ?_, fun hi => ?_, ?_⟩ (fun m hm => hm) rfl rfl Iff.rfl Iff.rfl
      · simp only at hr ⊢
        have := hpins.retiring hr
        have h1 : (slotOf p k).pins ≠ 1 := fun e => hlast e hr
        omega
      · have := (hpins.idle hi).1
        omega
      · have := hpins.most
        simp only
        omega
  · exact storeOk_integrityError k hp

theorem storeOk_correctedRead (k : SlotIx) (hp : storeOk p) : storeOk (correctedRead k p) := by
  have hpins := pins_of hp k
  unfold correctedRead
  split
  · refine storeOk_reportOwner k _ ?_
    exact storeOk_record (k := k) (r := { slotOf p k with corrected := saturate 255 (slotOf p k).corrected, intact := true })
      hp rfl ⟨hpins.retiring, hpins.idle, hpins.most⟩ (fun _ hm => hm) rfl rfl Iff.rfl Iff.rfl
  · exact storeOk_integrityError k hp

theorem storeOk_uncorrectableRead (k : SlotIx) (hp : storeOk p) : storeOk (uncorrectableRead k p) := by
  have hpins := pins_of hp k
  unfold uncorrectableRead
  split
  · dsimp only
    split
    · exact hp
    · refine storeOk_reportOwner k _ ?_
      exact storeOk_record (q := modSlot k _ (bumpStore _ p)) hp (modSlot_slots (p := bumpStore _ p) _)
        ⟨hpins.retiring, hpins.idle, hpins.most⟩ (fun m hm => hm) rfl rfl Iff.rfl Iff.rfl
  · exact storeOk_integrityError k hp

theorem storeOk_initEnd (k : SlotIx) (hp : storeOk p) : storeOk (initEnd k p) := by
  have hpins := pins_of hp k
  have hq : storeOk (modStore (fun st => { st with mem := memoryBlacken k st.mem, ecc := eccClear k st.ecc }) p) := hp
  unfold initEnd
  dsimp only
  refine storeOk_congr (q := initAdvance _) rfl rfl rfl ?_
  split
  · split
    · next hst =>
      have hst' : (slotOf p k).state = .uninitialized := hst
      exact storeOk_freed hq rfl rfl (hpins.idle (by simp [hst'])).1 rfl rfl (by rw [hst]; simp) (by rw [hst]; simp; rfl)
    · exact hq
  · exact storeOk_integrityError k hq

theorem storeOk_releaseQuarantined (k : SlotIx) (hp : storeOk p) : storeOk (releaseQuarantined k p) := by
  have hpins := pins_of hp k
  unfold releaseQuarantined
  split
  · next hst =>
    split
    · have hcount : 0 < p.store.quarantine := by
        rw [hp.2.2.1]
        exact List.countP_pos_iff.2 ⟨slotOf p k, by
          rw [slotOf, ← Vector.getElem_toList (by simp)]; exact List.getElem_mem _, by simp [hst]⟩
      refine storeOk_freed (k := k) (r := { slotOf p k with
        state := .free, owner := none, poisoned := false, corrected := 0, intact := true }) hp ?_ rfl
        (hpins.idle (by simp [hst])).1 rfl rfl (by simp [hst]) ?_
      · show ((p.store.slots.set k.val _).set k.val _) = _
        rw [Vector.set_set]
        congr 1
        simp [slotOf]
      · show p.store.quarantine - 1 + _ = _
        simp only [hst, if_true]
        omega
    · exact storeOk_integrityError k hp
  · exact hp

theorem store_keeps : StoreKeeps storeOk where
  report l c d p hp := storeOk_report l c d hp
  due _ hp := hp
  latch c p hp := storeOk_congr (by simp) (by simp) (by simp) hp
  returnSlot n k _ hp := storeOk_returnSlot n k hp
  grant n _ hp := storeOk_grant n hp
  pinSlot n k _ hp := storeOk_pinSlot n k hp
  completeSlot k _ hp := storeOk_completeSlot k hp
  unpinSlot k _ hp := storeOk_unpinSlot k hp
  correctedRead k _ hp := storeOk_correctedRead k hp
  uncorrectableRead k _ hp := storeOk_uncorrectableRead k hp
  initEnd k _ hp := storeOk_initEnd k hp
  releaseQuarantined k _ hp := storeOk_releaseQuarantined k hp
  captureLine n line ss p hp := by
    have h : (captureLine n line ss p).store.slots = p.store.slots
        ∧ (captureLine n line ss p).store.freeList = p.store.freeList
        ∧ (captureLine n line ss p).store.quarantine = p.store.quarantine := by
      unfold captureLine
      dsimp only
      split
      · split
        · split <;> exact ⟨rfl, rfl, rfl⟩
        · exact ⟨rfl, rfl, rfl⟩
      · exact ⟨rfl, rfl, rfl⟩
    exact storeOk_congr h.1 h.2.1 h.2.2 hp

end Ops

/-! ### The law -/

theorem outs : OutFree storeOk where
  out _ _ _ hp := hp
  mgmt _ _ hp := hp
  ref r _ _ hp := by cases r <;> exact hp

theorem lanes : LaneFree storeOk :=
  { store_keeps with lane := fun _ _ _ hp => hp, endLaneOp := fun n s _ => outs.endLaneOp n s }

theorem feeds : FeedKeeps (fun _ => True) storeOk :=
  feed_free { store_keeps with feed := fun _ _ _ hp => hp } (fun _ _ _ _ _ hp => hp)

/-- At the begin of an initialisation no slot is FREE, and the quarantined ones are counted. -/
theorem storeOk_beginInit {p : Part} {slots : Vector SlotRec 64} {mem : List (Nat × Sample)} {ecc : List (Nat × EccFault)}
    (hs : p.store = beginInit slots mem ecc)
    (hr : ∀ r ∈ slots.toList, (r.state = .quarantined ∨ r.state = .uninitialized) ∧ r.pins = 0 ∧ r.owner = none) : storeOk p := by
  have hk (k : SlotIx) : slotOf p k ∈ slots.toList := by
    have e : slotOf p k = slots[k.val] := by simp only [slotOf, hs, beginInit]
    rw [e, ← Vector.getElem_toList (by simp)]
    exact List.getElem_mem _
  have hstate (k : SlotIx) : (slotOf p k).state ≠ .free ∧ (slotOf p k).state ≠ .retiring := by
    rcases (hr _ (hk k)).1 with h | h <;> simp [h]
  refine ⟨by simp [hs, beginInit], fun k => by simp [hs, beginInit, hstate], by simp [hs, beginInit, countSlots], fun n => ?_, ?_⟩
  · have h0 : heldBy p n = 0 := by
      rw [heldBy_eq, hs, List.countP_eq_zero]
      intro r hmem
      simp [heldFor, (hr r hmem).2.2]
    omega
  · rw [pinsOk_iff]
    intro k
    obtain ⟨_, hpins, hown⟩ := hr _ (hk k)
    exact ⟨fun h => absurd h (hstate k).2, fun _ => ⟨hpins, hown⟩, by omega⟩

theorem storeOk_pinReset {p : Part} {mem : List (Nat × Sample)} {ecc : List (Nat × EccFault)}
    (hs : p.store = pinResetStore mem ecc) : storeOk p :=
  storeOk_beginInit hs (fun r hr => by
    obtain rfl : r = resetSlot := by simpa using hr
    exact ⟨.inr rfl, rfl, rfl⟩)

theorem storeOk_deviceReset {p : Part} {st : Store} (hs : p.store = deviceResetStore st) : storeOk p :=
  storeOk_beginInit hs (fun r hr => by
    obtain ⟨a, _, rfl⟩ : ∃ a, a ∈ st.slots.toList ∧ deviceResetSlot a = r := by simpa using hr
    unfold deviceResetSlot
    split
    · next h =>
      simp only [keptQuarantined, Bool.and_eq_true, beq_iff_eq] at h
      exact ⟨.inl h.1, rfl, rfl⟩
    · exact ⟨.inr rfl, rfl, rfl⟩)

/-- An error in a slot record spoils its check and nothing else (R58). -/
theorem storeOk_spoil (k : SlotIx) {p : Part} (hp : storeOk p) : storeOk (applyUpset (.slotRecord k) p) := by
  have h := pins_of hp k
  exact storeOk_record (k := k) (r := { slotOf p k with intact := false }) hp rfl ⟨h.retiring, h.idle, h.most⟩
    (fun _ hm => hm) rfl rfl Iff.rfl Iff.rfl

theorem law : Law (fun _ => True) storeOk storeOk (fun _ _ => storeOk) :=
  plain_law ⟨store_keeps, feeds, lane_free lanes _, out_free outs _⟩
    ⟨reply_commands_free outs, lane_commands_free lanes feeds (fun n op _ => fillRecord_kept outs.mgmt (.lane n) op),
      out_commands_free outs, fault_commands_free (fun _ _ hp => hp), fun _ _ _ _ hp => hp,
      fun _ _ _ _ _ => deviceReset_kept store_keeps (fun n k _ => outs.placeNotice n k) (storeOk_deviceReset rfl),
      fun _ _ _ _ _ _ hp => hp, fun _ _ _ _ _ hp => hp⟩
    (fun n ws _ => outs.arrive n ws)
    (fun u p hp => by
      cases u with
      | slotRecord k => exact storeOk_spoil k hp
      | storedSample => exact hp
      | tableRow => exact hp
      | carryItem => exact hp)
    (fun _ _ hp => hp) (fun _ _ hp => hp)

/-- Settles O9: each operation of the store tests the record it changes and moves one slot between the lists. -/
theorem slotsAndFreeListAgree : Obligations.SlotsAndFreeListAgree :=
  law.kept (fun _ => trivial) (fun _ _ _ => storeOk_pinReset rfl)

end Sys2Proof.Machine.SlotsLaw
end

section
/-! SUPPORT. What changes only by its own command: straps, timebase, mute flag, mask, settings, profiles, routing tables,
selects and policies (O14). Each is a law with the value before the step fixed, over the codes of the other commands. -/

namespace Sys2Proof.Machine.Keeping

open Frames

/-- A view of the part that no change of a block touches. -/
structure BlocksBlind {β : Type} (g : Part → β) : Prop extends StoreBlind g where
  link : ∀ n f p, g (modLink n f p) = g p
  feed : ∀ n f p, g (modFeed n f p) = g p
  lane : ∀ n f p, g (modLane n f p) = g p
  out : ∀ n f p, g (modOut n f p) = g p
  mgmt : ∀ f p, g (modMgmt f p) = g p
  ref : ∀ r v p, g (setRef r v p) = g p

section Blind
variable {β : Type} {g : Part → β} (h : BlocksBlind g) {Q : β → Prop} {A : Nat → Prop}
include h

theorem BlocksBlind.stores : StoreKeeps (fun p => Q (g p)) := store_blind h.toStoreBlind Q

theorem BlocksBlind.outs : OutFree (fun p => Q (g p)) where
  out n f p hp := by rwa [h.out]
  mgmt f p hp := by rwa [h.mgmt]
  ref r v p hp := by rwa [h.ref]

theorem BlocksBlind.lanes : LaneFree (fun p => Q (g p)) :=
  { (h.stores (Q := Q)) with
    lane := fun n f p hp => by rwa [h.lane]
    endLaneOp := fun n s _ => h.outs.endLaneOp n s }

theorem BlocksBlind.feeds : FeedKeeps (fun _ => True) (fun p => Q (g p)) :=
  feed_free { (h.stores (Q := Q)) with feed := fun n f p hp => by rwa [h.feed] } (fun n f p _ _ hp => by rwa [h.link])

theorem BlocksBlind.law
    (hcount : ∀ c p, Q (g p) → Q (g (modStore (fun st => { st with ctr := c }) p)))
    (hreset : A 4 → ∀ p, Q (g p) → Q (g (resetPart p.straps (activityOf p) (deviceResetStore p.store))))
    (hmute : A 12 ∨ A 13 → ∀ b p, Q (g p) → Q (g { p with mute := b }))
    (hupset : ∀ u p, Q (g p) → Q (g (applyUpset u p))) (hadvance : ∀ t p, Q (g p) → Q (g (advance t p))) :
    Law A (fun p => Q (g p)) (fun p => Q (g p)) (fun _ _ p => Q (g p)) :=
  have hfault : ∀ f p, Q (g p) → Q (g (modFault f p)) := fun f p hp => by rwa [h.fault]
  plain_law ⟨h.stores, h.feeds, lane_free h.lanes _, out_free h.outs _⟩
    ⟨reply_commands_free h.outs, lane_commands_free h.lanes h.feeds (fun n op _ => fillRecord_kept h.outs.mgmt (.lane n) op),
      out_commands_free h.outs, fault_commands_free hfault, fun _ _ _ _ => hcount _ _,
      fun _ _ p hA hp => deviceReset_kept h.stores (fun n k _ => h.outs.placeNotice n k) (hreset hA p hp),
      fun _ _ n v p _ hp => by rwa [h.link], fun _ _ b p hA => hmute hA b p⟩
    (fun n ws _ => h.outs.arrive n ws) hupset hadvance hfault

end Blind

/-! ### The row of a code -/

/-- The row of a code of the table (Table 52). -/
theorem row_of_code {i : Instr} {k : Nat} (h : codeOf i = some k) (hk : 1 ≤ k ∧ k ≤ 25) :
    ∃ env cmd, i = rowOfCode env cmd (BitVec.ofNat 8 k) := by
  cases i
  case badCode env cmd code =>
    by_cases hc : isTableCode code = true
    · simp [codeOf, hc] at h
    · simp only [codeOf, hc, Bool.false_eq_true, if_false, Option.some.injEq] at h
      subst h
      exact absurd (decide_eq_true hk) hc
  all_goals cases h
  all_goals exact ⟨_, _, rfl⟩

/-- The code of a row is another one, where the row is none of that code's. -/
theorem codeOf_ne {i : Instr} {c k : Nat} (hc : codeOf i = some c)
    (h : ∀ env cmd, i ≠ rowOfCode env cmd (BitVec.ofNat 8 k)) (hk : 1 ≤ k ∧ k ≤ 25 := by decide) : c ≠ k := by
  rintro rfl
  obtain ⟨env, cmd, e⟩ := row_of_code hc hk
  exact h env cmd e

end Sys2Proof.Machine.Keeping

namespace Sys2Proof.Machine.SettingsLaw

open Frames Keeping

theorem straps_blind : BlocksBlind (fun p => p.straps) :=
  { storeBlind_straps with
    link := fun _ _ _ => rfl, feed := fun _ _ _ => rfl, lane := fun _ _ _ => rfl, out := fun _ _ _ => rfl
    mgmt := fun _ _ => rfl, ref := fun r _ _ => by cases r <;> rfl }

theorem timebase_blind : BlocksBlind (fun p => p.timebase) :=
  { storeBlind_timebase with
    link := fun _ _ _ => rfl, feed := fun _ _ _ => rfl, lane := fun _ _ _ => rfl, out := fun _ _ _ => rfl
    mgmt := fun _ _ => rfl, ref := fun r _ _ => by cases r <;> rfl }

theorem mute_blind : BlocksBlind (fun p => p.mute) :=
  { storeBlind_mute with
    link := fun _ _ _ => rfl, feed := fun _ _ _ => rfl, lane := fun _ _ _ => rfl, out := fun _ _ _ => rfl
    mgmt := fun _ _ => rfl, ref := fun r _ _ => by cases r <;> rfl }

theorem straps_law (v : Straps) : Law (fun _ => True) (fun p => p.straps = v) (fun p => p.straps = v) (fun _ _ p => p.straps = v) :=
  straps_blind.law (Q := (· = v)) (fun _ _ hp => hp) (fun _ _ hp => hp) (fun _ _ _ hp => hp)
    (fun u _ hp => by cases u <;> exact hp) (fun _ _ hp => hp)

theorem timebase_law (v : Nat) :
    Law (· ≠ 4) (fun p => v ≤ p.timebase) (fun p => v ≤ p.timebase) (fun _ _ p => v ≤ p.timebase) :=
  timebase_blind.law (Q := (v ≤ ·)) (fun _ _ hp => hp) (fun hA => absurd rfl hA) (fun _ _ _ hp => hp)
    (fun u _ hp => by cases u <;> exact hp) (fun _ _ hp => hp.trans (Nat.le_max_left _ _))

theorem mute_law (v : Bool) :
    Law (fun c => c ≠ 4 ∧ c ≠ 12 ∧ c ≠ 13) (fun p => p.mute = v) (fun p => p.mute = v) (fun _ _ p => p.mute = v) :=
  mute_blind.law (Q := (· = v)) (fun _ _ hp => hp) (fun hA => absurd rfl hA.1)
    (fun hA => hA.elim (fun h => absurd rfl h.2.1) (fun h => absurd rfl h.2.2))
    (fun u _ hp => by cases u <;> exact hp) (fun _ _ hp => hp)

theorem mask_law (v : BitVec 9) : FaultLaw (fun c => c ≠ 4 ∧ c ≠ 25) (fun u => u.mask = v) where
  report _ _ _ _ hp := by simpa using hp
  due _ _ hp := hp
  fatal _ hp := hp
  latch c p hp := by simpa using hp
  logRead l p _ hp := by rw [(modLog_flags l _ p).2.1]; exact hp
  logClear l _ p _ _ _ hp := by rw [(modLog_flags l _ p).2.1]; exact hp
  ack cs p _ hp := by
    obtain ⟨ls, _, he⟩ := ackAll_fault cs p
    rw [he]
    exact hp
  mask _ _ hA := absurd rfl hA.2
  reset hA := absurd rfl hA.1

theorem settings_law (s : Ix → Settings) : LinkLaw (fun c => c ≠ 4 ∧ c ≠ 5) (fun n l => l.settings = s n) where
  change _ _ _ h hp := h.settings.trans hp
  settings _ _ _ hA := absurd rfl hA.2
  reset _ _ hA := absurd rfl hA.1

theorem profile_law (v : Ix → Profile) : LaneLaw (fun c => c ≠ 4 ∧ c ≠ 8) (fun n l => l.profile = v n) where
  minor _ _ _ _ h hp := h.profile.trans hp
  stop _ _ _ _ _ _ hp := hp
  faultStopped _ _ _ hp := hp
  ended _ l hp := by unfold jobEnded; split <;> exact hp
  carryShrink _ _ _ _ hp := hp
  carried _ _ _ _ hp := hp
  swap _ l hp := by unfold swapped; split <;> exact hp
  timerOff _ _ hp := hp
  commitOff _ _ hp := hp
  jobSet _ _ _ _ _ _ _ hp := hp
  pin _ _ _ _ hp := hp
  spoilTable _ _ _ _ _ hp := hp
  spoilItem _ _ _ hp := hp
  profile _ _ _ hA := absurd rfl hA.2
  start _ _ _ _ _ hp := hp
  resumed _ _ _ _ hp := hp
  shadow _ _ _ _ _ _ _ hp := hp
  commitHeld _ _ _ _ _ hp := hp
  route _ _ _ _ _ hp := hp
  reset _ _ hA := absurd rfl hA.1

theorem route_law (v : Ix → RouteTable) : LaneLaw (fun c => c ≠ 4 ∧ c ≠ 18) (fun n l => l.route = v n) where
  minor _ _ _ _ h hp := h.route.trans hp
  stop _ _ _ _ _ _ hp := hp
  faultStopped _ _ _ hp := hp
  ended _ l hp := by unfold jobEnded; split <;> exact hp
  carryShrink _ _ _ _ hp := hp
  carried _ _ _ _ hp := hp
  swap _ l hp := by unfold swapped; split <;> exact hp
  timerOff _ _ hp := hp
  commitOff _ _ hp := hp
  jobSet _ _ _ _ _ _ _ hp := hp
  pin _ _ _ _ hp := hp
  spoilTable _ _ _ _ _ hp := hp
  spoilItem _ _ _ hp := hp
  profile _ _ _ _ _ hp := by unfold storeProfile; split <;> exact hp
  start _ _ _ _ _ hp := hp
  resumed _ _ _ _ hp := hp
  shadow _ _ _ _ _ _ _ hp := hp
  commitHeld _ _ _ _ _ hp := hp
  route _ _ _ hA := absurd rfl hA.2
  reset _ _ hA := absurd rfl hA.1

/-- The select and the policy of every output as they stand. -/
theorem output_law (sel : Ix → Option RefId) (pol : Ix → RelockPolicy) :
    OutLaw (fun c => c ≠ 4 ∧ c ≠ 16) (fun n o => o.select = sel n ∧ o.policy = pol n) where
  minor _ _ _ h hp := ⟨h.select.trans hp.1, h.policy.trans hp.2⟩
  replies _ _ _ _ hp := hp
  relock _ _ _ hp := hp
  placed n h p _ hp m :=
    ⟨(RecordsLaw.placePackets_out OutUnit.select (fun _ _ _ _ _ => rfl) n m h p).trans (hp m).1,
     (RecordsLaw.placePackets_out OutUnit.policy (fun _ _ _ _ _ => rfl) n m h p).trans (hp m).2⟩
  setOutput _ _ _ _ _ hA := absurd rfl hA.2
  degraded _ hA := absurd rfl hA.1

/-- Settles O14. -/
theorem settingsChangeByTheirCommands : Obligations.SettingsChangeByTheirCommands := by
  intro i s t hq he hpin
  refine ⟨(straps_law _).exec_quiet hpin (fun _ _ => trivial) hq he rfl,
    fun h4 => ⟨?_, fun h12 h13 => ?_, fun h25 => ?_, fun n => ⟨fun h5 => ?_, fun h8 => ?_, fun h18 => ?_, fun h16 => ?_⟩⟩⟩
  · exact (timebase_law _).exec_quiet hpin (fun c hc => codeOf_ne hc h4) hq he le_rfl
  · exact (mute_law _).exec_quiet hpin (fun c hc => ⟨codeOf_ne hc h4, codeOf_ne hc h12, codeOf_ne hc h13⟩) hq he rfl
  · exact (mask_law _).law.exec_quiet hpin (fun c hc => ⟨codeOf_ne hc h4, codeOf_ne hc h25⟩) hq he rfl
  · exact (settings_law (fun n => (s.part.links.get n).settings)).law.exec_quiet hpin
      (fun c hc => ⟨codeOf_ne hc h4, codeOf_ne hc h5⟩) hq he (fun _ => rfl) n
  · exact (profile_law (fun n => (s.part.lanes.get n).profile)).law.exec_quiet hpin
      (fun c hc => ⟨codeOf_ne hc h4, codeOf_ne hc h8⟩) hq he (fun _ => rfl) n
  · exact (route_law (fun n => (s.part.lanes.get n).route)).law.exec_quiet hpin
      (fun c hc => ⟨codeOf_ne hc h4, codeOf_ne hc h18⟩) hq he (fun _ => rfl) n
  · exact (output_law (fun n => (s.part.outs.get n).select) (fun n => (s.part.outs.get n).policy)).law.exec_quiet hpin
      (fun c hc => ⟨codeOf_ne hc h4, codeOf_ne hc h16⟩) hq he (fun _ => ⟨rfl, rfl⟩) n

end Sys2Proof.Machine.SettingsLaw
end

section
/-! SUPPORT. Logs, latches and device fatal are given up only as their rules say (O13). -/

namespace Sys2Proof.Machine.LogsLaw

open Frames Keeping

/-! ### Causes of conditions -/

/-- The two parts have the same causes present (Table 59). -/
def sameCauses (p q : Part) : Prop := ∀ c, causePresent q c = causePresent p c

/-- What the causes depend on. -/
theorem sameCauses_of {p q : Part} (hlink : ∀ n, lockedCode q n = lockedCode p n)
    (hlane : ∀ n, (q.lanes.get n).state = (p.lanes.get n).state ∧ (q.lanes.get n).usable = (p.lanes.get n).usable
      ∧ (q.lanes.get n).profile = (p.lanes.get n).profile)
    (hlock : ∀ n, (q.outs.get n).lock = (p.outs.get n).lock) (hq : q.store.quarantine = p.store.quarantine)
    (hf : q.fault.deviceFatal = p.fault.deviceFatal) : sameCauses p q := by
  intro c
  cases c <;> simp only [causePresent, hlink, hlane, hlock, hq, hf]

theorem sameCauses_trans {p q r : Part} (h : sameCauses p q) (h' : sameCauses q r) : sameCauses p r :=
  fun c => (h' c).trans (h c)

section Causes
variable {p : Part}

theorem sameCauses_forAll {α : Type} {f : α → Part → Part} (hf : ∀ a q, sameCauses q (f a q)) (xs : List α) :
    sameCauses p (forAll xs f p) := by
  induction xs generalizing p with
  | nil => exact fun _ => rfl
  | cons x xs ih => exact sameCauses_trans (hf x p) ih

theorem sameCauses_modLane {n : Ix} {f : Lane → Lane}
    (hf : ∀ l, (f l).state = l.state ∧ (f l).usable = l.usable ∧ (f l).profile = l.profile) :
    sameCauses p (modLane n f p) := by
  have key : ∀ m, ((modLane n f p).lanes.get m).state = (p.lanes.get m).state
      ∧ ((modLane n f p).lanes.get m).usable = (p.lanes.get m).usable
      ∧ ((modLane n f p).lanes.get m).profile = (p.lanes.get m).profile := by
    intro m
    rw [modLane_lanes, Four.get_modify]
    split
    · next e => subst e; exact hf _
    · exact ⟨rfl, rfl, rfl⟩
  exact sameCauses_of (fun _ => rfl) key (fun _ => rfl) rfl rfl

theorem sameCauses_modLink {n : Ix} {f : LinkRx → LinkRx} (hf : ∀ l, (f l).state = l.state) :
    sameCauses p (modLink n f p) := by
  have key : ∀ m, lockedCode (modLink n f p) m = lockedCode p m := by
    intro m
    unfold lockedCode
    rw [modLink_links, Four.get_modify]
    by_cases e : m = n
    · rw [if_pos e, hf]
    · rw [if_neg e]
  exact sameCauses_of key (fun _ => ⟨rfl, rfl, rfl⟩) (fun _ => rfl) rfl rfl

theorem sameCauses_modOut {n : Ix} {f : OutUnit → OutUnit} (hf : ∀ o, (f o).lock = o.lock) :
    sameCauses p (modOut n f p) := by
  have key : ∀ m, ((modOut n f p).outs.get m).lock = (p.outs.get m).lock := by
    intro m
    rw [modOut_outs, Four.get_modify]
    split
    · next e => subst e; exact hf _
    · rfl
  exact sameCauses_of (fun _ => rfl) (fun _ => ⟨rfl, rfl, rfl⟩) key rfl rfl

theorem sameCauses_report (l : LogId) (c : ErrCode) (d : Detail) : sameCauses p (report l c d p) :=
  sameCauses_of (fun _ => by simp [lockedCode]) (fun _ => by simp) (fun _ => by simp) (by simp) (by simp)

theorem sameCauses.lane {q : Part} (h : sameCauses p q) {n : Ix} {f : Lane → Lane}
    (hf : ∀ l, (f l).state = l.state ∧ (f l).usable = l.usable ∧ (f l).profile = l.profile) :
    sameCauses p (modLane n f q) := sameCauses_trans h (sameCauses_modLane hf)

theorem sameCauses_carryRoom (m : Ix) : sameCauses p (carryRoom m p) := by
  unfold carryRoom
  split
  · exact fun _ => rfl
  · split
    · refine sameCauses_trans ?_ (sameCauses_report _ _ _)
      rw [bumpCarry_eq]
      refine sameCauses.lane (sameCauses_modLane ?_) ?_
      · exact fun _ => ⟨rfl, rfl, rfl⟩
      · exact fun _ => ⟨rfl, rfl, rfl⟩
    · exact fun _ => rfl

theorem sameCauses_takeOffer (n m : Ix) (k : Packet) : sameCauses p (takeOffer n k m p) := by
  unfold takeOffer
  split
  · split
    · rw [carryPacket, bumpCarry_eq]
      refine sameCauses.lane (sameCauses.lane (sameCauses_carryRoom m) ?_) ?_
      · exact fun _ => ⟨rfl, rfl, rfl⟩
      · exact fun _ => ⟨rfl, rfl, rfl⟩
    · exact sameCauses_modLane fun _ => ⟨rfl, rfl, rfl⟩
  · exact fun _ => rfl

theorem sameCauses_takeTimecode (n : Ix) (ws : List Byte) : sameCauses p (takeTimecode n ws p) := by
  unfold takeTimecode
  split
  · unfold labelOffer
    split
    · exact fun _ => rfl
    · refine sameCauses_forAll (fun m q => ?_) allIx
      split
      · exact sameCauses_trans (sameCauses_report _ _ _) (sameCauses_modLane fun _ => ⟨rfl, rfl, rfl⟩)
      · exact fun _ => rfl
  · exact sameCauses_modLink fun _ => rfl

theorem sameCauses_arrive (n : Ix) (ws : List Byte) : sameCauses p (arrive n ws p) := by
  unfold arrive
  split
  · exact fun _ => rfl
  · split <;> exact fun _ => rfl

theorem sameCauses_present (code : Byte) (cmd : Command) : sameCauses p (present code cmd p) := by
  unfold present
  split
  · unfold dispatch
    split
    · exact sameCauses_arrive _ _
    · split
      · exact sameCauses_takeTimecode _ _
      · refine sameCauses_forAll (fun m q => ?_) allIx
        split
        · exact sameCauses_takeOffer _ _ _
        · exact fun _ => rfl
  · exact fun _ => rfl

theorem sameCauses_upset (u : Upset) : sameCauses p (applyUpset u p) := by
  cases u with
  | slotRecord k => exact fun _ => rfl
  | storedSample => exact fun _ => rfl
  | tableRow n t b row => exact sameCauses_modLane fun _ => ⟨rfl, rfl, rfl⟩
  | carryItem n i => exact sameCauses_modLane fun _ => ⟨rfl, rfl, rfl⟩

theorem sameCauses_begin (t : Nat) (us : List Upset) : sameCauses p (begin t us p) :=
  sameCauses_trans (sameCauses_forAll (fun u _ => sameCauses_upset u) us) (fun _ => rfl)

theorem sameCauses_openTake (code : Byte) (n : Ix) : sameCauses p (openTake code n p) :=
  sameCauses_modOut (p := modMgmt _ p) fun _ => rfl

/-- An acknowledgement keeps a latch whose cause is present (R185). -/
theorem ackAll_keeps_caused {c : Cond} (hc : causePresent p c = true) (cs : List Cond) (hp : c ∈ p.fault.latches) :
    c ∈ (ackAll cs p).fault.latches := by
  have key : ∀ q : Part, causePresent q c = true → c ∈ q.fault.latches → c ∈ (forAll cs ackOne q).fault.latches := by
    induction cs with
    | nil => exact fun _ _ hq => hq
    | cons d cs ih =>
      intro q hcq hq
      refine ih (ackOne d q) ?_ ?_
      · unfold ackOne
        split
        · exact hcq
        · rw [← hcq]; cases c <;> rfl
      · unfold ackOne
        split
        · exact hq
        · next hd =>
          have hne : c ≠ d := fun e => hd (e ▸ hcq)
          exact List.mem_filter.2 ⟨hq, by simpa using hne⟩
  exact key p hc hp

end Causes

/-! ### The laws -/

/-- The log as the fault unit holds it. -/
def logIn (l : LogId) (u : FaultUnit) : Option LogRec :=
  match l with
  | .fl n => u.feedLogs.get n
  | .ll n => u.laneLogs.get n
  | .dl => u.deviceLog

theorem getLog_eq (l : LogId) (p : Part) : getLog l p = logIn l p.fault := by cases l <;> rfl

theorem logIn_modLog (l m : LogId) (f : Option LogRec → Option LogRec) (p : Part) :
    logIn l (modLog m f p).fault = if l = m then f (logIn l p.fault) else logIn l p.fault := by
  cases l <;> cases m <;> simp [logIn, modLog, modFault, Four.get_modify]

theorem logIn_latchSet (l : LogId) (c : Cond) (p : Part) : logIn l (latchSet c p).fault = logIn l p.fault := by
  cases l <;> simp [logIn]

theorem logIn_ackAll (l : LogId) (cs : List Cond) (p : Part) : logIn l (ackAll cs p).fault = logIn l p.fault := by
  obtain ⟨ls, _, he⟩ := ackAll_fault cs p
  rw [he]
  rfl

/-- A record after a report (R181). -/
theorem logReport_some (code : ErrCode) (t : Nat) (d : Detail) (r : LogRec) :
    ∃ r', logReport code t d (some r) = some r' ∧ r'.overflow = true
      ∧ (severityRank r.severity < severityRank r'.severity
        ∨ r'.severity = r.severity ∧ r'.code = r.code ∧ r'.time = r.time ∧ r'.detail = r.detail)
      ∧ (r'.read = true → r.read = true) := by
  unfold logReport
  dsimp only
  split
  · next h => exact ⟨_, rfl, rfl, .inl h, fun e => by cases e⟩
  · exact ⟨_, rfl, rfl, .inr ⟨rfl, rfl, rfl, rfl⟩, id⟩

/-- What becomes of a record that no CLEAR LOG empties (R181). -/
structure Later (r r' : LogRec) : Prop where
  severity : severityRank r.severity ≤ severityRank r'.severity
  same : r'.severity = r.severity → r'.code = r.code ∧ r'.time = r.time ∧ r'.detail = r.detail
  flags : r' = r ∨ r' = { r with read := true } ∨ r'.overflow = true

theorem Later.reported {r r' r'' : LogRec} (h : Later r r') (ho : r''.overflow = true)
    (hs : severityRank r'.severity < severityRank r''.severity
      ∨ r''.severity = r'.severity ∧ r''.code = r'.code ∧ r''.time = r'.time ∧ r''.detail = r'.detail) : Later r r'' := by
  rcases hs with hs | ⟨hsev, hcode, htime, hdetail⟩
  · have hlt := h.severity.trans_lt hs
    exact ⟨hlt.le, fun e => absurd hlt (by rw [e]; exact lt_irrefl _), .inr (.inr ho)⟩
  · refine ⟨hsev ▸ h.severity, fun e => ?_, .inr (.inr ho)⟩
    obtain ⟨h1, h2, h3⟩ := h.same (hsev.symm.trans e)
    exact ⟨hcode.trans h1, htime.trans h2, hdetail.trans h3⟩

theorem Later.read {r r' : LogRec} (h : Later r r') : Later r { r' with read := true } := by
  refine ⟨h.severity, h.same, ?_⟩
  rcases h.flags with rfl | rfl | ho
  · exact .inr (.inl rfl)
  · exact .inr (.inl rfl)
  · exact .inr (.inr ho)

/-- A log that holds a record goes on holding one (R181, R183). -/
theorem record_law (l : LogId) (r : LogRec) :
    FaultLaw (fun c => c ≠ 4 ∧ c ≠ 22) (fun u => ∃ r', logIn l u = some r' ∧ Later r r') where
  report m c d p := by
    rintro ⟨r', hr, hl⟩
    rw [report, logIn_modLog]
    split
    · obtain ⟨r'', he, ho, hs, _⟩ := logReport_some c p.timebase d r'
      exact ⟨r'', hr ▸ he, hl.reported ho hs⟩
    · exact ⟨r', hr, hl⟩
  due _ _ hp := hp
  fatal _ hp := hp
  latch c p hp := by rwa [logIn_latchSet]
  logRead m p _ := by
    rintro ⟨r', hr, hl⟩
    rw [logIn_modLog]
    split
    · exact ⟨_, by rw [hr]; rfl, hl.read⟩
    · exact ⟨r', hr, hl⟩
  logClear _ _ _ hA := absurd rfl hA.2
  ack cs p _ hp := by rwa [logIn_ackAll]
  mask _ _ _ hp := hp
  reset hA := absurd rfl hA.1

/-- A record is emptied, or has its read flag set, only after a QUERY LOG had returned it (R182, R183). -/
theorem cleared_law (l : LogId) (b : Bool) :
    FaultLaw (fun c => c ≠ 4 ∧ c ≠ 21)
      (fun u => (logIn l u = none → b = true) ∧ (∀ r, logIn l u = some r → r.read = true → b = true)) where
  report m c d p := by
    rintro ⟨hn, hs⟩
    rw [report, logIn_modLog]
    split
    · cases hr : logIn l p.fault with
      | none => exact ⟨fun _ => hn hr, fun _ _ _ => hn hr⟩
      | some r =>
        obtain ⟨r', he, _, _, hread⟩ := logReport_some c p.timebase d r
        rw [he]
        exact ⟨fun e => (nomatch e), fun r'' e h => hs r hr (hread (Option.some.inj e ▸ h))⟩
    · exact ⟨hn, hs⟩
  due _ _ hp := hp
  fatal _ hp := hp
  latch c p hp := by rwa [logIn_latchSet]
  logRead _ _ hA := absurd rfl hA.2
  logClear m r p _ hr hread := by
    rintro ⟨hn, hs⟩
    rw [logIn_modLog]
    split
    · next e =>
      have hb : b = true := hs r (by rw [e, ← getLog_eq, hr]) hread
      exact ⟨fun _ => hb, fun _ _ _ => hb⟩
    · exact ⟨hn, hs⟩
  ack cs p _ hp := by rwa [logIn_ackAll]
  mask _ _ _ hp := hp
  reset hA := absurd rfl hA.1

/-- Every condition is in the list of Table 59. -/
theorem mem_allConds (c : Cond) : c ∈ allConds := by
  have hix : ∀ n : Ix, n ∈ allIx := by decide
  cases c <;> simp [allConds, hix]

theorem latch_law (c : Cond) : FaultLaw (fun k => k ≠ 4 ∧ k ≠ 24) (fun u => c ∈ u.latches) where
  report _ _ _ _ hp := by simpa using hp
  due _ _ hp := hp
  fatal _ hp := hp
  latch d p hp := by
    rw [latchSet_fault]
    split
    · exact hp
    · exact List.mem_filter.2 ⟨mem_allConds c, by simp [hp]⟩
  logRead l p _ hp := by rwa [(modLog_flags l _ p).1]
  logClear l _ p _ _ _ hp := by rwa [(modLog_flags l _ p).1]
  ack _ _ hA := absurd rfl hA.2
  mask _ _ _ hp := hp
  reset hA := absurd rfl hA.1

theorem deviceFatal_law : FaultLaw (· ≠ 4) (fun u => u.deviceFatal = true) where
  report _ _ _ _ hp := by simpa using hp
  due _ _ hp := hp
  fatal _ _ := rfl
  latch _ _ hp := by simpa using hp
  logRead l _ _ hp := by cases l <;> exact hp
  logClear l _ _ _ _ _ hp := by cases l <;> exact hp
  ack cs p _ hp := by
    obtain ⟨ls, _, he⟩ := ackAll_fault cs p
    rw [he]
    exact hp
  mask _ _ _ hp := hp
  reset hA := absurd rfl hA

/-- The take of ACK CONDITIONS keeps a latch whose cause is present (R185). -/
theorem takeAck_keeps_caused {c : Cond} (cmd : Command) {p : Part} (hc : causePresent p c = true)
    (hp : c ∈ p.fault.latches) : c ∈ (takeAckConditions cmd p).fault.latches := by
  have hopen : causePresent (openTake 24 cmd.link p) c = true := (sameCauses_openTake _ _ c).trans hc
  unfold takeAckConditions takeImmediate answerNow
  split
  · next q ws hr =>
    obtain ⟨cs, rfl⟩ : ∃ cs, q = ackAll cs (openTake 24 cmd.link p) := by
      unfold ruleAckConditions at hr
      split at hr
      · cases hr
      · split at hr
        · cases hr
        · split at hr
          · cases hr
          · cases hr
            exact ⟨_, rfl⟩
    exact ackAll_keeps_caused hopen cs hp
  · exact hp

/-- ACK CONDITIONS clears no latch whose cause is present (R185). -/
theorem ackConditions_keeps_caused {env : Env} {cmd : Command} {s t : State} (hq : quiet s)
    (he : exec (.ackConditions env cmd) s = .next t) {c : Cond} (hp : c ∈ s.part.fault.latches)
    (hc : causePresent s.part c = true) : c ∈ t.part.fault.latches := by
  have h := (latch_law c).law
  change command 24 env cmd (takeAckConditions cmd) s = .next t at he
  rw [command, happens_quiet _ _ hq] at he
  cases he
  refine h.settle _ ?_
  have hfound := h.begin_kept env.time env.upsets (h.inEvent _ hp)
  have hsent := h.event_keeps.present (cmd := cmd) trivial (fun ws q => h.arrive _ ws q) 24 hfound
  have hcause : causePresent (present 24 cmd (begin env.time env.upsets s.part)) c = true :=
    (sameCauses_trans (sameCauses_begin _ _) (sameCauses_present 24 cmd) c).trans hc
  dsimp only
  split
  · exact takeAck_keeps_caused cmd hcause hsent
  · exact hsent

/-- Settles O13: the fault unit's records each under a law of their own, and the acknowledgement by its rule. -/
theorem logsAndLatchesStay : Obligations.LogsAndLatchesStay := by
  intro i s t hq he hpin h4
  have latch : ∀ c ∈ s.part.fault.latches, (∀ env cmd, i ≠ .ackConditions env cmd) → c ∈ t.part.fault.latches :=
    fun c hc h24 => (latch_law c).law.exec_quiet hpin (fun k hk => ⟨codeOf_ne hk h4, codeOf_ne hk h24⟩) hq he hc
  have record : ∀ l r, getLog l s.part = some r → (∀ env cmd, i ≠ .clearLog env cmd) →
      ∃ r', getLog l t.part = some r' ∧ Later r r' := fun l r hr h22 => by
    rw [getLog_eq] at hr ⊢
    exact (record_law l r).law.exec_quiet hpin (fun k hk => ⟨codeOf_ne hk h4, codeOf_ne hk h22⟩) hq he
      ⟨r, hr, le_rfl, fun _ => ⟨rfl, rfl, rfl⟩, .inl rfl⟩
  refine ⟨fun l r hr h22 => ?_, fun l r hr hn => ?_, latch, fun c hc hcause => ?_, fun hd => ?_⟩
  · obtain ⟨r', hr', hl⟩ := record l r hr h22
    exact ⟨r', hr', hl.severity, hl.same, hl.flags⟩
  · by_cases h22 : ∀ env cmd, i ≠ .clearLog env cmd
    · obtain ⟨r', hr', -⟩ := record l r hr h22
      exact absurd (hn.symm.trans hr') (by simp)
    · simp only [ne_eq, not_forall, not_not] at h22
      obtain ⟨env, cmd, rfl⟩ := h22
      rw [getLog_eq] at hr hn
      exact ((cleared_law l r.read).law.exec_quiet hpin (fun k hk => ⟨codeOf_ne hk h4, codeOf_ne hk (fun _ _ e => nomatch e)⟩)
        hq he ⟨fun e => absurd (e.symm.trans hr) (by simp), fun r' hr' h => by cases hr.symm.trans hr'; exact h⟩).1 hn
  · by_cases h24 : ∀ env cmd, i ≠ .ackConditions env cmd
    · exact latch c hc h24
    · simp only [ne_eq, not_forall, not_not] at h24
      obtain ⟨env, cmd, rfl⟩ := h24
      exact ackConditions_keeps_caused hq he hc hcause
  · exact deviceFatal_law.law.exec_quiet hpin (fun k hk => codeOf_ne hk h4) hq he hd

end Sys2Proof.Machine.LogsLaw
end

section
/-! SUPPORT. Commands to the device: IDENTIFY (R176), MUTE and UNMUTE (R137), SET ALARM MASK (R187), the commands of the
logs (R182, R183), and the answer to an unknown code (R171). -/

namespace Sys2Proof.Machine.DeviceAnswers

section Empty
variable {cmd : Command} {k : Verdict}

theorem deviceEmpty_badTarget (h : targetOf cmd.target ≠ .device) : deviceEmpty cmd k = deny .badTarget := by
  simp [deviceEmpty, h]

theorem deviceEmpty_badLength (h : targetOf cmd.target = .device) (hp : cmd.payload ≠ []) :
    deviceEmpty cmd k = deny .badLength := by simp [deviceEmpty, h, hp]

theorem deviceEmpty_ok (h : targetOf cmd.target = .device) (hp : cmd.payload = []) : deviceEmpty cmd k = k := by
  simp [deviceEmpty, h, hp]

end Empty

section Commands
variable {code : Byte} {env : Env} {cmd : Command} {s : State}

/-- A command that takes the device as its target and no payload: its two refusals (R171), whatever its rule goes on to. -/
theorem deviceEmpty_refusals {rule : Command → Part → Verdict} {k : Part → Verdict}
    (hr : ∀ p, rule cmd p = deviceEmpty cmd (k p)) (h : takenNow code env cmd s) (hneed : need code = 1) :
    (targetOf cmd.target ≠ .device →
        command code env cmd (takeImmediate code cmd (rule cmd)) s = refusedNow code env cmd s .badTarget)
      ∧ (targetOf cmd.target = .device → cmd.payload ≠ [] →
        command code env cmd (takeImmediate code cmd (rule cmd)) s = refusedNow code env cmd s .badLength) :=
  ⟨fun ht => immediate_refused rule h hneed ((hr _).trans (deviceEmpty_badTarget ht)),
   fun ht hp => immediate_refused rule h hneed ((hr _).trans (deviceEmpty_badLength ht hp))⟩

/-- No integrity error waits when a command is taken (R58). -/
theorem fatalDue_partAt (h : takenNow code env cmd s) : (partAt code env cmd s).fault.fatalDue = false := by
  rw [partAt_fault]
  exact h.1.1

/-- What the opening of a take changes is what its answer settles: the outputs and the management unit. -/
theorem openTake_settled (n : Ix) (p : Part) : { openTake code n p with outs := p.outs, mgmt := p.mgmt } = p := rfl

/-- An immediate command whose rule accepts without any effect of its own. -/
theorem immediate_answered (rule : Command → Part → Verdict) (h : takenNow code env cmd s) (hneed : need code = 1)
    {ws : List Byte}
    (hr : rule cmd (openTake code cmd.link (partAt code env cmd s)) =
      .ok (openTake code cmd.link (partAt code env cmd s), ws)) :
    command code env cmd (takeImmediate code cmd (rule cmd)) s = doneNow code env cmd s ws (partAt code env cmd s) :=
  (immediate_done (q' := openTake code cmd.link (partAt code env cmd s)) rule h hneed hr rfl rfl
    (fatalDue_partAt h)).trans (by rw [openTake_settled])

/-- An immediate command whose effect is a change of the fault unit (R170, R171). -/
theorem immediate_fault (rule : Command → Part → Verdict) (h : takenNow code env cmd s) (hneed : need code = 1)
    {ws : List Byte} (f : FaultUnit → FaultUnit)
    (hr : rule cmd (openTake code cmd.link (partAt code env cmd s)) =
      .ok (modFault f (openTake code cmd.link (partAt code env cmd s)), ws))
    (hdue : ∀ u, u.fatalDue = false → (f u).fatalDue = false) :
    command code env cmd (takeImmediate code cmd (rule cmd)) s =
      doneNow code env cmd s ws { partAt code env cmd s with fault := f s.part.fault } := by
  have hsettled : ∀ p : Part, { modFault f (openTake code cmd.link p) with outs := p.outs, mgmt := p.mgmt } =
      { p with fault := f p.fault } := fun _ => rfl
  rw [immediate_done rule h hneed hr (modFault_outs ..) (modFault_mgmt ..) (hdue _ (fatalDue_partAt h)), hsettled, partAt_fault]

theorem partAt_straps_eq : (partAt code env cmd s).straps = s.part.straps := by simp

end Commands

/-! ### IDENTIFY -/

/-- Settles O41. -/
theorem identifyAnswers : Obligations.IdentifyAnswers := by
  intro env cmd s h
  obtain ⟨htarget, hlength⟩ := deviceEmpty_refusals (rule := ruleIdentify) (fun _ => rfl) h rfl
  refine ⟨htarget, hlength, fun ht hp => ?_⟩
  refine (immediate_answered ruleIdentify h rfl (deviceEmpty_ok ht hp)).trans ?_
  have hstraps : (openTake 1 cmd.link (partAt 1 env cmd s)).straps = s.part.straps := partAt_straps_eq
  simp only [identifyPayload, hstraps, strapStd]
  cases s.part.straps.stdSel <;> rfl

/-! ### MUTE, UNMUTE, SET ALARM MASK -/

/-- An immediate command whose effect is a change of the mute flag. -/
theorem immediate_mute {code : Byte} {env : Env} {cmd : Command} {s : State} (rule : Command → Part → Verdict)
    (h : takenNow code env cmd s) (hneed : need code = 1) (b : Bool) (hr : ∀ p, rule cmd p = .ok ({ p with mute := b }, [])) :
    command code env cmd (takeImmediate code cmd (rule cmd)) s =
      doneNow code env cmd s [] { partAt code env cmd s with mute := b } :=
  (immediate_done (q' := { openTake code cmd.link (partAt code env cmd s) with mute := b }) rule h hneed (hr _) rfl rfl
    (fatalDue_partAt h))

section Mask
variable {cmd : Command} {p : Part}

theorem ruleSetAlarmMask_badTarget (h : targetOf cmd.target ≠ .device) : ruleSetAlarmMask cmd p = deny .badTarget := by
  simp [ruleSetAlarmMask, h]

theorem ruleSetAlarmMask_badLength (h : targetOf cmd.target = .device) (hp : cmd.payload.length ≠ 2) :
    ruleSetAlarmMask cmd p = deny .badLength := by
  unfold ruleSetAlarmMask
  rw [if_neg (not_not.2 h)]
  split
  · next e => simp [e] at hp
  · rfl

theorem ruleSetAlarmMask_value (h : targetOf cmd.target = .device) {hi lo : Byte} (hp : cmd.payload = [hi, lo]) :
    ruleSetAlarmMask cmd p = if 511 < 256 * hi.toNat + lo.toNat then deny .badValue
      else .ok (storeMask (256 * hi.toNat + lo.toNat) p, []) := by
  simp [ruleSetAlarmMask, h, hp, Nat.mul_comm]

/-- The fault unit with its mask replaced and the alarm line re-evaluated (R187). -/
def maskStored (v : Nat) (u : FaultUnit) : FaultUnit :=
  { u with
    mask := BitVec.ofNat 9 v
    alarm := u.latches.any (fun c => (BitVec.ofNat 9 v).getLsbD (condKind c - 1)) }

end Mask

/-- Settles O52. -/
theorem muteAndMaskChangeOneThing : Obligations.MuteAndMaskChangeOneThing := by
  refine ⟨fun env cmd s h => ?_, fun env cmd s h => ?_, fun env cmd s h => ⟨fun ht => ?_, fun ht hp => ?_, fun hi lo ht hp => ?_⟩⟩
  · obtain ⟨htarget, hlength⟩ := deviceEmpty_refusals (rule := ruleMute) (fun _ => rfl) h rfl
    exact ⟨htarget, hlength, fun ht hp => immediate_mute ruleMute h rfl true (fun _ => deviceEmpty_ok ht hp)⟩
  · obtain ⟨htarget, hlength⟩ := deviceEmpty_refusals (rule := ruleUnmute) (fun _ => rfl) h rfl
    exact ⟨htarget, hlength, fun ht hp => immediate_mute ruleUnmute h rfl false (fun _ => deviceEmpty_ok ht hp)⟩
  · exact immediate_refused ruleSetAlarmMask h rfl (ruleSetAlarmMask_badTarget ht)
  · exact immediate_refused ruleSetAlarmMask h rfl (ruleSetAlarmMask_badLength ht hp)
  · split_ifs with hv
    · exact immediate_refused ruleSetAlarmMask h rfl ((ruleSetAlarmMask_value ht hp).trans (if_pos hv))
    · exact immediate_fault ruleSetAlarmMask h rfl (maskStored (256 * hi.toNat + lo.toNat))
        ((ruleSetAlarmMask_value ht hp).trans (if_neg hv)) (fun _ hd => hd)

/-! ### Logs -/

section Logs
variable {cmd : Command} {p : Part} {l : LogId}

theorem getLog_openTake (code : Byte) (n : Ix) : getLog l (openTake code n p) = getLog l p := by cases l <;> rfl

theorem modLog_congr {f g : Option LogRec → Option LogRec} (h : f (getLog l p) = g (getLog l p)) :
    modLog l f p = modLog l g p := by
  cases l with
  | fl n => simp [modLog, modFault, Four.modify, getLog] at h ⊢; rw [h]
  | ll n => simp [modLog, modFault, Four.modify, getLog] at h ⊢; rw [h]
  | dl => simp [modLog, modFault, getLog] at h ⊢; rw [h]

/-- The fault unit with one log changed. -/
def logChanged (l : LogId) (f : Option LogRec → Option LogRec) (u : FaultUnit) : FaultUnit :=
  match l with
  | .fl n => { u with feedLogs := u.feedLogs.modify n f }
  | .ll n => { u with laneLogs := u.laneLogs.modify n f }
  | .dl => { u with deviceLog := f u.deviceLog }

theorem modLog_eq (f : Option LogRec → Option LogRec) : modLog l f p = { p with fault := logChanged l f p.fault } := by
  cases l <;> rfl

/-- An immediate command whose effect is a change of one log. -/
theorem immediate_log {code : Byte} {env : Env} {s : State} (rule : Command → Part → Verdict)
    (h : takenNow code env cmd s) (hneed : need code = 1) {ws : List Byte} (f : Option LogRec → Option LogRec)
    (hr : rule cmd (openTake code cmd.link (partAt code env cmd s)) =
      .ok (modLog l f (openTake code cmd.link (partAt code env cmd s)), ws)) :
    command code env cmd (takeImmediate code cmd (rule cmd)) s =
      doneNow code env cmd s ws (modLog l f (partAt code env cmd s)) := by
  rw [modLog_eq, partAt_fault]
  exact immediate_fault rule h hneed (logChanged l f) hr (fun u hd => by cases l <;> exact hd)

theorem getLog_modLog (l m : LogId) (f : Option LogRec → Option LogRec) (p : Part) :
    getLog m (modLog l f p) = if m = l then f (getLog l p) else getLog m p := by
  rw [LogsLaw.getLog_eq, LogsLaw.logIn_modLog]
  split
  · next e => rw [e, LogsLaw.getLog_eq]
  · rw [LogsLaw.getLog_eq]

theorem modLog_id (l : LogId) (p : Part) : modLog l id p = p := by
  cases l <;> simp [modLog, modFault, Four.modify]

theorem getLog_partAt {code : Byte} {env : Env} {s : State} : getLog l (partAt code env cmd s) = getLog l s.part := by
  rw [LogsLaw.getLog_eq, LogsLaw.getLog_eq, partAt_fault]

end Logs

section Rules
variable {cmd : Command} {p : Part} {l : LogId}

theorem ruleQueryLog_ok (hl : logTarget cmd = some l) (hp : cmd.payload = []) :
    ruleQueryLog cmd p = .ok (modLog l markRead p, logWords (getLog l p)) := by simp [ruleQueryLog, hl, hp]

theorem ruleClearLog_none (hl : logTarget cmd = some l) (hp : cmd.payload = []) (hg : getLog l p = none) :
    ruleClearLog cmd p = .ok (p, []) := by simp [ruleClearLog, hl, hp, hg]

theorem ruleClearLog_some (hl : logTarget cmd = some l) (hp : cmd.payload = []) {r : LogRec} (hg : getLog l p = some r) :
    ruleClearLog cmd p = if r.read then .ok (modLog l (fun _ => none) p, []) else deny .stale := by
  simp [ruleClearLog, hl, hp, hg]

end Rules

/-- QUERY LOG answers the record as it stands and sets its read flag (R182). -/
theorem queryLog_done {env : Env} {cmd : Command} {s : State} {l : LogId} (h : takenNow 21 env cmd s)
    (hl : logTarget cmd = some l) (hp : cmd.payload = []) :
    exec (.queryLog env cmd) s =
      doneNow 21 env cmd s (logWords (getLog l s.part)) (modLog l markRead (partAt 21 env cmd s)) := by
  refine immediate_log ruleQueryLog h rfl markRead ?_
  rw [ruleQueryLog_ok hl hp, getLog_openTake, getLog_partAt]

/-- Settles O58. -/
theorem logCommandsReadAndClear : Obligations.LogCommandsReadAndClear := by
  refine ⟨fun env cmd s h => ⟨fun hl => ?_, fun l hl hp => ?_, fun l hl hp => ⟨fun hg => ?_, fun r hg => ?_⟩⟩,
    fun env cmd s h => ⟨fun hl => ?_, fun l hl hp => ?_, fun l hl hp => ⟨fun hg => ?_, fun r hg => ?_⟩⟩, getLog_modLog⟩
  · exact immediate_refused ruleQueryLog h rfl (by simp [ruleQueryLog, hl]; rfl)
  · exact immediate_refused ruleQueryLog h rfl (by simp [ruleQueryLog, hl, hp]; rfl)
  · have hsame : modLog l markRead (partAt 21 env cmd s) = partAt 21 env cmd s :=
      (modLog_congr (g := id) (by rw [getLog_partAt, hg]; rfl)).trans (modLog_id l _)
    rw [queryLog_done h hl hp, hg, hsame]
    rfl
  · have hread : modLog l markRead (partAt 21 env cmd s) = modLog l (fun _ => some { r with read := true }) (partAt 21 env cmd s) :=
      modLog_congr (by rw [getLog_partAt, hg]; rfl)
    rw [queryLog_done h hl hp, hg, hread]
    rfl
  · exact immediate_refused ruleClearLog h rfl (by simp [ruleClearLog, hl]; rfl)
  · exact immediate_refused ruleClearLog h rfl (by simp [ruleClearLog, hl, hp]; rfl)
  · exact immediate_answered ruleClearLog h rfl (ruleClearLog_none hl hp (by rw [getLog_openTake, getLog_partAt, hg]))
  · have hr := ruleClearLog_some (p := openTake 22 cmd.link (partAt 22 env cmd s)) hl hp
      (by rw [getLog_openTake, getLog_partAt, hg])
    split_ifs with hread
    · exact immediate_log ruleClearLog h rfl (fun _ => none) (hr.trans (if_pos hread))
    · exact immediate_refused ruleClearLog h rfl (hr.trans (if_neg hread))

/-! ### Unknown codes -/

/-- The take of an unknown code: the report, the count and the refusal (R171). -/
theorem takeBadCode_eq {code : Byte} {cmd : Command} {p : Part} (hneed : need code = 1) :
    takeBadCode code cmd p = answered cmd.link (refusalReply code cmd p .badCode []) true
      { p with
        mgmt := { p.mgmt with ctr := { p.mgmt.ctr with badCodes := bump p.mgmt.ctr.badCodes } }
        fault := { p.fault with deviceLog := logReport .badCode p.timebase .none p.fault.deviceLog } } := by
  have hout := reserve_post p.outs cmd.link (refusalReply code cmd p .badCode [])
  simp only [takeBadCode, countTake, postReply, bumpMgmt, modMgmt, modOut, report, modLog, modFault, answered, openTake_eq,
    hneed, servedMgmt]
  congr 1

/-- Settles O60. -/
theorem unknownCodesAreRefused : Obligations.UnknownCodesAreRefused := by
  rintro env cmd code s q h rfl hcode
  have hu : ¬ (1 ≤ code.toNat ∧ code.toNat ≤ 25) := by omega
  have hx : exec (.badCode env cmd code) s = command code env cmd (takeBadCode code cmd) s := by
    simp [exec, execBadCode, isTableCode, hu]
  rw [hx, command_taken _ h, takeBadCode_eq (Keeping.need_unknown hu), settle_quiet, partAt_fault]
  exact fatalDue_partAt h

end Sys2Proof.Machine.DeviceAnswers
end

section
/-! SUPPORT. Settings and profiles: SET FEED and SET OUTPUT (R18, R114), SET LANE (R120), RESUME (R136). -/

namespace Sys2Proof.Machine.SettingAnswers

open DeviceAnswers
open RouteAndSeed (immediate_lane_done)

/-! ### SET FEED -/

/-- The form is one of the management forms (chapter 10). -/
theorem isManagementForm_iff (kind subkind : Byte) : isManagementForm kind subkind = true ↔
    kind = 0x61#8 ∧ (subkind = 0x0B#8 ∨ subkind = 0x0C#8 ∨ subkind = 0x0D#8) := by
  simp [isManagementForm, or_assoc]

theorem policyOf_valid {w : Byte} (h : w.toNat ≤ 1) :
    policyOf w = some (if w.toNat = 0 then .contain else .pass) := by
  obtain h0 | h1 : w.toNat = 0 ∨ w.toNat = 1 := by omega
  · simp [policyOf, h0]
  · simp [policyOf, h1]

theorem policyOf_invalid {w : Byte} (h : ¬ w.toNat ≤ 1) : policyOf w = none := by
  have h0 : w.toNat ≠ 0 := by omega
  have h1 : w.toNat ≠ 1 := by omega
  simp [policyOf, h0, h1]

/-- The six words of a SET FEED lie in the ranges of Table 9, and the timecode form is none of the management's (R18). -/
def settingsValid (listen policy div threshold kind subkind : Byte) : Prop :=
  listen.toNat ≤ 1 ∧ policy.toNat ≤ 1 ∧ div.toNat ∈ [4, 8, 16, 32, 64] ∧ 1 ≤ threshold.toNat
    ∧ ¬(kind = 0x61#8 ∧ (subkind = 0x0B#8 ∨ subkind = 0x0C#8 ∨ subkind = 0x0D#8))

section Settings
variable {listen policy div threshold kind subkind : Byte}

theorem parseSettings_valid (h : settingsValid listen policy div threshold kind subkind) :
    parseSettings listen policy div threshold kind subkind =
      some ⟨decide (listen.toNat = 1), if policy.toNat = 0 then .contain else .pass, div.toNat, threshold.toNat, kind,
        subkind⟩ := by
  obtain ⟨hl, hp, hd, ht, hf⟩ := h
  rw [parseSettings, policyOf_valid hp]
  exact if_pos ⟨hl, hd, ht, Bool.eq_false_iff.2 (fun e => hf ((isManagementForm_iff _ _).1 e))⟩

theorem parseSettings_invalid (h : ¬ settingsValid listen policy div threshold kind subkind) :
    parseSettings listen policy div threshold kind subkind = none := by
  by_cases hp : policy.toNat ≤ 1
  · rw [parseSettings, policyOf_valid hp]
    refine if_neg fun ⟨hl, hd, ht, hf⟩ => h ⟨hl, hp, hd, ht, fun e => ?_⟩
    rw [(isManagementForm_iff _ _).2 e] at hf
    cases hf
  · rw [parseSettings, policyOf_invalid hp]

end Settings

section SetFeed
variable {env : Env} {cmd : Command} {s : State} {n : Ix}

theorem setFeed_refused {st : Refused} (h : takenNow 5 env cmd s) (hr : ∀ p, ruleSetFeed cmd p = deny st) :
    exec (.setFeed env cmd) s = refusedNow 5 env cmd s st := immediate_refused ruleSetFeed h rfl (hr _)

theorem ruleSetFeed_badLength (hn : feedTarget cmd = some n) (hp : cmd.payload.length ≠ 6) (p : Part) :
    ruleSetFeed cmd p = deny .badLength := by
  unfold ruleSetFeed
  rw [hn]
  dsimp only
  split
  · next e => simp [e] at hp
  · rfl

theorem setFeed_done (h : takenNow 5 env cmd s) (v : Settings)
    (hr : ∀ p, ruleSetFeed cmd p = .ok (modLink n (fun l => { l with settings := v }) p, [])) :
    exec (.setFeed env cmd) s = doneNow 5 env cmd s []
      { partAt 5 env cmd s with links := s.part.links.modify n (fun l => { l with settings := v }) } := by
  have hsettled : ∀ p : Part,
      { modLink n (fun l => { l with settings := v }) (openTake 5 cmd.link p) with outs := p.outs, mgmt := p.mgmt } =
        { p with links := p.links.modify n (fun l => { l with settings := v }) } := fun _ => rfl
  refine (immediate_done ruleSetFeed h rfl (hr _) (modLink_outs ..) (modLink_mgmt ..) (fatalDue_partAt h)).trans ?_
  rw [hsettled, partAt_links, found_links]

end SetFeed

/-! ### SET OUTPUT -/

section SetOutput
variable {env : Env} {cmd : Command} {s : State} {n : Ix}

/-- A change of an output that does not touch its replies, and the answer of an immediate command to the same or another
output: the order does not matter. -/
theorem modify_answered {f : OutUnit → OutUnit} (link : Ix) (r : Reply) (outs : Four OutUnit)
    (hf : ∀ o rs k, f { o with replies := rs, reserved := k } = { f o with replies := rs, reserved := k })
    (hsame : ∀ o, (f o).replies = o.replies ∧ (f o).reserved = o.reserved) :
    ((outs.modify link (fun o => { o with reserved := o.reserved + 1 })).modify n f).modify link
        (fun o => { o with replies := o.replies ++ [r], reserved := o.reserved - 1 }) =
      withReplies (outs.modify n f) link [r] := by
  ext m
  have hres : f { outs.get m with reserved := (outs.get m).reserved + 1 } =
      { f (outs.get m) with replies := (outs.get m).replies, reserved := (outs.get m).reserved + 1 } := hf (outs.get m) _ _
  simp only [withReplies, Four.get_modify]
  by_cases hl : m = link
  · by_cases hn : m = n
    · simp only [if_pos hl, if_pos hn, hres, hsame, Nat.add_sub_cancel]
    · simp only [if_pos hl, if_neg hn, Nat.add_sub_cancel]
  · simp only [if_neg hl]

theorem ruleSetOutput_badLength (hn : outTarget cmd = some n) (hp : cmd.payload.length ≠ 5) (p : Part) :
    ruleSetOutput cmd p = deny .badLength := by
  unfold ruleSetOutput
  rw [hn]
  dsimp only
  split
  · next e => simp [e] at hp
  · rfl

/-- An immediate command whose effect is a change of an output's settings. -/
theorem immediate_out_done {code : Byte} (rule : Command → Part → Verdict) (h : takenNow code env cmd s)
    (hneed : need code = 1) (f : OutUnit → OutUnit)
    (hf : ∀ o rs k, f { o with replies := rs, reserved := k } = { f o with replies := rs, reserved := k })
    (hsame : ∀ o, (f o).replies = o.replies ∧ (f o).reserved = o.reserved)
    (hr : rule cmd (openTake code cmd.link (partAt code env cmd s)) =
      .ok (modOut n f (openTake code cmd.link (partAt code env cmd s)), [])) :
    command code env cmd (takeImmediate code cmd (rule cmd)) s =
      doneNow code env cmd s [] { partAt code env cmd s with outs := s.part.outs.modify n f } := by
  have hcount : ∀ (r : Reply) (p : Part), countTake false (postReply cmd.link r (modOut n f (openTake code cmd.link p))) =
      answered cmd.link r false { p with outs := p.outs.modify n f } := fun r p => by
    simp only [countTake, postReply, bumpMgmt, modMgmt, modOut, answered, openTake_eq, hneed,
      modify_answered cmd.link r p.outs hf hsame, servedMgmt]
  refine (immediate_accepted rule h hr (fun r => hcount r _) (fatalDue_partAt h)).trans ?_
  rw [partAt_outs, found_outs]

theorem selectOf_valid {w : Byte} (h : w.toNat ≤ 2) :
    selectOf w = some (if w.toNat = 0 then none else if w.toNat = 1 then some .a else some .b) := by
  obtain h0 | h1 | h2 : w.toNat = 0 ∨ w.toNat = 1 ∨ w.toNat = 2 := by omega
  · simp [selectOf, h0]
  · simp [selectOf, h1]
  · simp [selectOf, h2]

theorem selectOf_invalid {w : Byte} (h : ¬ w.toNat ≤ 2) : selectOf w = none := by
  unfold selectOf
  split_ifs <;> first | rfl | omega

theorem relockPolicyOf_valid {w : Byte} (h : w.toNat ≤ 1) :
    relockPolicyOf w = some (if w.toNat = 0 then .auto else .latched) := by
  obtain h0 | h1 : w.toNat = 0 ∨ w.toNat = 1 := by omega
  · simp [relockPolicyOf, h0]
  · simp [relockPolicyOf, h1]

theorem relockPolicyOf_invalid {w : Byte} (h : ¬ w.toNat ≤ 1) : relockPolicyOf w = none := by
  unfold relockPolicyOf
  split_ifs <;> first | rfl | omega

theorem offset_value (a b c : Byte) : wordsValue [a, b, c] = 65536 * a.toNat + 256 * b.toNat + c.toNat := by
  simp [wordsValue]
  omega

end SetOutput

/-- Settles O45. -/
theorem setFeedReplacesSettings : Obligations.SetFeedReplacesSettings := by
  refine ⟨fun env cmd s h => ⟨fun hn => ?_, fun n hn hlen => ?_, fun n listen policy div threshold kind subkind hn hp => ?_⟩,
    fun env cmd s h => ⟨fun hn => ?_, fun n hn hlen => ?_, fun n sel a b c pol offset choice hn hp ho hc => ?_⟩⟩
  · exact setFeed_refused h (fun _ => by simp [ruleSetFeed, hn])
  · exact setFeed_refused h (ruleSetFeed_badLength hn hlen)
  · split
    · next hv => exact setFeed_done h _ (fun _ => by simp only [ruleSetFeed, hn, hp, parseSettings_valid hv])
    · next hv => exact setFeed_refused h (fun _ => by simp only [ruleSetFeed, hn, hp, parseSettings_invalid hv])
  · exact immediate_refused ruleSetOutput h rfl (by simp [ruleSetOutput, hn]; rfl)
  · exact immediate_refused ruleSetOutput h rfl (ruleSetOutput_badLength hn hlen _)
  · subst ho hc
    have hout : ((openTake 16 cmd.link (partAt 16 env cmd s)).outs.get n).standard = (s.part.outs.get n).standard
        ∧ ((openTake 16 cmd.link (partAt 16 env cmd s)).outs.get n).relockPending = (s.part.outs.get n).relockPending := by
      rw [openTake_eq]
      simp only [partAt_outs, found_outs, Four.get_modify]
      split <;> exact ⟨rfl, rfl⟩
    split
    · next hv =>
      obtain ⟨hs, hpol, ho⟩ := hv
      have hrule : ∀ p : Part, ruleSetOutput cmd p =
          if outPeriod (p.outs.get n) ≤ 65536 * a.toNat + 256 * b.toNat + c.toNat then deny .badValue
          else if (p.outs.get n).relockPending then deny .busy
          else .ok (modOut n (storeOutput (if sel.toNat = 0 then none else if sel.toNat = 1 then some .a else some .b)
            (65536 * a.toNat + 256 * b.toNat + c.toNat) (if pol.toNat = 0 then .auto else .latched)) p, []) := fun p => by
        simp only [ruleSetOutput, hn, hp, selectOf_valid hs, relockPolicyOf_valid hpol, offset_value]
      have hfit : ¬ outPeriod ((openTake 16 cmd.link (partAt 16 env cmd s)).outs.get n) ≤
          65536 * a.toNat + 256 * b.toNat + c.toNat := by rw [outPeriod, hout.1]; omega
      split
      · next hb => exact immediate_refused ruleSetOutput h rfl (by rw [hrule, if_neg hfit, hout.2, if_pos hb]; rfl)
      · next hb =>
        exact immediate_out_done ruleSetOutput h rfl (storeOutput _ _ _) (fun _ _ _ => rfl) (fun _ => ⟨rfl, rfl⟩)
          (by rw [hrule, if_neg hfit, hout.2, if_neg hb])
    · next hv =>
      refine immediate_refused ruleSetOutput h rfl ?_
      simp only [ruleSetOutput, hn, hp, offset_value]
      by_cases hs : sel.toNat ≤ 2
      · by_cases hpol : pol.toNat ≤ 1
        · have hfit : outPeriod ((openTake 16 cmd.link (partAt 16 env cmd s)).outs.get n) ≤
              65536 * a.toNat + 256 * b.toNat + c.toNat := by
            rw [outPeriod, hout.1]
            exact not_lt.1 (fun hlt => hv ⟨hs, hpol, hlt⟩)
          simp only [selectOf_valid hs, relockPolicyOf_valid hpol, if_pos hfit]
          rfl
        · simp only [selectOf_valid hs, relockPolicyOf_invalid hpol]
          rfl
      · simp only [selectOf_invalid hs]
        rfl

/-! ### SET LANE -/

theorem sourceOf_isSome (w : Byte) : (sourceOf w).isSome = true ↔ w.toNat < 4 := by
  unfold sourceOf
  split <;> simp_all

theorem sourceOf_val {w : Byte} {n : Ix} (h : sourceOf w = some n) : n.val = w.toNat := by
  unfold sourceOf at h
  split at h
  · cases h; rfl
  · cases h

theorem tcModeOf_isSome (w : Byte) : (tcModeOf w).isSome = true ↔ w.toNat ≤ 2 := by
  unfold tcModeOf
  split_ifs <;> simp <;> omega

theorem tcModeOf_word {w : Byte} {m : TcMode} (h : tcModeOf w = some m) : tcModeWord m = w.toNat := by
  unfold tcModeOf at h
  split_ifs at h <;> cases h <;> simp_all [tcModeWord]

theorem stdOfNumber_number {k : Nat} {c : Std} (h : stdOfNumber k = some c) : stdNumber c = k := by
  simpa using List.find?_some h

theorem stdNumber_range (c : Std) : 1 ≤ stdNumber c ∧ stdNumber c ≤ 14 := by cases c <;> decide

theorem stdOfNumber_isSome (k : Nat) : (stdOfNumber k).isSome = true ↔ 1 ≤ k ∧ k ≤ 14 := by
  constructor
  · intro h
    obtain ⟨c, hc⟩ := Option.isSome_iff_exists.1 h
    rw [← stdOfNumber_number hc]
    exact stdNumber_range c
  · rintro ⟨h1, h14⟩
    interval_cases k <;> rfl

theorem clampSlate_eq (v : Nat) : clampSlate v = max 4 (min 1019 v) := by
  unfold clampSlate
  split_ifs <;> omega

/-- The profile that 24 payload words spell, whether or not it is in range (Table 32). -/
def profileOf (ws : List Byte) (source : Ix) (input output : Std) (mode : TcMode) : Profile :=
  { source := source, input := input, output := output, latency := fieldAt ws 3 4, theta1 := fieldAt ws 7 2
    theta2 := fieldAt ws 9 2, theta3 := fieldAt ws 11 2, holdLimit := fieldAt ws 13 2
    slateY := clampSlate (fieldAt ws 15 2), slateCb := clampSlate (fieldAt ws 17 2)
    slateCr := clampSlate (fieldAt ws 19 2), acquireTimeout := fieldAt ws 21 2, tcMode := mode }

theorem parseProfile_some {ws : List Byte} {v : Profile} (h : parseProfile ws = some v) :
    ∃ source input output mode, sourceOf (ws.getD 0 0) = some source ∧ stdOfNumber (ws.getD 1 0).toNat = some input
      ∧ stdOfNumber (ws.getD 2 0).toNat = some output ∧ tcModeOf (ws.getD 23 0) = some mode
      ∧ profileInRange (profileOf ws source input output mode) = true ∧ v = profileOf ws source input output mode := by
  unfold parseProfile at h
  split at h
  · next source input output mode h1 h2 h3 h4 =>
    dsimp only at h
    split at h
    · next hr => cases h; exact ⟨source, input, output, mode, h1, h2, h3, h4, hr, rfl⟩
    · cases h
  · cases h

theorem parseProfile_of {ws : List Byte} {source : Ix} {input output : Std} {mode : TcMode}
    (h1 : sourceOf (ws.getD 0 0) = some source) (h2 : stdOfNumber (ws.getD 1 0).toNat = some input)
    (h3 : stdOfNumber (ws.getD 2 0).toNat = some output) (h4 : tcModeOf (ws.getD 23 0) = some mode)
    (hr : profileInRange (profileOf ws source input output mode) = true) :
    parseProfile ws = some (profileOf ws source input output mode) := by
  unfold parseProfile
  rw [h1, h2, h3, h4]
  exact if_pos hr

theorem profileInRange_iff (p : Profile) : profileInRange p = true ↔
    p.latency ≤ 21600000 ∧ p.theta1 ≤ p.theta2 ∧ p.theta2 ≤ p.theta3 ∧ p.theta3 ≤ 1023 ∧ p.holdLimit ≤ 1500
      ∧ 1 ≤ p.acquireTimeout ∧ p.acquireTimeout ≤ 600 := by
  simp [profileInRange, and_assoc]

/-- Settles O48. -/
theorem setLaneReplacesTheProfile : Obligations.SetLaneReplacesTheProfile := by
  refine ⟨fun env cmd s h => ⟨fun hn => ?_, fun n hn => ?_⟩, fun ws _ => ⟨fun h => ?_, fun h => ?_⟩, fun ws v h => ?_⟩
  · exact immediate_refused ruleSetLane h rfl (by simp [ruleSetLane, hn]; rfl)
  · have hstate : ((openTake 8 cmd.link (partAt 8 env cmd s)).lanes.get n).state = (s.part.lanes.get n).state := by
      simp [openTake_eq]
    split_ifs with hlen hst
    · exact immediate_refused ruleSetLane h rfl (by rw [ruleSetLane, hn]; exact if_pos hlen)
    · exact immediate_refused ruleSetLane h rfl (by rw [ruleSetLane, hn]; simp only [if_neg hlen, hstate, if_pos hst]; rfl)
    · split
      · next hv =>
        exact immediate_refused ruleSetLane h rfl
          (by rw [ruleSetLane, hn]; simp only [if_neg hlen, hstate, if_neg hst, hv]; rfl)
      · next v hv =>
        exact immediate_lane_done ruleSetLane h rfl n (storeProfile v)
          (by rw [ruleSetLane, hn]; simp only [if_neg hlen, hstate, if_neg hst, hv])
  · obtain ⟨v, hv⟩ := Option.isSome_iff_exists.1 h
    obtain ⟨source, input, output, mode, h1, h2, h3, h4, hr, -⟩ := parseProfile_some hv
    obtain ⟨r1, r2, r3, r4, r5, r6, r7⟩ := (profileInRange_iff _).1 hr
    obtain ⟨i1, i2⟩ := (stdOfNumber_isSome _).1 (Option.isSome_iff_exists.2 ⟨_, h2⟩)
    obtain ⟨o1, o2⟩ := (stdOfNumber_isSome _).1 (Option.isSome_iff_exists.2 ⟨_, h3⟩)
    exact ⟨(sourceOf_isSome _).1 (Option.isSome_iff_exists.2 ⟨_, h1⟩), i1, i2, o1, o2, r1, r2, r3, r4, r5, r6, r7,
      (tcModeOf_isSome _).1 (Option.isSome_iff_exists.2 ⟨_, h4⟩)⟩
  · obtain ⟨hs, i1, i2, o1, o2, r1, r2, r3, r4, r5, r6, r7, hm⟩ := h
    obtain ⟨source, h1⟩ := Option.isSome_iff_exists.1 ((sourceOf_isSome _).2 hs)
    obtain ⟨input, h2⟩ := Option.isSome_iff_exists.1 ((stdOfNumber_isSome _).2 ⟨i1, i2⟩)
    obtain ⟨output, h3⟩ := Option.isSome_iff_exists.1 ((stdOfNumber_isSome _).2 ⟨o1, o2⟩)
    obtain ⟨mode, h4⟩ := Option.isSome_iff_exists.1 ((tcModeOf_isSome _).2 hm)
    exact Option.isSome_iff_exists.2 ⟨_, parseProfile_of h1 h2 h3 h4 ((profileInRange_iff _).2 ⟨r1, r2, r3, r4, r5, r6, r7⟩)⟩
  · obtain ⟨source, input, output, mode, h1, h2, h3, h4, -, rfl⟩ := parseProfile_some h
    exact ⟨sourceOf_val h1, stdOfNumber_number h2, stdOfNumber_number h3, rfl, rfl, rfl, rfl, rfl, rfl, tcModeOf_word h4,
      clampSlate_eq _, clampSlate_eq _, clampSlate_eq _⟩

/-! ### RESUME -/

/-- A FAULTED lane after RESUME (R136, R151). -/
def laneResumed (l : Lane) : Lane := { l with tcCount := 0, fresh := true, holdCount := 0, state := .stopped }

theorem resumeLane_eq (n : Ix) (p : Part) : resumeLane n p = modLane n laneResumed p := by
  simp only [resumeLane, resetTimecode, clearHold, modLane, Four.modify_modify]
  rfl

/-- Settles O51. -/
theorem resumeReturnsAFaultedLane : Obligations.ResumeReturnsAFaultedLane := by
  intro env cmd s h
  have hstate (n : Ix) : ((openTake 11 cmd.link (partAt 11 env cmd s)).lanes.get n).state = (s.part.lanes.get n).state := by
    simp [openTake_eq]
  have hfault : (openTake 11 cmd.link (partAt 11 env cmd s)).fault = s.part.fault := partAt_fault
  refine ⟨fun hn => ?_, fun n hn hp => ?_, fun n hn hp hbad => ?_, fun n hn hp hst hd hl => ?_⟩
  · exact immediate_refused ruleResume h rfl (by simp [ruleResume, hn]; rfl)
  · exact immediate_refused ruleResume h rfl (by simp [ruleResume, hn, hp]; rfl)
  · refine immediate_refused ruleResume h rfl ?_
    simp only [ruleResume, hn, hp, ne_eq, not_true_eq_false, if_false, hstate, getLog, hfault]
    split_ifs <;> first | rfl | simp_all
  · refine immediate_lane_done ruleResume h rfl n laneResumed ?_
    simp only [ruleResume, hn, hp, ne_eq, not_true_eq_false, if_false, hstate, hst, getLog, hfault, hd, hl,
      Option.isSome_none, Bool.false_eq_true, resumeLane_eq]

end Sys2Proof.Machine.SettingAnswers
end

section
/-! SUPPORT. ACK CONDITIONS (R185): the pairs of its payload, the latches it clears. -/

namespace Sys2Proof.Machine.AckAnswers

open DeviceAnswers LogsLaw

/-! ### Pairs that name latches -/

theorem condKind_range (c : Cond) : 1 ≤ condKind c ∧ condKind c ≤ 9 := by cases c <;> simp [condKind]

theorem kindWord_eq (c : Cond) (kind : Byte) : BitVec.ofNat 8 (condKind c) = kind ↔ condKind c = kind.toNat := by
  have hr := condKind_range c
  constructor
  · rintro rfl
    rw [BitVec.toNat_ofNat, Nat.mod_eq_of_lt (by omega)]
  · intro e
    rw [e, BitVec.ofNat_toNat, BitVec.setWidth_eq]

/-- An owner word of a block is its base and the number of its block (Table 48). -/
theorem ownerWord_eq {base : Nat} (hb : base ≤ 48) (owner : Byte) :
    (∃ n : Ix, word (base + n.val) = owner) ↔ base ≤ owner.toNat ∧ owner.toNat ≤ base + 3 := by
  constructor
  · rintro ⟨n, rfl⟩
    rw [word, BitVec.toNat_ofNat, Nat.mod_eq_of_lt (by omega)]
    omega
  · rintro ⟨h1, h2⟩
    refine ⟨⟨owner.toNat - base, by omega⟩, ?_⟩
    apply BitVec.eq_of_toNat_eq
    simp only [word, BitVec.toNat_ofNat]
    omega

theorem namesLatch_iff (owner kind : Byte) :
    namesLatch owner kind ↔ ∃ c : Cond, condOwner c = owner ∧ BitVec.ofNat 8 (condKind c) = kind := by
  simp only [kindWord_eq]
  constructor
  · rintro (⟨k1, k2, h⟩ | ⟨k1, k2, h⟩ | ⟨k, h⟩ | ⟨k1, k2, h⟩)
    · obtain ⟨n, hn⟩ := (ownerWord_eq (base := 16) (by omega) owner).2 h
      obtain hk | hk : kind.toNat = 1 ∨ kind.toNat = 2 := by omega
      · exact ⟨.linkLost n, hn, hk.symm⟩
      · exact ⟨.slip n, hn, hk.symm⟩
    · obtain ⟨n, hn⟩ := (ownerWord_eq (base := 32) (by omega) owner).2 h
      obtain hk | hk | hk | hk : kind.toNat = 3 ∨ kind.toNat = 4 ∨ kind.toNat = 5 ∨ kind.toNat = 6 := by omega
      · exact ⟨.inputLost n, hn, hk.symm⟩
      · exact ⟨.stdMismatch n, hn, hk.symm⟩
      · exact ⟨.slate n, hn, hk.symm⟩
      · exact ⟨.faulted n, hn, hk.symm⟩
    · obtain ⟨n, hn⟩ := (ownerWord_eq (base := 48) le_rfl owner).2 h
      exact ⟨.refLost n, hn, k.symm⟩
    · have ho : word 0 = owner := BitVec.eq_of_toNat_eq (by simpa [word] using h.symm)
      obtain hk | hk : kind.toNat = 8 ∨ kind.toNat = 9 := by omega
      · exact ⟨.poolDegraded, ho, hk.symm⟩
      · exact ⟨.deviceFatal, ho, hk.symm⟩
  · rintro ⟨c, rfl, hk⟩
    unfold namesLatch
    cases c
    all_goals
      simp only [condKind] at hk
      simp only [condOwner, ← hk, word, BitVec.toNat_ofNat, true_and, and_true]
      omega

theorem condOf_none {owner kind : Byte} (h : ¬ namesLatch owner kind) : condOf owner kind = none := by
  refine List.find?_eq_none.2 fun c _ hc => h ((namesLatch_iff owner kind).2 ⟨c, ?_⟩)
  simp only [Bool.and_eq_true, beq_iff_eq] at hc
  exact ⟨hc.1, (kindWord_eq c kind).2 hc.2⟩

/-- A condition's own words name it. -/
theorem condOf_words (c : Cond) : condOf (condOwner c) (BitVec.ofNat 8 (condKind c)) = some c := by
  have key : ∀ c ∈ allConds, condOf (condOwner c) (BitVec.ofNat 8 (condKind c)) = some c := by decide
  exact key c (mem_allConds c)

theorem parsePairs_bad {owner kind : Byte} (back : List Byte) (h : ¬ namesLatch owner kind) :
    ∀ front : List Byte, front.length % 2 = 0 → parsePairs (front ++ owner :: kind :: back) = none
  | [], _ => by simp [parsePairs, condOf_none h]
  | [_], hf => by simp at hf
  | a :: b :: rest, hf => by
    have ih := parsePairs_bad back h rest (by simp only [List.length_cons] at hf; omega)
    simp only [List.cons_append, parsePairs, ih]
    cases condOf a b <;> rfl

/-- The payload that names conditions (R185). -/
def pairsOf (cs : List Cond) : List Byte := cs.flatMap (fun c => [condOwner c, BitVec.ofNat 8 (condKind c)])

theorem parsePairs_pairsOf (cs : List Cond) : parsePairs (pairsOf cs) = some cs := by
  induction cs with
  | nil => rfl
  | cons c cs ih =>
    have e : pairsOf (c :: cs) = condOwner c :: BitVec.ofNat 8 (condKind c) :: pairsOf cs := rfl
    simp only [e, parsePairs, condOf_words, ih]

theorem pairsOf_length (cs : List Cond) : (pairsOf cs).length = 2 * cs.length := by
  induction cs with
  | nil => rfl
  | cons c cs ih =>
    have e : pairsOf (c :: cs) = condOwner c :: BitVec.ofNat 8 (condKind c) :: pairsOf cs := rfl
    simp only [e, List.length_cons, ih]
    omega

/-! ### The latches that an acknowledgement leaves -/

section Left
variable {p : Part}

/-- The latches left of those set, where `cs` are acknowledged (R185). -/
def latchesLeft (cs : List Cond) (p : Part) : List Cond :=
  p.fault.latches.filter (fun c => !(cs.contains c) || causePresent p c)

/-- The part with its latches replaced. -/
def withLatches (ls : List Cond) (p : Part) : Part := { p with fault := { p.fault with latches := ls } }

theorem causePresent_withLatches (ls : List Cond) (c : Cond) : causePresent (withLatches ls p) c = causePresent p c := by
  cases c <;> rfl

theorem ackOne_eq (c : Cond) : ackOne c p = withLatches (latchesLeft [c] p) p := by
  unfold ackOne
  split
  · next h =>
    have e : latchesLeft [c] p = p.fault.latches := List.filter_eq_self.2 fun d _ => by
      by_cases hd : d = c
      · rw [hd, h, Bool.or_true]
      · simp [hd]
    rw [e]
    rfl
  · next h =>
    have e : latchesLeft [c] p = p.fault.latches.filter (fun d => d != c) := List.filter_congr fun d _ => by
      by_cases hd : d = c
      · simp [hd, h]
      · simp [hd]
    rw [e]
    rfl

theorem forAll_ackOne (cs : List Cond) : ∀ p : Part, forAll cs ackOne p = withLatches (latchesLeft cs p) p := by
  induction cs with
  | nil =>
    intro p
    have e : latchesLeft [] p = p.fault.latches := List.filter_eq_self.2 fun _ _ => rfl
    rw [e]
    rfl
  | cons c cs ih =>
    intro p
    have hstep : forAll (c :: cs) ackOne p = forAll cs ackOne (ackOne c p) := rfl
    have hleft : latchesLeft cs (withLatches (latchesLeft [c] p) p) = latchesLeft (c :: cs) p := by
      simp only [latchesLeft, withLatches, List.filter_filter]
      refine List.filter_congr fun d _ => ?_
      have hcause : causePresent (withLatches (latchesLeft [c] p) p) d = causePresent p d := causePresent_withLatches _ _
      simp only [withLatches, latchesLeft] at hcause
      rw [hcause]
      by_cases hd : d = c
      · subst hd; cases causePresent p d <;> simp
      · simp [hd]
    rw [hstep, ackOne_eq, ih, hleft]
    rfl

/-- What an acknowledgement leaves of the fault unit. -/
def acknowledged (kept : List Cond) (u : FaultUnit) : FaultUnit :=
  { u with latches := kept, alarm := kept.any (fun c => u.mask.getLsbD (condKind c - 1)) }

theorem ackAll_eq (cs : List Cond) : ackAll cs p = modFault (acknowledged (latchesLeft cs p)) p := by
  rw [ackAll, forAll_ackOne]
  rfl

end Left

/-! ### The command -/

section Rules
variable {cmd : Command} {p : Part}

theorem ruleAck_badTarget (h : targetOf cmd.target ≠ .device) : ruleAckConditions cmd p = deny .badTarget := if_pos h

theorem ruleAck_badLength (h : targetOf cmd.target = .device)
    (hl : cmd.payload.length % 2 = 1 ∨ cmd.payload.length < 2 ∨ 60 < cmd.payload.length) :
    ruleAckConditions cmd p = deny .badLength := by
  have hlen : ackLength cmd.payload = false := by
    rw [Bool.eq_false_iff]
    intro e
    simp only [ackLength, Bool.and_eq_true, decide_eq_true_eq] at e
    omega
  rw [ruleAckConditions, if_neg (not_not.2 h), if_pos hlen]

theorem ruleAck_pairs (h : targetOf cmd.target = .device) (h2 : cmd.payload.length % 2 = 0)
    (hmin : 2 ≤ cmd.payload.length) (hmax : cmd.payload.length ≤ 60) :
    ruleAckConditions cmd p = match parsePairs cmd.payload with
      | none => deny .badValue
      | some cs => .ok (ackAll cs p, latchList (ackAll cs p)) := by
  have hlen : ackLength cmd.payload = true := by simp [ackLength, h2, hmin, hmax]
  exact (if_neg (not_not.2 h)).trans (if_neg (by rw [hlen]; simp))

end Rules

theorem latchesLeft_taken {code : Byte} {env : Env} {cmd : Command} {s : State} (cs : List Cond) :
    latchesLeft cs (openTake code cmd.link (partAt code env cmd s)) = latchesLeft cs s.part := by
  have hcause : sameCauses s.part (openTake code cmd.link (partAt code env cmd s)) :=
    sameCauses_trans (sameCauses_trans (sameCauses_begin env.time env.upsets) (sameCauses_arrive _ _)) (sameCauses_openTake _ _)
  have hfault : (openTake code cmd.link (partAt code env cmd s)).fault = s.part.fault := partAt_fault
  simp only [latchesLeft, hfault, hcause _]

/-- Settles O59. -/
theorem acknowledgementClears : Obligations.AcknowledgementClears := by
  refine ⟨fun env cmd s h => ⟨fun ht => ?_, fun ht hl => ?_, fun ht h2 hmin hmax hbad => ?_, fun cs ht hne hle hp => ?_⟩,
    namesLatch_iff⟩
  · exact immediate_refused ruleAckConditions h rfl (ruleAck_badTarget ht)
  · exact immediate_refused ruleAckConditions h rfl (ruleAck_badLength ht hl)
  · obtain ⟨front, back, owner, kind, hp, hf, hn⟩ := hbad
    refine immediate_refused ruleAckConditions h rfl ((ruleAck_pairs ht h2 hmin hmax).trans ?_)
    rw [hp, parsePairs_bad back hn front hf]
    rfl
  · have hp : cmd.payload = pairsOf cs := hp
    have hlen : cmd.payload.length = 2 * cs.length := by rw [hp, pairsOf_length]
    have hpos : 0 < cs.length := List.length_pos_iff.2 hne
    refine ⟨latchesLeft cs s.part, rfl, ?_⟩
    refine immediate_fault ruleAckConditions h rfl (acknowledged (latchesLeft cs s.part)) ?_ (fun _ hd => hd)
    rw [ruleAck_pairs ht (by omega) (by omega) (by omega), hp, parsePairs_pairsOf]
    simp only [ackAll_eq, latchesLeft_taken]
    rfl

end Sys2Proof.Machine.AckAnswers
end

section
/-! SUPPORT. QUERY COUNTERS (R178): the words of a counter, then the answer and the clear. -/

namespace Sys2Proof.Machine.CounterAnswers

open DeviceAnswers SettingAnswers

/-! ### Words -/

theorem beWords_length (k v : Nat) : (beWords k v).length = k := by
  induction k with
  | zero => rfl
  | succ k ih => simp [beWords, ih]

/-- A byte keeps the value modulo 256. -/
theorem ofNat_mod (v : Nat) : BitVec.ofNat 8 (v % 256) = BitVec.ofNat 8 v := by
  apply BitVec.eq_of_toNat_eq
  simp

/-- Word i of k, most significant first. -/
theorem beWords_get {k v i : Nat} (hi : i < k) :
    (beWords k v)[i]? = some (BitVec.ofNat 8 (v / 256 ^ (k - 1 - i) % 256)) := by
  induction k generalizing i with
  | zero => omega
  | succ k ih =>
    cases i with
    | zero => simp [beWords, ofNat_mod]
    | succ i =>
      rw [beWords, List.getElem?_cons_succ, ih (by omega)]
      congr 5
      omega

theorem counterWords_length (cs : List Nat) : (counterWords cs).length = 4 * cs.length := by
  induction cs with
  | nil => rfl
  | cons c cs ih =>
    have e : counterWords (c :: cs) = beWords 4 c ++ counterWords cs := rfl
    simp only [e, List.length_append, beWords_length, ih, List.length_cons]
    omega

theorem counterWords_get {cs : List Nat} {i v : Nat} (hv : cs[i]? = some v) {b : Nat} (hb : b < 4) :
    (counterWords cs)[4 * i + b]? = some (BitVec.ofNat 8 (v / 256 ^ (3 - b) % 256)) := by
  induction cs generalizing i with
  | nil => simp at hv
  | cons c cs ih =>
    have e : counterWords (c :: cs) = beWords 4 c ++ counterWords cs := rfl
    cases i with
    | zero =>
      cases hv
      rw [e, List.getElem?_append_left (by rw [beWords_length]; omega), beWords_get (by omega)]
      simp
    | succ i =>
      rw [e, List.getElem?_append_right (by rw [beWords_length]; omega), beWords_length]
      exact (congrArg ((counterWords cs)[·]?) (by omega)).trans (ih hv)

/-! ### The answer -/

section Answer
variable {env : Env} {cmd : Command} {s : State} {p : Part}

/-- The opening of a take changes no counter. -/
theorem countersOf_openTake (t : Target) (code : Byte) (n : Ix) : countersOf t (openTake code n p) = countersOf t p := by
  cases t with
  | output m =>
    simp only [countersOf, openTake_eq, Four.get_modify]
    split <;> rfl
  | _ => rfl

/-- The part with every counter of a target at 0 (R178). -/
def cleared (t : Target) (q : Part) : Part :=
  match t with
  | .device =>
    { q with store := { q.store with ctr := ⟨0, 0, 0, 0, 0, 0, 0⟩ }, mgmt := { q.mgmt with ctr := ⟨0, 0, 0, 0, 0⟩ } }
  | .feed n =>
    { q with
      links := q.links.modify n (fun l => { l with ctr := ⟨0, 0, 0, 0, 0, 0, 0⟩ })
      feeds := q.feeds.modify n (fun f => { f with ctr := ⟨0, 0, 0, 0, 0, 0, 0, 0⟩ }) }
  | .lane n =>
    { q with lanes := q.lanes.modify n (fun l =>
      { l with
        jobCtr := ⟨0, 0, 0, 0, 0, 0, 0, 0, 0, 0⟩
        laneCtr := ⟨0, 0, 0, 0, 0, 0, 0, 0⟩
        carryCtr := ⟨0, 0, 0, 0, 0, 0, 0, 0⟩ }) }
  | .output n => { q with outs := q.outs.modify n (fun o => { o with ctr := ⟨0, 0, 0, 0, 0, 0, 0⟩ }) }
  | .log _ => q
  | .unused => q

theorem cleared_fault (t : Target) : (cleared t p).fault = p.fault := by cases t <;> rfl

/-- The clear, answered: the counters of the target start afresh, the command itself counted at the device. -/
theorem cleared_answered (t : Target) (n : Ix) (r : Reply) :
    countTake false (postReply n r (clearCounters t (openTake 3 n p))) = answered n r false (cleared t p) := by
  have hneed : need 3 = 1 := rfl
  cases t with
  | output m =>
    have hout := modify_answered n r p.outs (f := fun o : OutUnit => { o with ctr := ⟨0, 0, 0, 0, 0, 0, 0⟩ }) (n := m)
      (fun _ _ _ => rfl) (fun _ => ⟨rfl, rfl⟩)
    simp only [clearCounters, countTake, postReply, bumpMgmt, modMgmt, modOut, answered, openTake_eq, hneed, cleared, hout,
      servedMgmt]
  | _ =>
    simp only [clearCounters, countTake, postReply, bumpMgmt, modMgmt, modOut, modLink, modFeed, modLane, modStore, answered,
      openTake_eq, hneed, reserve_post, cleared, servedMgmt]

theorem ruleQueryCounters_some {cs : List Nat} (hc : countersOf (targetOf cmd.target) p = some cs) {w : Byte}
    (hp : cmd.payload = [w]) : ruleQueryCounters cmd p =
      if w.toNat = 0 then .ok (p, counterWords cs)
      else if w.toNat = 1 then .ok (clearCounters (targetOf cmd.target) p, counterWords cs)
      else deny .badValue := by simp only [ruleQueryCounters, hc, hp]

theorem ruleQueryCounters_badLength {cs : List Nat} (hc : countersOf (targetOf cmd.target) p = some cs)
    (hp : cmd.payload.length ≠ 1) : ruleQueryCounters cmd p = deny .badLength := by
  simp only [ruleQueryCounters, hc]
  split
  · next e => simp [e] at hp
  · rfl

end Answer

/-- Settles O43. -/
theorem counterQueriesAnswer : Obligations.CounterQueriesAnswer := by
  refine ⟨?_, fun t p => by cases t <;> rfl, fun cs => ⟨counterWords_length cs, fun i v hv b hb => counterWords_get hv hb⟩⟩
  rintro env cmd s q h rfl
  have hopen : countersOf (targetOf cmd.target) (openTake 3 cmd.link (partAt 3 env cmd s)) =
      countersOf (targetOf cmd.target) (partAt 3 env cmd s) := countersOf_openTake _ _ _
  refine ⟨fun hc => ?_, fun cs hc hp => ?_, fun cs w hc hp hw => ?_, fun cs hc hp => ?_, fun cs hc hp => ?_⟩
  · exact immediate_refused ruleQueryCounters h rfl (by simp only [ruleQueryCounters, hopen, hc]; rfl)
  · exact immediate_refused ruleQueryCounters h rfl (ruleQueryCounters_badLength (hopen.trans hc) hp)
  · refine immediate_refused ruleQueryCounters h rfl ((ruleQueryCounters_some (hopen.trans hc) hp).trans ?_)
    rw [if_neg (by omega), if_neg (by omega)]
    rfl
  · exact immediate_answered ruleQueryCounters h rfl (ruleQueryCounters_some (hopen.trans hc) hp)
  · have hr := ruleQueryCounters_some (hopen.trans hc) hp
    refine (immediate_accepted (q'' := cleared (targetOf cmd.target) (partAt 3 env cmd s)) ruleQueryCounters h
      (hr.trans rfl) (fun r => cleared_answered _ _ r) ?_).trans ?_
    · rw [cleared_fault]
      exact fatalDue_partAt h
    · cases targetOf cmd.target <;> rfl

end Sys2Proof.Machine.CounterAnswers
end

section
/-! SUPPORT. QUERY STATUS (R177) and QUERY CONDITIONS (R186): the words of every table of status. -/

namespace Sys2Proof.Machine.StatusAnswers

open DeviceAnswers CounterAnswers LogsLaw

/-! ### Signed values -/

theorem int_digit (v : Int) {k i : Nat} (hi : i < k) :
    v % (256 ^ k : Nat) / (256 ^ (k - 1 - i) : Nat) % 256 = v / (256 ^ (k - 1 - i) : Nat) % 256 := by
  obtain ⟨j, rfl⟩ : ∃ j, k = i + 1 + j := ⟨k - 1 - i, by omega⟩
  have he : i + 1 + j - 1 - i = j := by omega
  have hd : (0 : Int) < (256 ^ j : Nat) := by positivity
  have hm : ((256 ^ (i + 1 + j) : Nat) : Int) = (256 ^ j : Nat) * (256 * (256 ^ i : Nat)) := by push_cast; ring
  rw [he]
  generalize ((256 ^ j : Nat) : Int) = d at hd hm
  have hdiv : v % (d * (256 * (256 ^ i : Nat))) / d = v / d - 256 * ((256 ^ i : Nat) * (v / (d * (256 * (256 ^ i : Nat))))) := by
    rw [Int.emod_def, sub_eq_add_neg, mul_assoc d, ← mul_neg, Int.add_mul_ediv_left _ _ hd.ne']
    ring
  rw [hm, hdiv, Int.sub_mul_emod_self_left]

theorem ofNat_toNat_ofInt {x : Int} (h : 0 ≤ x) : BitVec.ofNat 8 x.toNat = BitVec.ofInt 8 x := by
  obtain ⟨n, rfl⟩ := Int.eq_ofNat_of_zero_le h
  rfl

theorem beWordsInt_length (k : Nat) (v : Int) : (beWordsInt k v).length = k := beWords_length k _

theorem beWordsInt_get (v : Int) {k i : Nat} (hi : i < k) :
    (beWordsInt k v)[i]? = some (BitVec.ofInt 8 (v / (256 ^ (k - 1 - i) : Nat) % 256)) := by
  rw [beWordsInt, beWords_get hi, ← int_digit v hi, ← ofNat_toNat_ofInt (Int.emod_nonneg _ (by decide))]
  congr 2
  obtain ⟨m, hm⟩ := Int.eq_ofNat_of_zero_le (Int.emod_nonneg v (by positivity : ((256 ^ k : Nat) : Int) ≠ 0))
  rw [hm]
  rfl

/-! ### The tables -/

section Tables
variable (p : Part) (n : Ix) (r : Bool)

theorem linkStatus_eq (l : LinkRx) : linkStatus l =
    [(match l.state with | .dark => 0 | .seeking => 1 | .measuring => 2 | .locked _ => 3),
      (match l.state with
        | .locked c => word (stdNumber c)
        | .dark => 0
        | .seeking => 0
        | .measuring => 0),
      (match l.lastCode with | some c => word (stdNumber c) | none => 0), word l.missedRun,
      flagWord l.settings.listen, (match l.settings.policy with | .contain => 0 | .pass => 1),
      word l.settings.wDiv, word l.settings.threshold, l.settings.tcKind, l.settings.tcSubkind] := by
  unfold linkStatus settingsWords
  cases l.state <;> cases l.lastCode <;> cases l.settings.policy <;> rfl

theorem captureStatus_eq (f : Feed) : captureStatus f =
    [flagWord f.captureOn, word f.history.length, (match f.lastStamp with | some _ => 1 | none => 0)]
      ++ beWordsInt 8 (match f.lastStamp with | some v => v | none => 0) ++ beWordsInt 4 f.dPrev
      ++ beWords 2 f.segment ++ beWords 4 f.nextSeq := by
  unfold captureStatus
  cases f.lastStamp <;> rfl

theorem jobStatus_eq (j : JobRec) : jobStatus j =
    [flagWord j.inFlight,
      (match j.kase with
        | .none => (0 : Byte) | .bracket => 1 | .earlyClamp => 2 | .lateClamp => 3 | .frozen => 4 | .slate => 5),
      (match j.phase with | some v => word v | none => 0)]
    ++ [j.tm1, j.t0, j.t1, j.t2].map
        (fun t => match t.state with | .absent => (0 : Byte) | .present => 1 | .poisoned => 2)
    ++ [(match j.fallback with
        | none => (0 : Byte)
        | some b => match b.poisonedFrom with | none => 1 | some _ => 2),
      flagWord j.motionValid]
    ++ beWords 4 (match j.t0.entry with | some x => x.seq | none => 0)
    ++ beWordsInt 8 (match j.target with | some v => v | none => 0) := by
  have hcase : word (caseWord j.kase) = (match j.kase with
      | .none => (0 : Byte) | .bracket => 1 | .earlyClamp => 2 | .lateClamp => 3 | .frozen => 4 | .slate => 5) := by
    cases j.kase <;> rfl
  have htap : ∀ t : TapState, word (tapWord t) = (match t with | .absent => (0 : Byte) | .present => 1 | .poisoned => 2) := by
    intro t; cases t <;> rfl
  have hfb : word (fallbackWord j.fallback) = (match j.fallback with
      | none => (0 : Byte)
      | some b => match b.poisonedFrom with | none => 1 | some _ => 2) := by
    unfold fallbackWord
    rcases j.fallback with _ | ⟨e, _ | v⟩ <;> rfl
  unfold jobStatus
  rw [hcase, hfb, htap, htap, htap, htap]
  cases j.phase <;> cases j.t0.entry <;> cases j.target <;> rfl

theorem profileWords_eq (pr : Profile) : profileWords pr =
    [word pr.source.val, word (stdNumber pr.input), word (stdNumber pr.output)] ++ beWords 4 pr.latency
      ++ beWords 2 pr.theta1 ++ beWords 2 pr.theta2 ++ beWords 2 pr.theta3 ++ beWords 2 pr.holdLimit
      ++ beWords 2 pr.slateY ++ beWords 2 pr.slateCb ++ beWords 2 pr.slateCr ++ beWords 2 pr.acquireTimeout
      ++ [(match pr.tcMode with | .off => (0 : Byte) | .free => 1 | .follow => 2)] := by
  unfold profileWords
  cases pr.tcMode <;> rfl

theorem controlStatus_eq (l : Lane) (hl : l = p.lanes.get n) : controlStatus p n =
    [(match l.state with
        | .stopped => (0 : Byte) | .acquiring => 1 | .converting => 2 | .holding => 3 | .slate => 4 | .faulted => 5),
      (if (p.mgmt.laneOps.get n).map PendingOp.op = some .start then 1 else 0), flagWord l.usable,
      flagWord p.mute]
    ++ beWords 2 l.holdCount ++ beWords 8 (match l.acquireAt with | some v => v | none => 0)
    ++ profileWords l.profile := by
  subst hl
  have hstate : ∀ s : LaneState, word (laneStateWord s) = (match s with
      | .stopped => (0 : Byte) | .acquiring => 1 | .converting => 2 | .holding => 3 | .slate => 4 | .faulted => 5) := by
    intro s; cases s <;> rfl
  have hop : flagWord (laneOpKind p n == some .start) =
      (if (p.mgmt.laneOps.get n).map PendingOp.op = some .start then 1 else 0) := by
    simp [flagWord, laneOpKind]
  unfold controlStatus
  dsimp only
  rw [hstate, hop]
  cases (p.lanes.get n).acquireAt <;> rfl

theorem carriageStatus_eq (l : Lane) : carriageStatus l =
    [(match l.profile.tcMode with | .off => (0 : Byte) | .free => 1 | .follow => 2)]
    ++ beWords 3 l.tcCount ++ [flagWord l.fresh]
    ++ (match l.lastLabel with
        | some b => [word b.hours, word b.minutes, word b.seconds, word b.frames,
            word ((if b.drop then 1 else 0) + (if b.second then 2 else 0))]
        | none => [0, 0, 0, 0, 0])
    ++ [word l.carry.length, word l.route.entries.length,
      (match l.route.default with | .carry => 0 | .drop => 1)]
    ++ (match l.carry with
        | [] => List.replicate 13 0
        | x :: _ =>
          (match x.source with
            | some q => 1 :: beWords 4 q
            | none => [2, 0, 0, 0, 0]) ++ beWordsInt 8 x.stamp) := by
  have hmode : word (tcModeWord l.profile.tcMode) =
      (match l.profile.tcMode with | .off => (0 : Byte) | .free => 1 | .follow => 2) := by
    cases l.profile.tcMode <;> rfl
  have hsource : ∀ v : Option Nat, [if v.isSome then (1 : Byte) else 2] ++ beWords 4 (v.getD 0) =
      (match v with | some q => 1 :: beWords 4 q | none => [2, 0, 0, 0, 0]) := by
    rintro (_ | q)
    · decide
    · rfl
  unfold carriageStatus
  rw [hmode]
  rcases l.carry with _ | ⟨x, xs⟩
  · cases l.route.default <;> cases l.lastLabel <;> rfl
  · have hx := congrArg (· ++ beWordsInt 8 x.stamp) (hsource x.source)
    cases l.route.default <;> cases l.lastLabel <;> exact congrArg (_ ++ ·) hx

theorem tableStatus_eq (l : Lane) : tableStatus l =
    (match l.commit with
        | none => [0, 0]
        | some c => [1, word ((if c.tt.isSome then 1 else 0) + (if c.hc.isSome then 2 else 0)
            + (if c.vc.isSome then 4 else 0))])
    ++ beWords 2 l.tables.tt.crc.toNat ++ beWords 2 l.tables.hc.crc.toNat ++ beWords 2 l.tables.vc.crc.toNat := by
  unfold tableStatus
  cases l.commit <;> rfl

theorem outStatus_eq (o : OutUnit) (ho : o = p.outs.get n) : outStatus p n =
    [(match o.lock with | .free => (0 : Byte) | .locked _ => 1 | .holdover _ => 2),
      (match o.select with | none => 0 | some .a => 1 | some .b => 2)]
    ++ beWords 3 o.offset
    ++ [(match o.policy with | .auto => (0 : Byte) | .latched => 1), word (stdNumber o.standard),
      (match o.last.parity with | some .top => 0 | some .bottom => 1 | none => 2)]
    ++ beWordsInt 8 o.last.instant
    ++ beWordsInt 4 (match o.lock with | .free => 0 | .locked al => (al.pm : Int) | .holdover ph => ph)
    ++ [(match o.lock with
        | .locked al => word (al.k + (if al.faster then 128 else 0))
        | .free => 0
        | .holdover _ => 0),
      flagWord o.relockPending, word o.replies.length, word o.reserved, word o.notices.length]
    ++ [p.refA, p.refB].flatMap
        (fun v => flagWord v.present :: beWords 4 (match v.pr with | some x => x | none => 0)) := by
  subst ho
  have href : ∀ v : RefInput, refStatus v = flagWord v.present :: beWords 4 (match v.pr with | some x => x | none => 0) := by
    intro v; unfold refStatus; cases v.pr <;> rfl
  have hsel : ∀ v : Option RefId, word (selectWord v) = (match v with | none => 0 | some .a => 1 | some .b => 2) := by
    intro v; rcases v with _ | _ | _ <;> rfl
  have hpar : ∀ b : Boundary, word (parityWord b) = (match b.parity with | some .top => 0 | some .bottom => 1 | none => 2) := by
    intro b; unfold parityWord; rcases b.parity with _ | _ | _ <;> rfl
  unfold outStatus
  dsimp only
  rw [hsel, hpar, href, href]
  cases (p.outs.get n).policy <;> rcases (p.outs.get n).lock with _ | _ | _ <;> rfl

/-! ### The device -/

/-- The slot records in the order of their numbers. -/
theorem slots_toList : p.store.slots.toList = (List.finRange 64).map (slotOf p) := by
  apply List.ext_getElem
  · simp
  · intro i h1 h2
    simp [slotOf]

theorem slots_countP (f : SlotRec → Bool) :
    p.store.slots.toList.countP f = (List.finRange 64).countP (fun k => f (slotOf p k)) := by
  rw [slots_toList, List.countP_map]
  rfl

theorem foldl_max_le (xs : List SlotRec) (m : Nat) :
    m ≤ xs.foldl (fun m r => max m r.corrected) m ∧ (∀ r ∈ xs, r.corrected ≤ xs.foldl (fun m r => max m r.corrected) m)
      ∧ (xs.foldl (fun m r => max m r.corrected) m = m
        ∨ ∃ r ∈ xs, r.corrected = xs.foldl (fun m r => max m r.corrected) m) := by
  induction xs generalizing m with
  | nil => simp
  | cons x xs ih =>
    obtain ⟨h1, h2, h3⟩ := ih (max m x.corrected)
    simp only [List.foldl_cons]
    refine ⟨le_trans (le_max_left _ _) h1, fun r hr => ?_, ?_⟩
    · rcases List.mem_cons.1 hr with rfl | hr
      · exact le_trans (le_max_right _ _) h1
      · exact h2 r hr
    · rcases h3 with h3 | ⟨r, hr, h3⟩
      · rcases max_choice m x.corrected with hm | hm
        · exact .inl (h3.trans hm)
        · exact .inr ⟨x, List.mem_cons_self, (h3.trans hm).symm⟩
      · exact .inr ⟨r, List.mem_cons_of_mem _ hr, h3⟩

/-- No slot has more correctable errors than the worst count (Table 20). -/
theorem corrected_le_worst (k : SlotIx) : (slotOf p k).corrected ≤ worstCount p :=
  (foldl_max_le p.store.slots.toList 0).2.1 _ (by rw [slots_toList]; exact List.mem_map_of_mem (List.mem_finRange k))

/-- The worst slot is the first that holds the worst count, where that is not 0 (Table 20). -/
theorem worstSlot_first (h : 0 < worstCount p) : ∃ k : SlotIx, k.val = worstSlot p ∧ (slotOf p k).corrected = worstCount p
    ∧ ∀ i : SlotIx, i.val < worstSlot p → (slotOf p i).corrected < worstCount p := by
  have hslot : worstSlot p = p.store.slots.toList.findIdx (fun r => r.corrected == worstCount p) :=
    if_neg (Nat.pos_iff_ne_zero.1 h)
  have hlen : p.store.slots.toList.length = 64 := by simp
  have hex : ∃ r ∈ p.store.slots.toList, (r.corrected == worstCount p) = true := by
    rcases (foldl_max_le p.store.slots.toList 0).2.2 with h0 | ⟨r, hr, he⟩
    · exact absurd h0 (Nat.pos_iff_ne_zero.1 h)
    · exact ⟨r, hr, beq_iff_eq.2 he⟩
  have hlt := List.findIdx_lt_length.2 hex
  rw [hlen, ← hslot] at hlt
  refine ⟨⟨worstSlot p, hlt⟩, rfl, ?_, fun i hi => lt_of_le_of_ne (corrected_le_worst p i) fun e => ?_⟩
  · have hget := List.findIdx_getElem (w := List.findIdx_lt_length.2 hex)
    simp only [beq_iff_eq, ← hslot, Vector.getElem_toList] at hget
    exact hget
  · rw [hslot] at hi
    have hnot := List.not_of_lt_findIdx hi
    rw [Vector.getElem_toList] at hnot
    exact beq_eq_false_iff_ne.1 hnot e

theorem pendingWord_eq (o : Option PendingOp) : word (pendingWord o) = (match o.map PendingOp.op with
    | none => (0 : Byte)
    | some .start => 1
    | some .commit => 2
    | some .relock => 1) := by
  rcases o with _ | ⟨_ | _ | _, _, _, _, _⟩ <;> rfl

theorem logWord_eq (l : Option LogRec) : logWord l = (match l with
    | none => (0 : Byte)
    | some g => match g.severity with | .note => 1 | .degraded => 2 | .fatal => 3) := by
  rcases l with _ | ⟨_, _ | _ | _, _, _, _, _, _⟩ <;> rfl

theorem deviceStatus_eq : deviceStatus p r =
    [flagWord (!p.store.initRunning), word p.store.initNext]
    ++ [SlotState.uninitialized, .free, .filling, .history, .retiring, .quarantined].map
        (fun st => word ((List.finRange 64).countP (fun k => decide ((slotOf p k).state = st))))
    ++ [(0 : Ix), 1, 2, 3].map (fun n => word ((List.finRange 64).countP (fun k =>
        decide ((slotOf p k).owner = some n ∧ ((slotOf p k).state = .filling
          ∨ (slotOf p k).state = .history ∨ (slotOf p k).state = .retiring)))))
    ++ [word ((List.finRange 64).countP (fun k => (slotOf p k).poisoned)), word (worstCount p), word (worstSlot p),
      flagWord p.fault.deviceFatal]
    ++ [flagWord r]
    ++ [(0 : Ix), 1, 2, 3].map (fun n => word (p.mgmt.queues.get n).length)
    ++ [(0 : Ix), 1, 2, 3].map (fun n => word (p.mgmt.lost.get n))
    ++ [word p.mgmt.lastServed.val]
    ++ [(0 : Ix), 1, 2, 3].map (fun n => match (p.mgmt.laneOps.get n).map PendingOp.op with
        | none => (0 : Byte)
        | some .start => 1
        | some .commit => 2
        | some .relock => 1)
    ++ [(0 : Ix), 1, 2, 3].map (fun n => match (p.mgmt.outOps.get n).map PendingOp.op with
        | none => (0 : Byte)
        | some .start => 1
        | some .commit => 2
        | some .relock => 1)
    ++ [word p.straps.address.val, (if p.straps.stdSel then 4 else 3)]
    ++ [flagWord p.fault.alarm] ++ beWords 2 p.fault.mask.toNat ++ [word p.fault.latches.length]
    ++ ([(0 : Ix), 1, 2, 3].map p.fault.feedLogs.get ++ [(0 : Ix), 1, 2, 3].map p.fault.laneLogs.get
        ++ [p.fault.deviceLog]).map
      (fun g => match g with
        | none => (0 : Byte)
        | some g => match g.severity with | .note => 1 | .degraded => 2 | .fatal => 3) := by
  have hcount : ∀ st : SlotState, countSlots p st = (List.finRange 64).countP (fun k => decide ((slotOf p k).state = st)) :=
    fun st => slots_countP p _
  have hheld : ∀ m : Ix, heldBy p m = (List.finRange 64).countP (fun k =>
      decide ((slotOf p k).owner = some m ∧ ((slotOf p k).state = .filling
        ∨ (slotOf p k).state = .history ∨ (slotOf p k).state = .retiring))) := fun m =>
    (slots_countP p _).trans (List.countP_congr fun k _ => by simp [or_assoc])
  have hstd : word (stdNumber (strapStd p.straps)) = if p.straps.stdSel then 4 else 3 := by
    unfold strapStd
    cases p.straps.stdSel <;> rfl
  have hpoison := slots_countP p SlotRec.poisoned
  simp only [deviceStatus, storeStatus, managementStatus, faultStatus, hcount, hheld, hstd, hpoison, pendingWord_eq, logWord_eq,
    allLogs, allIx]
  rfl

end Tables

/-- The words of a target (R177). -/
theorem statusOf_length (t : Target) (p : Part) (r : Bool) :
    (statusOf t p r).map List.length =
      (match t with
       | .feed _ => some 31
       | .lane _ => some 93
       | .output _ => some 35
       | .device => some 49
       | .log _ => none
       | .unused => none) := by
  cases t with
  | device => simp [statusOf, deviceStatus_eq, beWords_length]
  | feed n => simp [statusOf, feedStatus, linkStatus_eq, captureStatus_eq, beWords_length, beWordsInt_length]
  | lane n =>
    have hcarriage : (carriageStatus (p.lanes.get n)).length = 26 := by
      unfold carriageStatus
      cases (p.lanes.get n).lastLabel <;> cases (p.lanes.get n).carry <;>
        simp [beWords_length, beWordsInt_length, labelWords]
    simp [statusOf, laneStatus, jobStatus, controlStatus, profileWords, tableStatus, beWords_length, beWordsInt_length, hcarriage]
  | output n => simp [statusOf, outStatus_eq p n _ rfl, beWords_length, beWordsInt_length]
  | log l => rfl
  | unused => rfl

/-! ### QUERY STATUS and QUERY CONDITIONS taken -/

section Taken
variable {env : Env} {cmd : Command} {s : State}

/-- QUERY STATUS reads the restart flag at its take (R173, R177). -/
theorem queryStatus_taken (h : takenNow 2 env cmd s) : exec (.queryStatus env cmd) s =
    command 2 env cmd (takeImmediate 2 cmd (ruleQueryStatus (partAt 2 env cmd s).mgmt.restart cmd)) s := by
  rw [command_taken _ h]
  exact command_taken (takeQueryStatus cmd) h

theorem conditionWords_taken {code : Byte} :
    conditionWords (openTake code cmd.link (partAt code env cmd s)) =
      [if s.part.fault.alarm then 1 else 0, BitVec.ofNat 8 (s.part.fault.mask.toNat / 256),
        BitVec.ofNat 8 (s.part.fault.mask.toNat % 256), BitVec.ofNat 8 s.part.fault.latches.length]
      ++ s.part.fault.latches.flatMap (fun c =>
        [condOwner c, BitVec.ofNat 8 (condKind c), if causePresent s.part c then 1 else 0]) := by
  have hcause : sameCauses s.part (openTake code cmd.link (partAt code env cmd s)) :=
    sameCauses_trans (sameCauses_trans (sameCauses_begin env.time env.upsets) (sameCauses_arrive _ _)) (sameCauses_openTake _ _)
  have hfault : (openTake code cmd.link (partAt code env cmd s)).fault = s.part.fault := partAt_fault
  have hlow : beWords 2 s.part.fault.mask.toNat = [BitVec.ofNat 8 (s.part.fault.mask.toNat / 256),
      BitVec.ofNat 8 (s.part.fault.mask.toNat % 256)] := by simp [beWords, ofNat_mod]
  have hwords : latchWords (openTake code cmd.link (partAt code env cmd s)) = fun c =>
      [condOwner c, BitVec.ofNat 8 (condKind c), if causePresent s.part c then 1 else 0] := by
    funext c
    rw [latchWords, hcause c]
    rfl
  rw [conditionWords, hfault, hlow, hwords]
  rfl

end Taken

/-! ### Causes -/

section Causes
variable (p : Part) (n : Ix)

theorem linkLost_iff : causePresent p (.linkLost n) = true ↔ ∀ c, (p.links.get n).state ≠ .locked c := by
  simp only [causePresent, lockedCode]
  cases (p.links.get n).state <;> simp

theorem isRunning_iff (s : LaneState) : isRunning s = true ↔ s ≠ .stopped ∧ s ≠ .faulted := by cases s <;> decide

theorem inputLost_iff : causePresent p (.inputLost n) = true ↔
    (p.lanes.get n).state ≠ .stopped ∧ (p.lanes.get n).state ≠ .faulted ∧ (p.lanes.get n).usable = false := by
  simp [causePresent, isRunning_iff, and_assoc]

theorem stdMismatch_iff : causePresent p (.stdMismatch n) = true ↔
    (p.lanes.get n).state ≠ .stopped ∧ (p.lanes.get n).state ≠ .faulted
      ∧ ∃ c, (p.links.get (p.lanes.get n).profile.source).state = .locked c ∧ c ≠ (p.lanes.get n).profile.input := by
  simp only [causePresent, lockedCode, Bool.and_eq_true, isRunning_iff, and_assoc]
  cases (p.links.get (p.lanes.get n).profile.source).state <;> simp

theorem refLost_iff : causePresent p (.refLost n) = true ↔ ∃ ph, (p.outs.get n).lock = .holdover ph := by
  simp only [causePresent]
  cases (p.outs.get n).lock <;> simp

end Causes

/-- Settles O42. -/
theorem statusQueriesAnswer : Obligations.StatusQueriesAnswer := by
  refine ⟨fun env cmd s h => ?_, statusOf_length, fun _ => rfl, rfl, rfl, fun k v => ⟨beWords_length k v, fun i hi => beWords_get hi⟩,
    fun k v => ⟨beWordsInt_length k v, fun i hi => beWordsInt_get v hi⟩, by decide, by intro c; cases c <;> decide,
    ?_, ?_, ?_, fun p r => ?_, rfl, fun _ => rfl, ?_, fun env cmd s h => ?_⟩
  · rw [queryStatus_taken h]
    split
    · next hw => exact immediate_refused (ruleQueryStatus _) h rfl (by simp only [ruleQueryStatus, hw]; rfl)
    · next ws hw =>
      split
      · next hp =>
        exact immediate_answered (ruleQueryStatus _) h rfl
          (by simp only [ruleQueryStatus, hw, hp, ne_eq, not_true_eq_false, if_false])
      · next hp =>
        exact immediate_refused (ruleQueryStatus _) h rfl (by simp only [ruleQueryStatus, hw, ne_eq, hp, not_false_eq_true, if_true]; rfl)
  · rintro p n r l f rfl rfl
    simp only [statusOf, feedStatus, linkStatus_eq, captureStatus_eq, List.append_assoc] <;> rfl
  · rintro p n r l j pr rfl rfl rfl
    simp only [statusOf, laneStatus, jobStatus_eq, controlStatus_eq p n _ rfl, profileWords_eq, carriageStatus_eq,
      tableStatus_eq, List.append_assoc] <;> rfl
  · rintro p n r o rfl
    exact congrArg some (outStatus_eq p n _ rfl)
  · refine ⟨worstCount p, worstSlot p, corrected_le_worst p, fun h0 => if_pos h0, worstSlot_first p,
      congrArg some (deviceStatus_eq p r)⟩
  · rintro p n l rfl
    exact ⟨linkLost_iff p n, rfl, inputLost_iff p n, stdMismatch_iff p n, beq_iff_eq, beq_iff_eq, refLost_iff p n,
      decide_eq_true_iff, Iff.rfl⟩
  · obtain ⟨htarget, hlength⟩ := deviceEmpty_refusals (rule := ruleQueryConditions) (fun _ => rfl) h rfl
    refine ⟨htarget, hlength, fun ht hp => ?_⟩
    rw [← conditionWords_taken (env := env) (code := 23)]
    exact immediate_answered ruleQueryConditions h rfl (deviceEmpty_ok ht hp)

end Sys2Proof.Machine.StatusAnswers
end

section
/-! SUPPORT. The pure functions: packets as words (R3), labels and counts (R147, R149, R150), substitution of absent
taps (R72) and the stamps of picture starts (R25 to R27). -/

namespace Sys2Proof.Machine.PureLaws

open HistoryLaw

/-! ### Packets as words -/

theorem widen_narrow (w : Byte) : (w.setWidth 10).setWidth 8 = w := by
  apply BitVec.eq_of_toNat_eq
  simp

theorem widen_narrow_sum (c : BitVec 9) : (c.setWidth 10).setWidth 9 = c := by
  apply BitVec.eq_of_toNat_eq
  simp

/-- The words of a packet behind its three head words, with any last word. -/
def bodyWords (k : Packet) (last : BitVec 10) : List (BitVec 10) :=
  k.user.map (fun w => w.setWidth 10) ++ [last]

/-- What a receiver makes of the head words of a packet of at most 255 user words (R3). -/
theorem acceptPacket_head {k : Packet} (hk : k.user.length ≤ 255) (rest : List (BitVec 10)) :
    acceptPacket (k.kind.setWidth 10 :: k.subkind.setWidth 10 :: BitVec.ofNat 10 k.user.length :: rest) =
      (rest[k.user.length]?).bind (fun c =>
        if c.setWidth 9 = packetChecksum ⟨k.kind, k.subkind, (rest.take k.user.length).map (fun w => w.setWidth 8)⟩
        then some ⟨k.kind, k.subkind, (rest.take k.user.length).map (fun w => w.setWidth 8)⟩ else none) := by
  have hn : ((BitVec.ofNat 10 k.user.length).setWidth 8).toNat = k.user.length := by
    simp
    omega
  simp only [acceptPacket, hn, widen_narrow]
  cases rest[k.user.length]? <;> rfl

theorem bodyWords_user (k : Packet) (last : BitVec 10) :
    ((bodyWords k last).take k.user.length).map (fun w => w.setWidth 8) = k.user := by
  have ht : (bodyWords k last).take k.user.length = k.user.map (fun w => w.setWidth 10) :=
    List.take_left' (by simp)
  rw [ht, List.map_map]
  exact (List.map_congr_left (fun w _ => widen_narrow w)).trans (List.map_id _)

theorem bodyWords_last (k : Packet) (last : BitVec 10) : (bodyWords k last)[k.user.length]? = some last := by
  simp [bodyWords]

theorem packetWords_eq (k : Packet) :
    packetWords k = k.kind.setWidth 10 :: k.subkind.setWidth 10 :: BitVec.ofNat 10 k.user.length
      :: bodyWords k ((packetChecksum k).setWidth 10) := rfl

/-- A packet with a last word of any sum is accepted exactly where the sum is the checksum (R3). -/
theorem acceptPacket_sum {k : Packet} (hk : k.user.length ≤ 255) (c : BitVec 9) :
    acceptPacket (k.kind.setWidth 10 :: k.subkind.setWidth 10 :: BitVec.ofNat 10 k.user.length
      :: bodyWords k (c.setWidth 10)) = if c = packetChecksum k then some k else none := by
  rw [acceptPacket_head hk, bodyWords_last, bodyWords_user, Option.bind_some, widen_narrow_sum]

theorem acceptPacket_cut {k : Packet} (hk : k.user.length ≤ 255) {j : Nat} (hj : j < k.user.length + 4) :
    acceptPacket ((packetWords k).take j) = none := by
  rw [packetWords_eq]
  match j, hj with
  | 0, _ => rfl
  | 1, _ => rfl
  | 2, _ => rfl
  | i + 3, hj =>
    have hi : ((bodyWords k ((packetChecksum k).setWidth 10)).take i)[k.user.length]? = none :=
      List.getElem?_eq_none (by simp; omega)
    rw [List.take_succ_cons, List.take_succ_cons, List.take_succ_cons, acceptPacket_head hk, hi, Option.bind_none]

/-- Settles O17. -/
theorem packetWordsRoundTrip : Obligations.PacketWordsRoundTrip := by
  intro k hk
  refine ⟨?_, fun j hj => acceptPacket_cut hk hj, fun c hc => ?_⟩
  · rw [packetWords_eq, acceptPacket_sum hk, if_pos rfl]
  · have hd : (packetWords k).dropLast ++ [c.setWidth 10] = k.kind.setWidth 10 :: k.subkind.setWidth 10
        :: BitVec.ofNat 10 k.user.length :: bodyWords k (c.setWidth 10) := by
      rw [packetWords, List.dropLast_concat]
      rfl
    rw [hd, acceptPacket_sum hk, if_neg hc]

/-! ### Labels and counts -/

/-- A count in whole minutes, seconds and frames is the label that says so (R149). -/
theorem plainLabel_of {frames m s f : Nat} (drop : Bool) (hs : s < 60) (hf : f < frames) :
    plainLabel frames ((m * 60 + s) * frames + f) drop = ⟨m / 60, m % 60, s, f, drop, false⟩ := by
  have hpos : 0 < frames := by omega
  have hsec : ((m * 60 + s) * frames + f) / frames = m * 60 + s := by
    rw [mul_comm, Nat.mul_add_div hpos, Nat.div_eq_of_lt hf, add_zero]
  have hmin : ((m * 60 + s) * frames + f) / (60 * frames) = m := by
    rw [mul_comm 60, ← Nat.div_div_eq_div_mul, hsec]
    omega
  have hhour : ((m * 60 + s) * frames + f) / (3600 * frames) = m / 60 := by
    rw [mul_comm 3600, ← Nat.div_div_eq_div_mul, hsec]
    omega
  have hfr : ((m * 60 + s) * frames + f) % frames = f := by
    rw [mul_comm, Nat.mul_add_mod, Nat.mod_eq_of_lt hf]
  rw [plainLabel, hhour, hmin, hsec, hfr]
  congr 1
  omega

/-- A count in its ten-minute block, its minute there and what is left, the labels left out counted (R150). -/
theorem dropExpand_of {q t x : Nat} (ht : t < 10) (hx : x < 1800) (h2 : t ≠ 0 → 2 ≤ x) :
    dropExpand (17982 * q + 1798 * t + x) = 18000 * q + 1800 * t + x := by
  have hd : (17982 * q + 1798 * t + x) / 17982 = q := by omega
  have hr : (17982 * q + 1798 * t + x) % 17982 = 1798 * t + x := by omega
  simp only [dropExpand, hd, hr]
  split <;> omega

theorem drop_split (c : Nat) : ∃ q t x, c = 17982 * q + 1798 * t + x ∧ t < 10 ∧ x < 1800 ∧ (t ≠ 0 → 2 ≤ x) := by
  by_cases h : c % 17982 < 2
  · exact ⟨c / 17982, 0, c % 17982, by omega, by omega, by omega, by omega⟩
  · exact ⟨c / 17982, (c % 17982 - 2) / 1798, c % 17982 - 1798 * ((c % 17982 - 2) / 1798), by omega, by omega,
      by omega, by omega⟩

theorem labelToCount_drop (l : Label) :
    labelToCount .df30 l = 30 * (3600 * l.hours + 60 * l.minutes + l.seconds) + l.frames
      - 2 * ((60 * l.hours + l.minutes) - (60 * l.hours + l.minutes) / 10) := rfl

theorem labelToCount_plain {r : LabelRate} (hr : r ≠ .df30) (l : Label) :
    labelToCount r l = ((l.hours * 60 + l.minutes) * 60 + l.seconds) * rateFrames r + l.frames := by
  cases r
  case df30 => exact absurd rfl hr
  all_goals rfl

theorem countToLabel_plain {r : LabelRate} (hr : r ≠ .df30) (c : Nat) :
    countToLabel r c = plainLabel (rateFrames r) c false := by
  cases r
  case df30 => exact absurd rfl hr
  all_goals rfl

theorem labelsPerDay_plain {r : LabelRate} (hr : r ≠ .df30) : labelsPerDay r = 86400 * rateFrames r := by
  cases r
  case df30 => exact absurd rfl hr
  all_goals rfl

/-- A label's minutes since midnight, its minute in its ten minutes and its frames in the minute (R150). -/
theorem dropCount_split {l : Label} (hl : labelOk .df30 l) :
    labelToCount .df30 l = 17982 * ((60 * l.hours + l.minutes) / 10) + 1798 * (l.minutes % 10)
        + (30 * l.seconds + l.frames)
      ∧ 30 * l.seconds + l.frames < 1800 ∧ (l.minutes % 10 ≠ 0 → 2 ≤ 30 * l.seconds + l.frames) := by
  obtain ⟨hh, hm, hs, hf, -, hleft⟩ := hl
  have hf : l.frames < 30 := hf
  have hleft : l.seconds = 0 → l.frames < 2 → l.minutes % 10 = 0 := fun a b => by
    by_contra c
    exact hleft ⟨rfl, a, b, c⟩
  refine ⟨?_, by omega, by omega⟩
  rw [labelToCount_drop]
  omega

theorem dropLabel_back {l : Label} (hl : labelOk .df30 l) :
    labelToCount .df30 l < labelsPerDay .df30
      ∧ countToLabel .df30 (labelToCount .df30 l) = { l with second := false } := by
  obtain ⟨hcount, hx, h2⟩ := dropCount_split hl
  obtain ⟨hh, hm, hs, hf, hdrop, -⟩ := hl
  have hf : l.frames < 30 := hf
  have hdrop : l.drop = true := hdrop
  constructor
  · rw [hcount]
    simp only [labelsPerDay]
    omega
  · have hexp : dropExpand (labelToCount .df30 l) = ((60 * l.hours + l.minutes) * 60 + l.seconds) * 30 + l.frames := by
      rw [hcount, dropExpand_of (Nat.mod_lt _ (by omega)) hx h2]
      omega
    show plainLabel 30 (dropExpand (labelToCount .df30 l)) true = _
    rw [hexp, plainLabel_of _ hs hf]
    have hq : (60 * l.hours + l.minutes) / 60 = l.hours := by omega
    have hr : (60 * l.hours + l.minutes) % 60 = l.minutes := by omega
    rw [hq, hr, ← hdrop]

theorem plainLabel_back {r : LabelRate} (hr : r ≠ .df30) {l : Label} (hl : labelOk r l) :
    labelToCount r l < labelsPerDay r ∧ countToLabel r (labelToCount r l) = { l with second := false } := by
  obtain ⟨hh, hm, hs, hf, hdrop, -⟩ := hl
  have hdrop : l.drop = false := hdrop.trans (beq_eq_false_iff_ne.2 hr)
  rw [labelToCount_plain hr, labelsPerDay_plain hr, countToLabel_plain hr, plainLabel_of _ hs hf]
  constructor
  · have hday : (l.hours * 60 + l.minutes) * 60 + l.seconds + 1 ≤ 86400 := by omega
    have := Nat.mul_le_mul_right (rateFrames r) hday
    rw [Nat.add_mul, one_mul] at this
    omega
  · have hq : (l.hours * 60 + l.minutes) / 60 = l.hours := by omega
    have hm' : (l.hours * 60 + l.minutes) % 60 = l.minutes := by omega
    rw [hq, hm', ← hdrop]

theorem dropCount_back {c : Nat} (hc : c < labelsPerDay .df30) :
    labelOk .df30 (countToLabel .df30 c) ∧ labelToCount .df30 (countToLabel .df30 c) = c := by
  obtain ⟨q, t, x, hsplit, ht, hx, h2⟩ := drop_split c
  have hc : c < 2589408 := hc
  have hexp : dropExpand c = ((10 * q + t) * 60 + x / 30) * 30 + x % 30 := by
    rw [hsplit, dropExpand_of ht hx h2]
    omega
  have hlabel : countToLabel .df30 c = ⟨(10 * q + t) / 60, (10 * q + t) % 60, x / 30, x % 30, true, false⟩ := by
    show plainLabel 30 (dropExpand c) true = _
    rw [hexp, plainLabel_of _ (by omega) (by omega)]
  rw [hlabel]
  refine ⟨⟨?_, ?_, ?_, ?_, rfl, ?_⟩, ?_⟩
  · show (10 * q + t) / 60 < 24
    omega
  · exact Nat.mod_lt _ (by omega)
  · show x / 30 < 60
    omega
  · exact Nat.mod_lt _ (by omega)
  · rintro ⟨-, h0, hf, hm⟩
    simp only at h0 hf hm
    omega
  · rw [labelToCount_drop]
    simp only
    omega

theorem plainCount_back {r : LabelRate} (hr : r ≠ .df30) {c : Nat} (hc : c < labelsPerDay r) :
    labelOk r (countToLabel r c) ∧ labelToCount r (countToLabel r c) = c := by
  have hpos : 0 < rateFrames r := by cases r <;> decide
  have hc : c / rateFrames r < 86400 := by
    rw [labelsPerDay_plain hr] at hc
    exact (Nat.div_lt_iff_lt_mul hpos).2 hc
  have hfr : c % rateFrames r < rateFrames r := Nat.mod_lt _ hpos
  have hsplit : c = (c / rateFrames r / 60 * 60 + c / rateFrames r % 60) * rateFrames r + c % rateFrames r := by
    rw [Nat.div_add_mod', Nat.div_add_mod']
  have hlabel : countToLabel r c = ⟨c / rateFrames r / 60 / 60, c / rateFrames r / 60 % 60, c / rateFrames r % 60,
      c % rateFrames r, false, false⟩ := by
    rw [countToLabel_plain hr]
    conv_lhs => rw [hsplit]
    exact plainLabel_of false (Nat.mod_lt _ (by omega)) hfr
  rw [hlabel]
  refine ⟨⟨?_, Nat.mod_lt _ (by omega), Nat.mod_lt _ (by omega), hfr, by simp [hr], fun h => hr h.1⟩, ?_⟩
  · show c / rateFrames r / 60 / 60 < 24
    omega
  · rw [labelToCount_plain hr]
    show ((c / rateFrames r / 60 / 60 * 60 + c / rateFrames r / 60 % 60) * 60 + c / rateFrames r % 60) * rateFrames r
      + c % rateFrames r = c
    rw [Nat.div_add_mod', Nat.div_add_mod', Nat.div_add_mod']

/-- Every catalogue row has one or two pictures per label (Table 2). -/
theorem perLabel_one (std : Std) : (stdRow std).perLabel = 1 ↔ (stdRow std).perLabel ≠ 2 := by
  cases std <;> decide

theorem rateFrames_small (r : LabelRate) : rateFrames r ≤ 30 := by cases r <;> decide

/-- The tests of R147, in the order of the model. -/
theorem parseLabel_five (std : Std) (h m s f g : Byte) :
    parseLabel std [h, m, s, f, g] =
      if h.toNat < 24 ∧ m.toNat < 60 ∧ s.toNat < 60 ∧ f.toNat < rateFrames (stdRow std).rate ∧ g.toNat < 4
        ∧ (g.toNat % 2 = 1 ↔ (stdRow std).rate = .df30)
        ∧ (g.toNat / 2 % 2 = 1 → (stdRow std).perLabel = 2)
        ∧ ¬((stdRow std).rate = .df30 ∧ s.toNat = 0 ∧ f.toNat < 2 ∧ m.toNat % 10 ≠ 0)
      then some ⟨h.toNat, m.toNat, s.toNat, f.toNat, g.toNat % 2 == 1, g.toNat / 2 % 2 == 1⟩ else none := by
  simp only [parseLabel]
  refine if_congr ?_ rfl rfl
  by_cases hr : (stdRow std).rate = .df30
  · simp [hr, and_assoc]
    intros
    omega
  · simp [hr, and_assoc]
    intros
    omega

theorem parseLabel_none_iff (std : Std) (ws : List Byte) : parseLabel std ws = none ↔ labelInvalid std ws := by
  match ws with
  | [h, m, s, f, g] =>
    rw [parseLabel_five]
    have hp := perLabel_one std
    have hg : g.toNat < 4 → (g.toNat / 2 % 2 = 1 ↔ 2 ≤ g.toNat) := fun hg => by omega
    show _ ↔ (24 ≤ h.toNat ∨ 60 ≤ m.toNat ∨ 60 ≤ s.toNat ∨ rateFrames (stdRow std).rate ≤ f.toNat ∨ 4 ≤ g.toNat
      ∨ ¬(g.toNat % 2 = 1 ↔ (stdRow std).rate = .df30) ∨ (2 ≤ g.toNat ∧ (stdRow std).perLabel = 1)
      ∨ ((stdRow std).rate = .df30 ∧ s.toNat = 0 ∧ f.toNat < 2 ∧ m.toNat % 10 ≠ 0))
    simp only [ite_eq_right_iff, reduceCtorEq, imp_false]
    by_cases hr : (stdRow std).rate = .df30
    · simp only [hr, iff_true, true_and]
      omega
    · simp only [hr, iff_false, false_and, or_false, not_false_eq_true, and_true]
      omega
  | [] => exact ⟨fun _ => trivial, fun _ => rfl⟩
  | [_] => exact ⟨fun _ => trivial, fun _ => rfl⟩
  | [_, _] => exact ⟨fun _ => trivial, fun _ => rfl⟩
  | [_, _, _] => exact ⟨fun _ => trivial, fun _ => rfl⟩
  | [_, _, _, _] => exact ⟨fun _ => trivial, fun _ => rfl⟩
  | _ :: _ :: _ :: _ :: _ :: _ :: _ => exact ⟨fun _ => trivial, fun _ => rfl⟩

/-- The words of a valid label are read as that label (R147). -/
theorem parseLabel_words {std : Std} {l : Label} (hl : labelOk (stdRow std).rate l)
    (h2 : l.second = true → (stdRow std).perLabel = 2) : parseLabel std (labelWords l) = some l := by
  obtain ⟨hh, hm, hs, hf, hdrop, hleft⟩ := hl
  have hsmall := rateFrames_small (stdRow std).rate
  have hbyte : ∀ v, v < 60 → (BitVec.ofNat 8 v).toNat = v := fun v hv => by
    rw [BitVec.toNat_ofNat]
    omega
  have hflag : (BitVec.ofNat 8 ((if l.drop then 1 else 0) + (if l.second then 2 else 0))).toNat
      = (if l.drop then 1 else 0) + (if l.second then 2 else 0) := hbyte _ (by split <;> split <;> omega)
  have hodd : ((if l.drop then 1 else 0) + (if l.second then 2 else 0)) % 2 = 1 ↔ l.drop = true := by
    cases l.drop <;> cases l.second <;> decide
  have hhalf : ((if l.drop then 1 else 0) + (if l.second then 2 else 0)) / 2 % 2 = 1 ↔ l.second = true := by
    cases l.drop <;> cases l.second <;> decide
  rw [labelWords, parseLabel_five, hflag, hbyte _ (by omega), hbyte _ (by omega), hbyte _ (by omega),
    hbyte _ (by omega), if_pos]
  · have e1 : (((if l.drop then 1 else 0) + (if l.second then 2 else 0)) % 2 == 1) = l.drop := by
      rw [Bool.eq_iff_iff, beq_iff_eq, hodd]
    have e2 : (((if l.drop then 1 else 0) + (if l.second then 2 else 0)) / 2 % 2 == 1) = l.second := by
      rw [Bool.eq_iff_iff, beq_iff_eq, hhalf]
    rw [e1, e2]
  · refine ⟨hh, hm, hs, hf, ?_, hodd.trans (by rw [hdrop, beq_iff_eq]), fun e => h2 (hhalf.1 e), hleft⟩
    split <;> split <;> omega

/-- Settles O18, the four non-drop and drop-frame directions apart. -/
theorem labelsAndCountsAreInverse : Obligations.LabelsAndCountsAreInverse := by
  refine ⟨fun r l hl => ?_, fun r c hc => ?_, fun std l => parseLabel_words, parseLabel_none_iff⟩
  · by_cases hr : r = .df30
    · subst hr
      exact dropLabel_back hl
    · exact plainLabel_back hr hl
  · by_cases hr : r = .df30
    · subst hr
      exact dropCount_back hc
    · exact plainCount_back hr hc

/-! ### Substitution -/

/-- Where each weight goes, over the sixteen sets of PRESENT taps (Table 23). -/
theorem substitute_weight {p : Presence} (h : p.some = true) (w : Weights) (x : Src) (hx : tapPresent p x = true) :
    tapWeight (substitute p w) x = tapWeight w x
      + ((fourTaps.filter (fun y =>
          !tapPresent p y && decide ((homesOf y).find? (tapPresent p) = some x))).map (tapWeight w)).sum := by
  obtain ⟨pm1, p0, p1, p2⟩ := p
  cases pm1 <;> cases p0 <;> cases p1 <;> cases p2 <;> cases x <;>
    simp_all [substitute, substituteT0, substituteT1, substituteTm1, substituteT2, tapWeight, tapPresent, fourTaps,
      homesOf, Presence.some] <;> omega

/-- The weight of an absent tap is moved away, and no weight is lost (R72). -/
theorem substitute_absent {p : Presence} (h : p.some = true) (w : Weights) :
    (p.pm1 = false → (substitute p w).wm1 = 0) ∧ (p.p0 = false → (substitute p w).w0 = 0)
      ∧ (p.p1 = false → (substitute p w).w1 = 0) ∧ (p.p2 = false → (substitute p w).w2 = 0) := by
  obtain ⟨pm1, p0, p1, p2⟩ := p
  cases pm1 <;> cases p0 <;> cases p1 <;> cases p2 <;>
    simp_all [substitute, substituteT0, substituteT1, substituteTm1, substituteT2, Presence.some]

/-- The four weights together, one absent tap at a time. -/
def weightSum (w : Weights) : Int := w.wm1 + w.w0 + w.w1 + w.w2

section Sums

variable (p : Presence) (w : Weights)

theorem weightSum_substituteT0 : weightSum (substituteT0 p w) = weightSum w := by
  unfold substituteT0 weightSum
  split_ifs <;> dsimp only <;> omega

theorem weightSum_substituteT1 : weightSum (substituteT1 p w) = weightSum w := by
  unfold substituteT1 weightSum
  split_ifs <;> dsimp only <;> omega

theorem weightSum_substituteTm1 : weightSum (substituteTm1 p w) = weightSum w := by
  unfold substituteTm1 weightSum
  split_ifs <;> dsimp only <;> omega

theorem weightSum_substituteT2 : weightSum (substituteT2 p w) = weightSum w := by
  unfold substituteT2 weightSum
  split_ifs <;> dsimp only <;> omega

theorem weightSum_substitute : weightSum (substitute p w) = weightSum w := by
  rw [substitute, weightSum_substituteT2, weightSum_substituteTm1, weightSum_substituteT1, weightSum_substituteT0]

end Sums

/-- Settles O19. -/
theorem substitutionKeepsTheSum : Obligations.SubstitutionKeepsTheSum := by
  intro p w h
  obtain ⟨hm1, h0, h1, h2⟩ := substitute_absent h w
  refine ⟨weightSum_substitute p w, fun x hx => substitute_weight h w x hx, hm1, h0, h1, h2, ?_⟩
  rintro rfl
  rfl

/-! ### Stamps -/

/-- The m of a slip test, and none but it where the window is at most a quarter of the period (R26). -/
theorem slipIndex_some {d : Int} {period window m : Nat} (hw : 4 * window ≤ period) (hpos : 0 < period)
    (h : slipIndex d period window = some m) :
    m ≤ 3 ∧ (d - ((m * period : Nat) : Int)).natAbs ≤ window
      ∧ ∀ j : Nat, (d - ((j * period : Nat) : Int)).natAbs ≤ window → j = m := by
  have hin : (d - ((m * period : Nat) : Int)).natAbs ≤ window := 
    of_decide_eq_true (List.find?_some (p := fun m : Nat => decide ((d - ((m * period : Nat) : Int)).natAbs ≤ window)) h)
  have hm : m ∈ [0, 1, 2, 3] := List.mem_of_find?_eq_some h
  refine ⟨by simp at hm; omega, hin, fun j hj => ?_⟩
  by_contra hne
  rcases Nat.lt_or_gt_of_ne hne with hlt | hlt
  · have := Nat.mul_le_mul_right period hlt
    rw [Nat.succ_mul] at this
    omega
  · have := Nat.mul_le_mul_right period hlt
    rw [Nat.succ_mul] at this
    omega

theorem slipIndex_none {d : Int} {period window : Nat} (h : slipIndex d period window = none) {j : Nat} (hj : j ≤ 3) :
    window < (d - ((j * period : Nat) : Int)).natAbs := by
  have := List.find?_eq_none.1 h j (by simp; omega)
  simpa using this

theorem stampOf_some (prev dPrev : Int) (period wDiv : Nat) (a : Int) :
    stampOf (some prev) dPrev period wDiv a =
      match slipIndex (a - (prev + period + correction dPrev period)) period (period / wDiv) with
      | some m => .absorbed m (prev + period + correction dPrev period)
          (a - (prev + period + correction dPrev period) - ((m * period : Nat) : Int))
      | none => .reanchor (if prev < a then a else prev + 1) := rfl

/-- The correction is the deviation's sixteenth, rounded toward 0 and clamped (R25). -/
theorem correction_clamps (d : Int) (pi : Nat) :
    correction d pi = max (-((pi / 1024 : Nat) : Int)) (min (d.tdiv 16) ((pi / 1024 : Nat) : Int)) := by
  unfold correction clampInt
  split_ifs <;> omega

/-- A sixteenth rounded toward 0 (R25). -/
theorem sixteenth (d : Int) : 16 * (d.tdiv 16).natAbs ≤ d.natAbs ∧ d.natAbs < 16 * ((d.tdiv 16).natAbs + 1)
    ∧ (0 ≤ d → 0 ≤ d.tdiv 16) ∧ (d ≤ 0 → d.tdiv 16 ≤ 0) := by
  have habs : (d.tdiv 16).natAbs = d.natAbs / 16 := Int.natAbs_tdiv ..
  refine ⟨by omega, by omega, fun h => Int.tdiv_nonneg h (by omega), fun h => ?_⟩
  have := Int.tdiv_nonneg (a := -d) (b := 16) (by omega) (by omega)
  rw [Int.neg_tdiv] at this
  omega

/-- Settles O20: the four slip windows of at most a quarter of a period lie apart. -/
theorem stampsStayNearArrivals : Obligations.StampsStayNearArrivals := by
  refine ⟨fun c w prev dPrev a hw => ?_, fun d pi => ?_⟩
  · have hpos : 1024 ≤ periodOf c := periodOf_pos c
    have hlow := correction_lower dPrev (periodOf c)
    have hw4 : 4 ≤ w := by
      simp only [List.mem_cons, List.not_mem_nil, or_false] at hw
      omega
    have hquarter : 4 * (periodOf c / w) ≤ periodOf c :=
      (Nat.mul_le_mul_right _ hw4).trans (Nat.mul_div_le _ _)
    rw [stampOf_some]
    cases hs : slipIndex (a - (prev + periodOf c + correction dPrev (periodOf c))) (periodOf c) (periodOf c / w) with
    | some m =>
      obtain ⟨hm, hin, hone⟩ := slipIndex_some hquarter (by omega) hs
      refine ⟨?_, fun _ e => (Stamping.noConfusion e), Stamping.noConfusion⟩
      rintro m' e d h
      injection h with hm' he hd
      subst hm' he hd
      refine ⟨hm, by omega, by omega, by omega, hin, fun j _ hj => hone j hj⟩
    | none =>
      refine ⟨fun _ _ _ e => (Stamping.noConfusion e), ?_, Stamping.noConfusion⟩
      rintro st h
      injection h with hst
      subst hst
      refine ⟨?_, fun h => if_pos h, fun h => if_neg (by omega), fun j hj => slipIndex_none hs hj⟩
      split <;> omega
  · obtain ⟨hle, hlt, hpos, hneg⟩ := sixteenth d
    exact ⟨d.tdiv 16, hle, hlt, hpos, hneg, correction_clamps d pi⟩

end Sys2Proof.Machine.PureLaws
end

section
/-! SUPPORT. One step of the machine (R169), the reset values (R4, R23, R42, R106, R168, R180) and the laws at reset. -/

namespace Sys2Proof.Machine.ResetLaws

open TablesLaw SlotsLaw HistoryLaw RecordsLaw RepliesLaw

/-- Settles O1. -/
theorem stepTakesFrontCommand : Obligations.StepTakesFrontCommand := by
  intro c rest s h
  rw [step, h]

theorem reset_bounds : boundsOk State.reset.part := by
  refine ⟨fun n => ?_, fun n => ?_, fun n => ?_, fun n => ?_, fun n => ?_, fun n => ?_, fun n => ?_⟩ <;>
    simp [State.reset, resetPart, resetFeed, resetLane, resetMgmt, resetLink, resetOut]

theorem reset_idle : idleOk State.reset.part := by
  intro n
  simp [State.reset, resetPart, resetLane, resetJob]

theorem reset_tables : tablesOk State.reset.part :=
  (tablesOk_iff _).2 (fun n => by simpa [State.reset, resetPart] using law.reset n ⟨0, false⟩ trivial)

/-- Settles O4. -/
theorem lawsHoldAtReset : Obligations.LawsHoldAtReset :=
  ⟨⟨⟨List.Pairwise.nil, nofun⟩, List.Pairwise.nil⟩, reset_bounds, repliesOk_reset rfl rfl,
    (recordsOk_iff _).2 ⟨lanesMirror_reset rfl rfl, relockMirrors_reset rfl rfl⟩, reset_idle, storeOk_pinReset rfl, rfl,
    List.nil_sublist _, ⟨rfl, nofun⟩, reset_tables, resetFeeds_ok rfl⟩

/-! ### The default rows -/

section Rows

variable {φ k h : Nat}

theorem defaultRows_get (t : Table) {r : Nat} (hr : r < tableRows t) : (defaultRows t)[r]? = some (defaultRow t r) := by
  simp [defaultRows, hr]

theorem default_tt (hφ : φ < 64) (hk : k < 4) :
    (defaultRows .tt)[4 * φ + k]? = some
      (if k < 2 then ⟨0, BitVec.ofNat 16 (1024 - 16 * φ), BitVec.ofNat 16 (16 * φ), 0, true⟩
       else if φ < 32 then ⟨0, 1024, 0, 0, true⟩ else ⟨0, 0, 1024, 0, true⟩) := by
  have hd : (4 * φ + k) / 4 = φ := by omega
  have hm : (4 * φ + k) % 4 = k := by omega
  rw [defaultRows_get .tt (show 4 * φ + k < 256 by omega), defaultRow]
  simp only [hd, hm]
  rfl

theorem default_hc (hh : h < 16) :
    (defaultRows .hc)[h]? = some ⟨0, BitVec.ofNat 16 (256 - 16 * h), BitVec.ofNat 16 (16 * h), 0, true⟩ :=
  defaultRows_get .hc hh

theorem default_vc (hh : h < 16) :
    (defaultRows .vc)[h]? = some ⟨0, BitVec.ofNat 16 (256 - 16 * h), BitVec.ofNat 16 (16 * h), 0, true⟩ :=
  defaultRows_get .vc hh

end Rows

theorem getTable_reset (tab : Table) :
    getTable tab ⟨resetTable .tt, resetTable .hc, resetTable .vc⟩ = resetTable tab := by
  cases tab <;> rfl

theorem defaultProfile_eq (address : Fin 16) (stdSel : Bool) (n : Ix) :
    defaultProfile ⟨address, stdSel⟩ n =
      if stdSel then ⟨n, .s04, .s04, 1351350, 8, 24, 64, 50, 64, 512, 512, 50, .off⟩
      else ⟨n, .s03, .s03, 1620000, 8, 24, 64, 50, 64, 512, 512, 50, .off⟩ := by
  cases stdSel <;> rfl

/-- The reset store lets no slot be skipped: none is QUARANTINED (R46). -/
theorem pinResetStore_init (mem : List (Nat × Sample)) (ecc : List (Nat × EccFault)) :
    (pinResetStore mem ecc).initNext = 0 ∧ (pinResetStore mem ecc).initRunning = true := ⟨rfl, rfl⟩

theorem pinResetStore_quarantine (mem : List (Nat × Sample)) (ecc : List (Nat × EccFault)) :
    (pinResetStore mem ecc).quarantine = 0 := by
  simp [pinResetStore, beginInit, resetSlot]

theorem slotOf_pinReset {p : Part} {mem : List (Nat × Sample)} {ecc : List (Nat × EccFault)}
    (hs : p.store = pinResetStore mem ecc) (k : SlotIx) : slotOf p k = resetSlot := by
  simp [slotOf, hs, pinResetStore, beginInit]

/-- Settles O3. -/
theorem pinResetLeavesResetValues : Obligations.PinResetLeavesResetValues := by
  refine ⟨fun address stdSel s => ⟨_, rfl, rfl, rfl, rfl, rfl, fun n => ?_, fun n => ?_, fun k => ?_, rfl,
    pinResetStore_quarantine _ _, (pinResetStore_init _ _).2, (pinResetStore_init _ _).1, rfl, fun n => ?_, fun n => ?_,
    fun r => ?_, fun n => ?_, rfl, rfl, rfl, fun l => ?_, rfl, rfl, rfl, rfl⟩, rfl⟩
  · have hl : (Four.make (fun n => resetLink ((activityOf s.part).get n))).get n
        = resetLink (s.part.links.get n).activity := by
      rw [Four.get_make, activityOf, Four.get_make]
    simp only [resetPart, hl]
    exact ⟨rfl, rfl, rfl, rfl, rfl, rfl, rfl, rfl⟩
  · exact Four.get_all _ n
  · exact slotOf_pinReset rfl k
  · simp only [resetPart, Four.get_make]
    refine ⟨rfl, rfl, rfl, rfl, rfl, rfl, rfl, rfl, rfl, rfl, rfl, rfl, defaultProfile_eq address stdSel n, rfl, rfl, rfl,
      fun tab => ?_, fun φ k hφ hk => default_tt hφ hk, fun h hh => ⟨default_hc hh, default_vc hh⟩⟩
    rw [resetLane, getTable_reset]
    exact ⟨rfl, by simp [resetTable, defaultRows], by cases tab <;> rfl⟩
  · simp only [resetPart, Four.get_all]
    cases stdSel <;> exact ⟨rfl, rfl, rfl, rfl, rfl, rfl, rfl, rfl, rfl, rfl, rfl, rfl⟩
  · cases r <;> rfl
  · simp [resetPart, resetMgmt]
  · cases l <;> simp [getLog, resetPart, resetFault]

end Sys2Proof.Machine.ResetLaws
end

section
/-! SUPPORT. The takes that are due (R169): every take removes one block and adds none, so that they come to an end, and
every step answers a next state. -/

namespace Sys2Proof.Machine.QueueLaw

open Frames Keeping BoundsLaw

section Queues
variable {R : Four (List Block) → Prop} {p : Part}

theorem queued_store : StoreKeeps (fun p => R p.mgmt.queues) := store_blind storeBlind_mgmt (fun m => R m.queues)

theorem queued_lanes : LaneFree (fun p => R p.mgmt.queues) :=
  { queued_store with
    lane := fun _ _ _ hp => hp
    endLaneOp := fun n s p hp => by rw [endLaneOp_mgmt]; exact hp }

theorem queued_endOutOp (n : Ix) (s : DoneStatus) (hp : R p.mgmt.queues) : R (endOutOp n s p).mgmt.queues := by
  rw [endOutOp_mgmt]; exact hp

theorem queued_placeReply (n : Ix) (hp : R p.mgmt.queues) : R (placeReply n p).mgmt.queues := by
  unfold placeReply
  split <;> exact hp

theorem queued_outs : OutKeeps (fun _ => True) (fun p => R p.mgmt.queues) where
  out _ _ _ _ hp := hp
  placePackets n h p _ _ hp := by
    unfold placePackets
    dsimp only
    rw [modOut_mgmt, placeNotice_mgmt]
    exact queued_placeReply n (queued_placeReply n hp)
  endRelock n s p hp := queued_endOutOp n s hp
  setRef r _ _ _ hp := by cases r <;> exact hp

theorem queued_feeds : FeedKeeps (fun _ => True) (fun p => R p.mgmt.queues) :=
  feed_free { queued_store with feed := fun _ _ _ hp => hp } (fun _ _ _ _ _ hp => hp)

theorem queued_keeps : Keeps (fun _ => True) (fun p => R p.mgmt.queues) :=
  ⟨queued_store, queued_feeds, lane_free queued_lanes _, queued_outs⟩

/-- A take changes the command queues by the block that leaves it, and DEVICE RESET empties them (R169, R179). -/
theorem queued_law (hopen : ∀ l v, R v → R (v.modify l (fun bs => bs.drop 1))) (hreset : R (Four.all [])) :
    TakeLaw (fun _ => True) (fun p => R p.mgmt.queues) (fun p => R p.mgmt.queues) (fun _ _ p => R p.mgmt.queues) where
  opened _ l _ _ hp := hopen l _ hp
  reply _ _ _ _ hp := hp
  unreserve _ _ _ hp := hp
  mgmtCtr _ _ _ _ hp := hp
  toLaneCommands := lane_commands_free queued_lanes queued_feeds (fun _ _ _ hp => hp)
  setOutput _ _ _ _ _ _ _ _ _ hp := hp
  relockNow _ _ _ _ _ _ _ _ hp := queued_endOutOp _ _ hp
  relockWaits _ _ _ _ _ _ _ _ hp := hp
  toFaultCommands := fault_commands_free (fun _ _ hp => hp)
  storeCtr _ _ _ _ hp := hp
  deviceReset _ _ _ _ _ := deviceReset_kept queued_store (fun n k p hp => by rwa [placeNotice_mgmt]) hreset
  settings _ _ _ _ _ _ hp := hp
  mute _ _ _ _ _ hp := hp
  keeps _ _ := queued_keeps
  inEvent _ hp := hp
  taking _ _ := Iff.rfl
  upset u _ hp := by cases u <;> exact hp
  advance _ _ hp := hp
  settle := settle_kept queued_keeps (fun _ hp => hp) (fun _ hp => hp) (fun _ hp _ => hp)

end Queues

/-! ### The blocks that wait -/

/-- The blocks in the four command queues. -/
def blocksIn (v : Four (List Block)) : Nat := (allIx.map (fun n => (v.get n).length)).sum

theorem blocksIn_four (v : Four (List Block)) :
    blocksIn v = (v.get 0).length + (v.get 1).length + (v.get 2).length + (v.get 3).length := by
  simp [blocksIn, allIx, add_assoc]

theorem waiting_eq (p : Part) : waiting p = blocksIn p.mgmt.queues := rfl

theorem blocksIn_modify (l : Ix) (f : List Block → List Block) (v : Four (List Block)) :
    blocksIn (v.modify l f) + (v.get l).length = blocksIn v + (f (v.get l)).length := by
  simp only [blocksIn_four, Four.get_modify]
  revert l
  refine Ix.cases ?_ ?_ ?_ ?_ <;> simp <;> omega

theorem blocksIn_drop (l : Ix) (v : Four (List Block)) : blocksIn (v.modify l (fun bs => bs.drop 1)) ≤ blocksIn v := by
  have := blocksIn_modify l (fun bs => bs.drop 1) v
  simp only [List.length_drop] at this
  omega

theorem headBlock_waits {p : Part} {n : Ix} {b : Block} (hb : headBlock p n = some b) :
    0 < (p.mgmt.queues.get n).length := by
  rw [headBlock] at hb
  exact List.length_pos_of_mem (List.mem_of_mem_head? hb)

theorem waiting_pos {p : Part} (n : Ix) {b : Block} (hb : headBlock p n = some b) : 0 < waiting p := by
  have hpos := headBlock_waits hb
  rw [waiting_eq, blocksIn_four]
  clear hb
  revert n
  refine Ix.cases ?_ ?_ ?_ ?_ <;> intro hpos <;> omega

/-- A take leaves fewer blocks waiting (R169). -/
theorem takeHead_waiting {p : Part} {n : Ix} {b : Block} (hb : headBlock p n = some b) :
    waiting (takeHead n b p) < waiting p := by
  have h := queued_law (R := fun v => blocksIn v + 1 ≤ waiting p) (fun l v hv => by have := blocksIn_drop l v; omega)
    (by have := waiting_pos n hb; simp only [blocksIn_four, Four.get_all, List.length_nil]; omega)
  refine h.settle _ (h.takeOf_opened trivial ?_)
  have := blocksIn_modify n (fun bs => bs.drop 1) p.mgmt.queues
  have hpos := headBlock_waits hb
  simp only [List.length_drop] at this
  show blocksIn (p.mgmt.queues.modify n (fun bs => bs.drop 1)) + 1 ≤ blocksIn p.mgmt.queues
  omega

theorem dueTake_some {p : Part} {n : Ix} {b : Block} (ha : arbiter p = some n) (hb : headBlock p n = some b) :
    dueTake p = some (n, b) := by simp [dueTake, ha, hb]

theorem dueTake_head {p : Part} {n : Ix} {b : Block} (h : dueTake p = some (n, b)) :
    arbiter p = some n ∧ headBlock p n = some b := by
  simp only [dueTake, Option.bind_eq_some_iff, Option.map_eq_some_iff] at h
  obtain ⟨m, hm, b', hb, e⟩ := h
  cases e
  exact ⟨hm, hb⟩

/-- The arbiter serves a queue that holds a block: without a take that is due none is eligible (R169). -/
theorem arbiter_none {p : Part} (h : dueTake p = none) : arbiter p = none := by
  by_contra ha
  obtain ⟨n, hn⟩ := Option.ne_none_iff_exists'.1 ha
  cases hb : headBlock p n with
  | none =>
    have := arbiter_eligible hn
    simp [eligible, hb] at this
  | some b => simp [dueTake_some hn hb] at h

/-- With fuel for every block that waits, no take is left due. -/
theorem takesDue_ends {p : Part} {fuel : Nat} (h : waiting p ≤ fuel) : arbiter (takesDue fuel p) = none := by
  induction fuel generalizing p with
  | zero =>
    refine arbiter_none (Option.eq_none_iff_forall_ne_some.2 (fun ⟨n, b⟩ hd => ?_))
    have := takeHead_waiting (p := p) (dueTake_head hd).2
    omega
  | succ fuel ih =>
    unfold takesDue
    split
    · next n b hd =>
      have := takeHead_waiting (dueTake_head hd).2
      exact ih (by omega)
    · next hd => exact arbiter_none hd

theorem takesDue_enough {p : Part} {j k : Nat} (hj : waiting p ≤ j) (hk : waiting p ≤ k) :
    takesDue j p = takesDue k p := by
  induction j generalizing p k with
  | zero =>
    have : arbiter p = none := takesDue_ends (fuel := 0) hj
    rw [takesDue_idle this, takesDue_idle this]
  | succ j ih =>
    cases k with
    | zero =>
      have : arbiter p = none := takesDue_ends (fuel := 0) hk
      rw [takesDue_idle this, takesDue_idle this]
    | succ k =>
      unfold takesDue
      split
      · next n b hd =>
        have := takeHead_waiting (dueTake_head hd).2
        exact ih (by omega) (by omega)
      · rfl

theorem afterTakes_take {s : State} {n : Ix} {b : Block} (ha : arbiter s.part = some n) (hb : headBlock s.part n = some b) :
    afterTakes s = afterTakes { s with part := takeHead n b s.part } := by
  have hw := takeHead_waiting hb
  have h1 : takesDue (waiting s.part) s.part = takesDue (waiting s.part - 1) (takeHead n b s.part) := by
    obtain ⟨k, hk⟩ : ∃ k, waiting s.part = k + 1 := ⟨waiting s.part - 1, by omega⟩
    rw [hk]
    simp only [takesDue, dueTake_some ha hb, Nat.add_sub_cancel]
  simp only [afterTakes, h1]
  rw [takesDue_enough (show _ ≤ waiting s.part - 1 by omega) le_rfl]

theorem afterTakes_idle_after (s : State) : arbiter (afterTakes s).part = none := takesDue_ends le_rfl

theorem afterTakes_twice (s : State) : afterTakes (afterTakes s) = afterTakes s := afterTakes_idle (afterTakes_idle_after s)

/-! ### Every row -/

theorem happens_afterTakes (env : Env) (f : Part → Part) (s : State) : happens env f s = happens env f (afterTakes s) := by
  rw [happens, happens, afterTakes_twice]

theorem fallsDue_afterTakes (due : Part → Option Nat) (us : List Upset) (f : Part → Part) (s : State) :
    fallsDue due us f s = fallsDue due us f (afterTakes s) := by
  rw [fallsDue, fallsDue, afterTakes_twice]

/-- The row of a code sends its command, whose take is that of the code (Table 52). -/
theorem exec_rowOfCode (code : Byte) (env : Env) (cmd : Command) (s : State) :
    exec (rowOfCode env cmd code) s = command code env cmd (takeOf code cmd) s := by
  by_cases hc : 1 ≤ code.toNat ∧ code.toNat ≤ 25
  · obtain ⟨hlow, hhigh⟩ := hc
    generalize hk : code.toNat = k at hlow hhigh
    interval_cases k <;> obtain rfl := code_of_number hk <;> rfl
  · have hrow : rowOfCode env cmd code = .badCode env cmd code := by
      obtain h0 | ⟨j, hj⟩ : code.toNat = 0 ∨ ∃ j, code.toNat = j + 26 := by
        by_cases h0 : code.toNat = 0
        · exact .inl h0
        · exact .inr ⟨code.toNat - 26, by omega⟩
      · simp only [rowOfCode, h0]
      · simp only [rowOfCode, hj]
    have ht : isTableCode code = false := by simpa [isTableCode] using hc
    rw [hrow, takeOf_unknown hc]
    simp [exec, execBadCode, ht]

/-- An event of the outside and one that the part times itself begin with the takes that are due; so does a command. -/
theorem exec_afterTakes {c : Instr} (s : State) (hpin : ∀ a b, c ≠ .pinReset a b) : exec c s = exec c (afterTakes s) := by
  by_cases hcode : ∃ k, codeOf c = some k ∧ 1 ≤ k ∧ k ≤ 25
  · obtain ⟨k, hk, hrange⟩ := hcode
    obtain ⟨env, cmd, rfl⟩ := row_of_code hk hrange
    rw [exec_rowOfCode, exec_rowOfCode]
    exact happens_afterTakes _ _ _
  cases c with
  | pinReset a b => exact absurd rfl (hpin a b)
  | activityGained env n => exact happens_afterTakes env (gainActivity n) s
  | activityLost env n cut => exact happens_afterTakes env (loseActivity n cut) s
  | pictureMarker env n number par blank cut => exact happens_afterTakes env (takeMarker n number par blank cut) s
  | lineStart env n number par blank cut => exact happens_afterTakes env (takeLine n number blank cut) s
  | lineEnd env n ss check => exact happens_afterTakes env (takeLineEnd n ss check) s
  | ancillaryPacket env n words => exact happens_afterTakes env (takePacket n words) s
  | refMarker env r => exact happens_afterTakes env (takeRefMarker r) s
  | refExpiry us r => exact fallsDue_afterTakes (fun p => expiryOf (getRef p r)) us (refAbsent r) s
  | outputBoundary us n => exact fallsDue_afterTakes (fun p => some (p.outs.get n).next.toNat) us (takeBoundary n) s
  | outputLine env n => exact happens_afterTakes env (emitLine n) s
  | jobEnd env n => exact happens_afterTakes env (takeJobEnd n) s
  | slotInitialisationEnd us =>
    exact fallsDue_afterTakes (fun p => (initSlot p).map (fun _ => p.store.initDue)) us takeInitEnd s
  | acquireTimeout us n => exact fallsDue_afterTakes (fun p => (p.lanes.get n).acquireAt) us (takeTimeout n) s
  | badCode env cmd code =>
    simp only [exec, execBadCode]
    split
    · exact happens_afterTakes _ _ _
    · exact happens_afterTakes _ _ _
  | _ => exact absurd ⟨_, rfl, by decide⟩ hcode

theorem exec_next (c : Instr) (s : State) : ∃ p : Part, exec c s = .next { s with part := p } := by
  by_cases hpin : ∀ a b, c ≠ .pinReset a b
  · obtain ⟨t, us, f, -, hx⟩ := MemoryLaw.law.exec_event c s hpin (fun _ _ => trivial)
    exact ⟨_, hx⟩
  · simp only [ne_eq, not_forall, not_not] at hpin
    obtain ⟨a, b, rfl⟩ := hpin
    exact ⟨_, rfl⟩

/-- Settles O2, by the number of blocks that wait. -/
theorem everyStepAnswersNext : Obligations.EveryStepAnswersNext := by
  refine ⟨exec_next, fun s h => ?_, fun s => afterTakes_idle, fun s n b => afterTakes_take, afterTakes_idle_after,
    fun c s => exec_afterTakes s, fun code env cmd s h => ?_, fun s => ?_⟩
  · rw [step, h]
  · rw [exec_rowOfCode, command_taken _ h]
    rfl
  · rw [step]
    split
    · exact ⟨_, rfl⟩
    · obtain ⟨p, hp⟩ := exec_next _ { s with pending := _ }
      exact ⟨_, hp⟩

end Sys2Proof.Machine.QueueLaw
end

section
/-! SUPPORT. What acting on the input makes of a lane (R122, R129 to R131), and the answers of the time-taking commands
(R170, R174): START (R126). -/

namespace Sys2Proof.Machine.LaneValues

open Frames Keeping LogsLaw

section Values
variable (n m : Ix) (p : Part)

/-- Setting a latch adds it to those set (R184). -/
theorem mem_latchSet (c d : Cond) : d ∈ (latchSet c p).fault.latches ↔ d ∈ p.fault.latches ∨ d = c := by
  rw [latchSet_fault]
  split
  · next h =>
    refine ⟨.inl, fun hd => hd.elim id ?_⟩
    rintro rfl
    simpa using h
  · simp [List.mem_filter, mem_allConds, or_comm]

/-- Of the outputs, setting a latch changes the notices alone. -/
theorem latchSet_notices (c : Cond) :
    (latchSet c p).outs.get m = { p.outs.get m with notices := ((latchSet c p).outs.get m).notices } := by
  have h := latchSet_out p (fun o => { o with notices := [] }) c m (fun _ _ => rfl)
  generalize (latchSet c p).outs.get m = a at h ⊢
  generalize p.outs.get m = b at h ⊢
  cases a
  cases b
  simp_all

/-- A swap ends the COMMIT of its lane and touches no other block (R163). -/
@[simp] theorem commitSwap_frame :
    (commitSwap n p).timebase = p.timebase ∧ (commitSwap n p).straps = p.straps ∧ (commitSwap n p).links = p.links
      ∧ (commitSwap n p).feeds = p.feeds ∧ (commitSwap n p).store = p.store ∧ (commitSwap n p).refA = p.refA
      ∧ (commitSwap n p).refB = p.refB ∧ (commitSwap n p).fault = p.fault ∧ (commitSwap n p).mute = p.mute := by
  unfold commitSwap
  split <;> simp

variable {n p} in
theorem commitSwap_none (h : (p.lanes.get n).commit = none) : commitSwap n p = p := by rw [commitSwap, h]

/-! ### Entry to HOLDING and SLATE -/

/-- A lane that enters SLATE (R130). -/
def slated (l : Lane) : Lane :=
  swapped { l with
    state := .slate, laneCtr := { l.laneCtr with slateEntries := bump l.laneCtr.slateEntries } }

/-- A lane that enters HOLDING, before its hold limit is looked at (R129). -/
def held (l : Lane) : Lane :=
  { l with
    state := .holding, holdCount := 0, laneCtr := { l.laneCtr with holdEntries := bump l.laneCtr.holdEntries } }

/-- A lane that enters HOLDING, and at a hold limit of 0 SLATE in the same event (R130). -/
def enteredHold (l : Lane) : Lane := if l.profile.holdLimit = 0 then slated (held l) else held l

/-- What a lane makes of the loss of its input (R129). -/
def lostInput (l : Lane) : Lane := if l.state = .acquiring ∨ l.state = .converting then enteredHold l else l

theorem enterSlate_lanes : (enterSlate n p).lanes = p.lanes.modify n slated := by
  simp only [enterSlate, commitSwap_lanes, bumpLane_eq, modLane_lanes, latchSet_frame, Four.modify_modify]
  rfl

theorem enterHolding_lanes : (enterHolding n p).lanes = p.lanes.modify n enteredHold := by
  have hl : (held (p.lanes.get n)).profile.holdLimit = (p.lanes.get n).profile.holdLimit := rfl
  simp only [enterHolding, bumpLane_eq, modLane_lanes, latchSet_frame, Four.modify_modify, Four.get_modify_same]
  split <;> rename_i h
  · have e : enteredHold (p.lanes.get n) = slated (held (p.lanes.get n)) := if_pos h
    rw [Four.modify, e, enterSlate_lanes]
    simp only [modLane_lanes, latchSet_frame, Four.modify_modify]
    rfl
  · have e : enteredHold (p.lanes.get n) = held (p.lanes.get n) := if_neg h
    rw [Four.modify, e]
    simp only [modLane_lanes, latchSet_frame, Four.modify_modify]
    rfl

theorem inputLoss_lanes : (inputLoss n p).lanes = p.lanes.modify n lostInput := by
  unfold inputLoss
  split <;> rename_i h <;> simp [Four.modify, lostInput, h, enterHolding_lanes]

/-- Acting on the input touches none of these blocks (R129, R130). -/
@[simp] theorem enterHolding_frame :
    (enterHolding n p).timebase = p.timebase ∧ (enterHolding n p).straps = p.straps
      ∧ (enterHolding n p).links = p.links ∧ (enterHolding n p).feeds = p.feeds ∧ (enterHolding n p).store = p.store
      ∧ (enterHolding n p).refA = p.refA ∧ (enterHolding n p).refB = p.refB ∧ (enterHolding n p).mute = p.mute := by
  unfold enterHolding enterSlate
  dsimp only
  split <;> simp

@[simp] theorem inputLoss_frame :
    (inputLoss n p).timebase = p.timebase ∧ (inputLoss n p).straps = p.straps
      ∧ (inputLoss n p).links = p.links ∧ (inputLoss n p).feeds = p.feeds ∧ (inputLoss n p).store = p.store
      ∧ (inputLoss n p).refA = p.refA ∧ (inputLoss n p).refB = p.refB ∧ (inputLoss n p).mute = p.mute := by
  unfold inputLoss
  split <;> simp

theorem mem_enterHolding (d : Cond) : d ∈ (enterHolding n p).fault.latches ↔
    d ∈ p.fault.latches ∨ d = .inputLost n ∨ (d = .slate n ∧ (p.lanes.get n).profile.holdLimit = 0) := by
  simp only [enterHolding, enterSlate, bumpLane_eq, modLane_lanes, latchSet_frame, Four.modify_modify, Four.get_modify_same]
  split <;> rename_i h
  · simp [mem_latchSet, h, or_assoc]
  · simp [mem_latchSet, h]

theorem enterHolding_flags :
    (enterHolding n p).fault.mask = p.fault.mask ∧ (enterHolding n p).fault.deviceFatal = p.fault.deviceFatal
      ∧ (enterHolding n p).fault.fatalDue = p.fault.fatalDue
      ∧ (enterHolding n p).fault.feedLogs = p.fault.feedLogs ∧ (enterHolding n p).fault.laneLogs = p.fault.laneLogs
      ∧ (enterHolding n p).fault.deviceLog = p.fault.deviceLog := by
  unfold enterHolding enterSlate
  dsimp only
  split <;> simp

/-- Without a COMMIT that it ends, entry to HOLDING leaves the operations and all of the outputs but the notices. -/
theorem enterHolding_quiet (h : (p.lanes.get n).commit = none) :
    (enterHolding n p).mgmt = p.mgmt
      ∧ ∀ m, (enterHolding n p).outs.get m = { p.outs.get m with notices := ((enterHolding n p).outs.get m).notices } := by
  unfold enterHolding enterSlate
  dsimp only
  split
  · rw [commitSwap_none (by simpa using h)]
    refine ⟨by simp, fun m => ?_⟩
    simp only [bumpLane_eq, modLane_outs]
    rw [latchSet_notices]
    simp only [modLane_outs]
    rw [latchSet_notices]
    rfl
  · refine ⟨by simp, fun m => ?_⟩
    simp only [bumpLane_eq, modLane_outs]
    rw [latchSet_notices]
    rfl

end Values

/-! ### START -/

section Start
variable (n : Ix) (p : Part)

/-- A lane started at an instant, its input looked at, before it acts on a missing one (R126). -/
def startedLane (t : Nat) (usable : Bool) (l : Lane) : Lane :=
  { l with
    acquireAt := some (t + l.profile.acquireTimeout * Config.tenthSecond)
    jobNumber := 0
    holdCount := 0
    state := .acquiring
    usable := usable
    laneCtr := { l.laneCtr with startsAccepted := bump l.laneCtr.startsAccepted } }

/-- The part with the lane started, capture and the STD_MISMATCH latch re-evaluated (R124, R126). -/
def startedPart : Part :=
  checkMismatch n ({ recapture (p.lanes.get n).profile.source (startOpen n p) with
    lanes := p.lanes.modify n (startedLane p.timebase (inputUsable p n)) })

/-- The part once the lane is open, its feed captured and the START counted (R126 steps 1 to 5). -/
def openedLane : Part :=
  bumpLane n (fun c => { c with startsAccepted := bump c.startsAccepted })
    (recapture (p.lanes.get n).profile.source (startOpen n p))

/-- A part acts on what its lane's input is found to be (R126 step 6). -/
def actsOnInput (usable : Bool) (q : Part) : Part :=
  if usable then checkMismatch n (modLane n (fun l => { l with usable := usable }) q)
  else inputLoss n (checkMismatch n (modLane n (fun l => { l with usable := usable }) q))

theorem startLane_opened : startLane n p = actsOnInput n (inputUsable (openedLane n p) n) (openedLane n p) := rfl

theorem openedLane_usable : inputUsable (openedLane n p) n = inputUsable p n := by
  have hl : (openedLane n p).lanes.get n =
      startedLane p.timebase (p.lanes.get n).usable (p.lanes.get n) := by
    simp [openedLane, startOpen, startedLane]
  simp only [inputUsable, hl]
  rfl

theorem openedLane_started (u : Bool) : modLane n (fun l => { l with usable := u }) (openedLane n p) =
    { recapture (p.lanes.get n).profile.source (startOpen n p) with
      lanes := p.lanes.modify n (startedLane p.timebase u) } := by
  simp only [openedLane, bumpLane_eq, modLane, recapture, modFeed, startOpen, Four.modify_modify]
  rfl

theorem startLane_eq : startLane n p =
    if inputUsable p n then startedPart n p else inputLoss n (startedPart n p) := by
  rw [startLane_opened, openedLane_usable, actsOnInput, openedLane_started]
  rfl

/-- Whether a lane that starts finds its feed LOCKED under another code than its own (R123). -/
def mismatched (p : Part) (l : Lane) : Prop :=
  lockedCode p l.profile.source ≠ none ∧ lockedCode p l.profile.source ≠ some l.profile.input

theorem checkMismatch_frame (q : Part) :
    (checkMismatch n q).timebase = q.timebase ∧ (checkMismatch n q).straps = q.straps
      ∧ (checkMismatch n q).links = q.links ∧ (checkMismatch n q).feeds = q.feeds ∧ (checkMismatch n q).store = q.store
      ∧ (checkMismatch n q).lanes = q.lanes ∧ (checkMismatch n q).refA = q.refA ∧ (checkMismatch n q).refB = q.refB
      ∧ (checkMismatch n q).mgmt = q.mgmt ∧ (checkMismatch n q).mute = q.mute
      ∧ (checkMismatch n q).fault.fatalDue = q.fault.fatalDue
      ∧ ∀ m, (checkMismatch n q).outs.get m =
        { q.outs.get m with notices := ((checkMismatch n q).outs.get m).notices } := by
  unfold checkMismatch
  split
  · refine ⟨?_, ?_, ?_, ?_, ?_, ?_, ?_, ?_, ?_, ?_, ?_, fun m => latchSet_notices m q _⟩ <;> simp
  · exact ⟨rfl, rfl, rfl, rfl, rfl, rfl, rfl, rfl, rfl, rfl, rfl, fun _ => rfl⟩

theorem mem_checkMismatch (q : Part) (d : Cond) : d ∈ (checkMismatch n q).fault.latches ↔
    d ∈ q.fault.latches ∨ (d = .stdMismatch n ∧ isRunning (q.lanes.get n).state = true ∧ mismatched q (q.lanes.get n)) := by
  have hc : causePresent q (.stdMismatch n) = true ↔
      isRunning (q.lanes.get n).state = true ∧ mismatched q (q.lanes.get n) := by
    simp only [causePresent, Bool.and_eq_true, mismatched]
    refine and_congr_right (fun _ => ?_)
    cases lockedCode q (q.lanes.get n).profile.source <;> simp
  unfold checkMismatch
  split <;> rename_i h
  · simp [mem_latchSet, hc.1 h]
  · have : ¬(isRunning (q.lanes.get n).state = true ∧ mismatched q (q.lanes.get n)) := fun e => h (hc.2 e)
    simp [this]

/-- The lane that starts is one of the running lanes of its feed. -/
theorem runningCount_pos {q : Part} (h : isRunning (q.lanes.get n).state = true) :
    0 < runningCount q (q.lanes.get n).profile.source := by
  have hix : ∀ m : Ix, m ∈ allIx := by decide
  exact List.countP_pos_iff.2 ⟨n, hix n, by simp [sources, h]⟩

theorem startedPart_lanes : (startedPart n p).lanes = p.lanes.modify n (startedLane p.timebase (inputUsable p n)) :=
  (checkMismatch_frame n _).2.2.2.2.2.1

/-- What a START makes of its lane (R126, R129, R130). -/
theorem startLane_lanes : (startLane n p).lanes = p.lanes.modify n (fun l =>
    if inputUsable p n then startedLane p.timebase true l else enteredHold (startedLane p.timebase false l)) := by
  rw [startLane_eq]
  split <;> rename_i h
  · rw [startedPart_lanes, h]
  · rw [inputLoss_lanes, startedPart_lanes, Four.modify_modify, Bool.eq_false_iff.2 h]
    simp [lostInput, startedLane]

theorem startLane_captureOn : ((startLane n p).feeds.get (p.lanes.get n).profile.source).captureOn
    = (lockedCode p (p.lanes.get n).profile.source).isSome := by
  have hf : (startLane n p).feeds = (recapture (p.lanes.get n).profile.source (startOpen n p)).feeds := by
    rw [startLane_eq]
    split <;> simp [startedPart, checkMismatch_frame]
  have hpos := runningCount_pos n (q := startOpen n p) (by simp [startOpen, isRunning])
  rw [show ((startOpen n p).lanes.get n).profile.source = (p.lanes.get n).profile.source by simp [startOpen]] at hpos
  rw [hf]
  simp only [recapture, modFeed, Four.get_modify_same, decide_eq_true hpos, Bool.and_true]
  rfl

theorem startLane_frame :
    (startLane n p).links = p.links ∧ (startLane n p).store = p.store
      ∧ ((startLane n p).fault.fatalDue = p.fault.fatalDue) := by
  have hq := checkMismatch_frame n { recapture (p.lanes.get n).profile.source (startOpen n p) with
    lanes := p.lanes.modify n (startedLane p.timebase (inputUsable p n)) }
  obtain ⟨-, -, hlinks, -, hstore, -, -, -, -, -, hdue, -⟩ := hq
  rw [startLane_eq]
  split
  · exact ⟨hlinks, hstore, hdue⟩
  · refine ⟨inputLoss_frame n _ |>.2.2.1.trans hlinks, inputLoss_frame n _ |>.2.2.2.2.1.trans hstore, ?_⟩
    refine Eq.trans ?_ hdue
    unfold inputLoss
    split
    · exact (enterHolding_flags n _).2.2.1
    · exact (enterHolding_flags n _).2.2.1
    all_goals rfl

theorem mem_startLane (d : Cond) : d ∈ (startLane n p).fault.latches ↔
    d ∈ p.fault.latches ∨ (inputUsable p n = false
      ∧ (d = .inputLost n ∨ (d = .stdMismatch n ∧ lockedCode p (p.lanes.get n).profile.source ≠ none)
        ∨ (d = .slate n ∧ (p.lanes.get n).profile.holdLimit = 0))) := by
  have hm := mem_checkMismatch n { recapture (p.lanes.get n).profile.source (startOpen n p) with
    lanes := p.lanes.modify n (startedLane p.timebase (inputUsable p n)) } d
  have hmis : mismatched { recapture (p.lanes.get n).profile.source (startOpen n p) with
      lanes := p.lanes.modify n (startedLane p.timebase (inputUsable p n)) }
      ((p.lanes.modify n (startedLane p.timebase (inputUsable p n))).get n) ↔
      lockedCode p (p.lanes.get n).profile.source ≠ none ∧ inputUsable p n = false := by
    rw [Four.get_modify_same, inputUsable, decide_eq_false_iff_not]
    exact Iff.rfl
  rw [hmis, Four.get_modify_same] at hm
  rw [startLane_eq]
  split <;> rename_i h
  · rw [startedPart, hm]
    simp [h]
    rfl
  · have hf := Bool.eq_false_iff.2 h
    have hs : ((startedPart n p).lanes.get n).state = .acquiring := by
      rw [startedPart_lanes, Four.get_modify_same]
      rfl
    have hlim : ((startedPart n p).lanes.get n).profile.holdLimit = (p.lanes.get n).profile.holdLimit := by
      rw [startedPart_lanes, Four.get_modify_same]
      rfl
    have hi : inputLoss n (startedPart n p) = enterHolding n (startedPart n p) := by rw [inputLoss, hs]
    rw [hi, mem_enterHolding, hlim, startedPart, hm]
    simp only [hf, true_and, and_true]
    show (d ∈ p.fault.latches ∨ _) ∨ _ ↔ _
    tauto

/-- Without a COMMIT that it ends, a START leaves the operations and all of the outputs but the notices. -/
theorem startLane_quiet (h : (p.lanes.get n).commit = none) :
    (startLane n p).mgmt = p.mgmt
      ∧ ∀ m, (startLane n p).outs.get m = { p.outs.get m with notices := ((startLane n p).outs.get m).notices } := by
  obtain ⟨-, -, -, -, -, -, -, -, hmgmt, -, -, houts⟩ :=
    checkMismatch_frame n { recapture (p.lanes.get n).profile.source (startOpen n p) with
      lanes := p.lanes.modify n (startedLane p.timebase (inputUsable p n)) }
  rw [startLane_eq]
  split
  · exact ⟨hmgmt, houts⟩
  · have hs : ((startedPart n p).lanes.get n).state = .acquiring := by
      rw [startedPart_lanes, Four.get_modify_same]
      rfl
    have hc : ((startedPart n p).lanes.get n).commit = none := by
      rw [startedPart_lanes, Four.get_modify_same]
      exact h
    have hi : inputLoss n (startedPart n p) = enterHolding n (startedPart n p) := by rw [inputLoss, hs]
    obtain ⟨hm, ho⟩ := enterHolding_quiet n _ hc
    rw [hi]
    refine ⟨hm.trans hmgmt, fun m => (ho m).trans ?_⟩
    have := houts m
    rw [startedPart, this]
    rfl

end Start

/-! ### The answers of time-taking commands -/

section Timed
variable {code : Byte} {env : Env} {cmd : Command} {s : State} {kind : PendingKind}

/-- A time-taking command that its test refuses gives both places back (R170, R171). -/
theorem timed_refused (test : Command → Part → Except Denied OpTarget) (start : Command → OpTarget → Part → Part)
    (h : takenNow code env cmd s) (hneed : need code = 2) {st : Refused} {ws : List Byte}
    (hd : test cmd (openTake code cmd.link (partAt code env cmd s)) = .error ⟨st, ws⟩) :
    command code env cmd (takeTimed code kind cmd (test cmd) (start cmd)) s = refusedWith code env cmd s st ws := by
  rw [timed_taken kind test start h]
  have e : takeTimed code kind cmd (test cmd) (start cmd) (partAt code env cmd s) =
      answered cmd.link (refusalReply code cmd (partAt code env cmd s) st ws) true (partAt code env cmd s) := by
    simp only [takeTimed, answerTimed, hd]
    simp only [countTake, postReply, unreserve, bumpMgmt, modMgmt, modOut, answered, openTake_eq, hneed, withReplies,
      servedMgmt, Four.modify_modify]
    rfl
  rw [e, settle_quiet, refusedWith]
  exact DeviceAnswers.fatalDue_partAt h

/-- The part at which an accepted operation begins: ACCEPTED posted, the record filled, one place kept (R174). -/
def acceptedAt (code : Byte) (kind : PendingKind) (cmd : Command) (t : OpTarget) (q : Part) : Part :=
  fillRecord t (recordOf kind code cmd q)
    (postReply cmd.link (acceptedReply cmd code q.mgmt.restart) (openTake code cmd.link q))

/-- A time-taking command that its test accepts begins its operation (R170, R174). -/
theorem timed_accepted (test : Command → Part → Except Denied OpTarget) (start : Command → OpTarget → Part → Part)
    (h : takenNow code env cmd s) {t : OpTarget}
    (ht : test cmd (openTake code cmd.link (partAt code env cmd s)) = .ok t) :
    command code env cmd (takeTimed code kind cmd (test cmd) (start cmd)) s = .next { s with
      part := settle (countTake false (start cmd t (acceptedAt code kind cmd t (partAt code env cmd s)))) } := by
  rw [timed_taken kind test start h]
  simp only [takeTimed, answerTimed, ht]
  rfl

theorem acceptedAt_outs (hneed : need code = 2) (t : OpTarget) (q : Part) :
    (acceptedAt code kind cmd t q).outs = q.outs.modify cmd.link (fun o =>
      { o with replies := o.replies ++ [acceptedReply cmd code q.mgmt.restart], reserved := o.reserved + 1 }) := by
  cases t <;>
    simp only [acceptedAt, fillRecord, postReply, modMgmt, modOut, openTake_eq, hneed, Four.modify_modify] <;> rfl

/-- Behind the outputs and the management unit the part is as the take found it. -/
theorem acceptedAt_frame (t : OpTarget) (q : Part) :
    { acceptedAt code kind cmd t q with outs := q.outs, mgmt := q.mgmt } = q := by cases t <;> rfl

end Timed

/-! ### O49 -/

section Accepted
variable {env : Env} {cmd : Command} {s : State}

theorem inputUsable_acceptedAt {code : Byte} {kind : PendingKind} (t : OpTarget) (q : Part) (n : Ix) :
    inputUsable (acceptedAt code kind cmd t q) n = inputUsable q n := by cases t <;> rfl

theorem lockedCode_congr {p q : Part} (h : q.links = p.links) (n : Ix) : lockedCode q n = lockedCode p n := by
  rw [lockedCode, lockedCode, h]

theorem lockedCode_partAt {code : Byte} (n : Ix) : lockedCode (partAt code env cmd s) n = lockedCode s.part n :=
  lockedCode_congr (by rw [partAt_links, found_links_eq]) n

theorem laneOps_partAt {code : Byte} : (partAt code env cmd s).mgmt.laneOps = s.part.mgmt.laneOps := by simp

theorem countTake_accepted {code : Byte} {kind : PendingKind} {n : Ix} {q p' : Part}
    (h : p'.mgmt = (acceptedAt code kind cmd (.lane n) q).mgmt) :
    (countTake false p').mgmt = (acceptedLane n kind code cmd q).mgmt := by
  have hb : (countTake false p').mgmt = { p'.mgmt with
      ctr := { p'.mgmt.ctr with commandsTaken := bump p'.mgmt.ctr.commandsTaken } } := rfl
  rw [hb, h]
  rfl

section Tests
variable {q : Part}

theorem testStart_badTarget (h : laneTarget cmd = none) : testStart cmd q = deny .badTarget := by rw [testStart, h]

theorem testStart_lane {n : Ix} (h : laneTarget cmd = some n) : testStart cmd q =
    if cmd.payload ≠ [] then deny .badLength
    else if (q.mgmt.laneOps.get n).isSome then deny .busy
    else if (q.lanes.get n).state ≠ .stopped then deny .wrongState
    else .ok (.lane n) := by rw [testStart, h]

end Tests

/-- Settles O49: the tests in their order, and the lane, capture, latches and answer of a START that is accepted. -/
theorem startBeginsRunning : Obligations.StartBeginsRunning := by
  intro env cmd s q h hq
  have hops : (openTake 9 cmd.link q).mgmt.laneOps = s.part.mgmt.laneOps := by
    rw [hq, ← laneOps_partAt (code := 9) (env := env) (cmd := cmd)]
    rfl
  have hlock : ∀ m, lockedCode q m = lockedCode s.part m := fun m => by rw [hq, lockedCode_partAt]
  have hrefused : ∀ st, testStart cmd (openTake 9 cmd.link q) = deny st →
      exec (.start env cmd) s = refusedNow 9 env cmd s st := fun st hd =>
    timed_refused testStart beginStart h rfl (hq ▸ hd)
  refine ⟨fun hn => hrefused _ (testStart_badTarget hn), fun n l hn hl => ?_⟩
  have ht := testStart_lane (q := openTake 9 cmd.link q) hn
  have hlane : ((openTake 9 cmd.link q).lanes.get n) = l := hl.symm
  rw [hops, hlane] at ht
  split
  · next h1 => exact hrefused _ (by rw [ht, if_pos h1])
  next h1 =>
  rw [if_neg h1] at ht
  split
  · next h2 => exact hrefused _ (by rw [ht, if_pos h2])
  next h2 =>
  rw [if_neg h2] at ht
  split
  · next h3 => exact hrefused _ (by rw [ht, if_pos h3])
  next h3 =>
  rw [if_neg h3] at ht
  intro hc
  have hx : exec (.start env cmd) s = .next { s with
      part := settle (countTake false (startLane n (acceptedAt 9 .start cmd (.lane n) q))) } := by
    rw [hq]
    exact timed_accepted testStart beginStart h (hq ▸ ht)
  have hdue : q.fault.fatalDue = false := by
    rw [hq]
    exact DeviceAnswers.fatalDue_partAt h
  have hu : inputUsable (acceptedAt 9 .start cmd (.lane n) q) n
      = decide (lockedCode s.part l.profile.source = some l.profile.input) := by
    rw [inputUsable_acceptedAt, inputUsable, ← hl, hlock]
  have hlanes := startLane_lanes n (acceptedAt 9 .start cmd (.lane n) q)
  have hfault : q.fault = s.part.fault := by rw [hq, partAt_fault]
  have hmem := mem_startLane n (acceptedAt 9 .start cmd (.lane n) q)
  obtain ⟨hlinks, hstore, hfat⟩ := startLane_frame n (acceptedAt 9 .start cmd (.lane n) q)
  obtain ⟨hmgmt, houts⟩ := startLane_quiet n (acceptedAt 9 .start cmd (.lane n) q) (by
    show (q.lanes.get n).commit = none
    rwa [← hl])
  have hcapture := startLane_captureOn n (acceptedAt 9 .start cmd (.lane n) q)
  have hto := acceptedAt_outs (kind := .start) (cmd := cmd) (code := 9) rfl (.lane n) q
  rw [settle_quiet (p := countTake false (startLane n (acceptedAt 9 .start cmd (.lane n) q))) (hfat.trans hdue)] at hx
  have hq' : (acceptedAt 9 .start cmd (.lane n) q).lanes = q.lanes := rfl
  have htime : (acceptedAt 9 .start cmd (.lane n) q).timebase = q.timebase := rfl
  have hlinks' : (acceptedAt 9 .start cmd (.lane n) q).links = q.links := rfl
  have hfault' : (acceptedAt 9 .start cmd (.lane n) q).fault = s.part.fault := hfault
  have hlock' : lockedCode (acceptedAt 9 .start cmd (.lane n) q) l.profile.source = lockedCode s.part l.profile.source :=
    (lockedCode_congr (q := acceptedAt 9 .start cmd (.lane n) q) rfl _).trans (hlock _)
  rw [hu, hq', htime] at hlanes
  rw [hq', ← hl] at hcapture
  simp only [hu, hq', ← hl, hfault', hlock'] at hmem
  rw [hlock'] at hcapture
  generalize startLane n (acceptedAt 9 .start cmd (.lane n) q) = u at *
  refine ⟨_, hx, countTake_accepted hmgmt, fun m => ?_, ?_, hcapture, fun c => ?_, fun m hm => ?_, ?_, hstore⟩
  · exact (houts m).trans (by rw [hto]; rfl)
  · show u.lanes.get n = _
    rw [hlanes, Four.get_modify_same, ← hl]
    by_cases hlk : lockedCode s.part l.profile.source = some l.profile.input
    · simp [hlk, startedLane, Config.tenthSecond]
    · by_cases hlim : l.profile.holdLimit = 0 <;>
        simp [hlk, hlim, startedLane, enteredHold, slated, held, swapped, hc, Config.tenthSecond]
  · refine (hmem c).trans ?_
    rw [decide_eq_false_iff_not]
  · show u.lanes.get m = _
    rw [hlanes, Four.get_modify_other _ _ hm]
  · show u.links = _
    rw [hlinks, hlinks', hq, partAt_links, found_links_eq]

end Accepted

end Sys2Proof.Machine.LaneValues
end

section
/-! SUPPORT. The rows that a job in flight reads stay those it started with (second half of O11: R77, R94, R163). -/

namespace Sys2Proof.Machine.JobRowsLaw

open Frames Keeping TablesLaw LaneValues

/-! ### A command that does not arrive -/

section Offered
variable {β : Type} {g : Part → β} (h : ∀ l c d p, g (report l c d p) = g p) (hf : ∀ n f p, g (modFeed n f p) = g p)
  (hl : ∀ n f p, g (modLane n f p) = g p) (hk : ∀ n f p, g (modLink n f p) = g p) {p : Part}
include h hf hl hk

theorem takeTimecode_keeps (n : Ix) (ws : List Byte) : g (takeTimecode n ws p) = g p := by
  unfold takeTimecode
  split
  · unfold labelOffer
    split
    · exact hf _ _ _
    · refine forAll_keeps g _ (fun m q => ?_) allIx p
      split
      · exact (hl _ _ _).trans (h _ _ _ _)
      · rfl
  · exact hk _ _ _

omit hf hk in
theorem takeOffer_keeps (n m : Ix) (k : Packet) (q : Part) : g (takeOffer n k m q) = g q := by
  have hroom : g (carryRoom m q) = g q := by
    unfold carryRoom
    split
    · rfl
    · split
      · rw [h, bumpCarry_eq, hl, hl]
      · rfl
  unfold takeOffer
  split
  · split
    · rw [carryPacket, bumpCarry_eq, hl, hl, hroom]
    · exact hl _ _ _
  · rfl

theorem dispatch_other {n : Ix} {k : Packet} (hc : isCommand p n k = false) : g (dispatch n k p) = g p := by
  unfold dispatch
  rw [if_neg (by rw [hc]; exact Bool.false_ne_true)]
  split
  · exact takeTimecode_keeps h hf hl hk n _
  · refine forAll_keeps g _ (fun m q => ?_) allIx p
    split
    · exact takeOffer_keeps h hl n m k q
    · rfl

/-- Without listen on, or on a link that extracts nothing, a command leaves management and outputs (R14, R15). -/
theorem present_other {code : Byte} {cmd : Command}
    (hn : ¬(extracts (p.links.get cmd.link).state = true ∧ (p.links.get cmd.link).settings.listen = true)) :
    g (present code cmd p) = g p := by
  unfold present
  split
  · next hx =>
    have hlisten : (p.links.get cmd.link).settings.listen = false := Bool.eq_false_iff.2 (fun e => hn ⟨hx, e⟩)
    exact dispatch_other h hf hl hk (by simp [isCommand, hlisten])
  · rfl

end Offered

theorem eligible_congr {p q : Part} (hm : q.mgmt = p.mgmt) (ho : q.outs = p.outs) (n : Ix) :
    eligible q n = eligible p n := by
  unfold eligible headBlock room
  rw [hm, ho]

theorem arbiter_congr {p q : Part} (hm : q.mgmt = p.mgmt) (ho : q.outs = p.outs) : arbiter q = arbiter p := by
  have he : eligible q = eligible p := funext (eligible_congr hm ho)
  simp only [arbiter, he, hm]

/-- In a quiet state a command that is taken after it was sent is taken now: its block has arrived. -/
theorem takenNow_of_isTaken {code : Byte} {env : Env} {cmd : Command} {s : State} (hq : quiet s)
    (ht : isTaken code cmd (present code cmd (foundBy env s)) = true) : takenNow code env cmd s := by
  have hlinks : (foundBy env s).links = s.part.links := found_links_eq env s
  by_cases hn : extracts ((foundBy env s).links.get cmd.link).state = true
      ∧ ((foundBy env s).links.get cmd.link).settings.listen = true
  · rw [present_listening _ hn.1 hn.2] at ht
    rw [hlinks] at hn
    exact ⟨hq, hn.1, hn.2, ht⟩
  · have e := present_other (code := code) (g := fun p : Part => (p.mgmt, p.outs)) (fun l c d p => by simp) (fun _ _ _ => rfl) (fun _ _ _ => rfl) (fun _ _ _ => rfl) hn
    obtain ⟨hm, ho⟩ := Prod.mk.inj e
    have ha : arbiter (present code cmd (foundBy env s)) = none :=
      (arbiter_congr hm ho).trans ((arbiter_congr (by simp) (by simp)).trans hq.2)
    rw [isTaken, ha] at ht
    simp at ht

/-! ### The rows of one job -/

/-- The rows that the job of a lane reads. -/
def rowsOf (l : Lane) : ActiveRows := l.job.kept.getD (activeRows l.tables)

theorem sameContents_refl (a : ActiveRows) : sameContents a a := ⟨rfl, rfl, rfl⟩

theorem sameContents_trans {a b c : ActiveRows} (h : sameContents a b) (h' : sameContents b c) : sameContents a c :=
  ⟨h.1.trans h'.1, h.2.1.trans h'.2.1, h.2.2.trans h'.2.2⟩

/-- The lane's job, where it is still the one of number `j`, reads rows of these contents; or the lane was reset. -/
def JobHeld (j : Nat) (rows : ActiveRows) (l : Lane) : Prop :=
  (j ≤ l.jobNumber ∧ (l.job.inFlight = true → l.jobNumber = j → sameContents (rowsOf l) rows))
    ∨ ((l.state = .stopped ∨ l.state = .faulted) ∧ l.job.inFlight = false)

section Lane
variable {j : Nat} {rows : ActiveRows} {l l' : Lane}

theorem JobHeld.same (h : JobHeld j rows l) (hs : l'.state = l.state ∨ l'.state = .stopped ∨ l'.state = .faulted)
    (hn : l'.jobNumber = l.jobNumber) (hj : l'.job.inFlight = l.job.inFlight)
    (hr : l.job.inFlight = true → sameContents (rowsOf l') (rowsOf l)) : JobHeld j rows l' := by
  rcases h with ⟨hle, hrows⟩ | ⟨hst, hfl⟩
  · refine .inl ⟨hn ▸ hle, fun hf he => ?_⟩
    rw [hj] at hf
    exact sameContents_trans (hr hf) (hrows hf (hn ▸ he))
  · refine .inr ⟨?_, hj.trans hfl⟩
    rcases hs with e | e
    · rwa [e]
    · exact e

theorem JobHeld.idle (h : JobHeld j rows l) (hs : l'.state = l.state) (hn : l'.jobNumber = l.jobNumber)
    (hf : l'.job.inFlight = false) : JobHeld j rows l' := by
  rcases h with ⟨hle, -⟩ | ⟨hst, -⟩
  · exact .inl ⟨hn ▸ hle, fun e => by simp [hf] at e⟩
  · exact .inr ⟨hs ▸ hst, hf⟩

/-- The swap keeps the rows of a job in flight for it (R163). -/
theorem rowsOf_swapped (h : l.job.inFlight = true) : rowsOf (swapped l) = rowsOf l := by
  unfold swapped
  split
  · unfold rowsOf keepRows
    cases hk : l.job.kept with
    | none => simp [h]
    | some k => simp [h, hk]
  · rfl

theorem swapped_frame (l : Lane) : (swapped l).state = l.state ∧ (swapped l).jobNumber = l.jobNumber
    ∧ (swapped l).job.inFlight = l.job.inFlight := by
  unfold swapped
  split
  · exact ⟨rfl, rfl, keepRows_inFlight l⟩
  · exact ⟨rfl, rfl, rfl⟩

theorem activeRows_spoiled (t : Table) (b : Bank) (row : Nat) (ts : Tables) :
    sameContents (activeRows (modTable t (spoilBank b row) ts)) (activeRows ts) := by
  have hb (u : TableBanks) : (spoilBank b row u).active.map rowCoefs = u.active.map rowCoefs := by
    cases b
    · exact (spoilRow_same row u.active).coefs.symm
    · rfl
  cases t
  · exact ⟨hb _, rfl, rfl⟩
  · exact ⟨rfl, hb _, rfl⟩
  · exact ⟨rfl, rfl, hb _⟩

theorem activeRows_shadow (t : Table) (first : Nat) (loaded : List TRow) (ts : Tables) :
    activeRows (loadShadow t first loaded ts) = activeRows ts := by cases t <;> rfl

theorem rowsOf_tables (l : Lane) {ts : Tables} (h : sameContents (activeRows ts) (activeRows l.tables)) :
    sameContents (rowsOf { l with tables := ts }) (rowsOf l) := by
  cases hk : l.job.kept with
  | none => simpa [rowsOf, hk] using h
  | some k => simpa [rowsOf, hk] using sameContents_refl k

/-- The law of the lane that runs the job, under every command but START. -/
theorem jobHeld_law (n : Ix) : LaneLaw (fun c => c ≠ 9) (fun m l => m = n → JobHeld j rows l) where
  minor m l l' b hm h e := by
    have hs := hm.state
    cases b with
    | true =>
      simp only [if_true] at hs
      rcases h e with ⟨hle, hrows⟩ | ⟨hst, -⟩
      · refine .inl ⟨hm.jobNumber ▸ hle, fun hf he => ?_⟩
        rw [rowsOf, hm.kept, hm.tables]
        exact hrows (hm.inFlight ▸ hf) (hm.jobNumber ▸ he)
      · rcases hst with h0 | h0 <;> rw [h0] at hs <;> exact absurd hs.1 (by decide)
    | false =>
      refine (h e).same (.inl (by simpa using hs)) hm.jobNumber hm.inFlight (fun _ => ?_)
      rw [rowsOf, hm.kept, hm.tables]
      exact sameContents_refl _
  stop _ _ _ hs _ _ h e := (h e).same (.inr hs.symm) rfl rfl (fun _ => sameContents_refl _)
  faultStopped _ _ _ h e := (h e).same (.inr (.inr rfl)) rfl rfl (fun _ => sameContents_refl _)
  ended m l h e := by
    unfold jobEnded
    split
    · exact (h e).idle rfl rfl rfl
    · exact h e
  carryShrink _ _ _ _ h e := (h e).same (.inl rfl) rfl rfl (fun _ => sameContents_refl _)
  carried _ _ _ _ h e := (h e).same (.inl rfl) rfl rfl (fun _ => sameContents_refl _)
  swap _ l h e := (h e).same (.inl (swapped_frame l).1) (swapped_frame l).2.1 (swapped_frame l).2.2
    (fun hf => rowsOf_swapped hf ▸ sameContents_refl _)
  timerOff _ _ h e := (h e).same (.inl rfl) rfl rfl (fun _ => sameContents_refl _)
  commitOff _ _ h e := (h e).same (.inl rfl) rfl rfl (fun _ => sameContents_refl _)
  jobSet _ l _ hr _ _ _ h e := by
    rcases h e with ⟨hle, -⟩ | ⟨hst, -⟩
    · refine .inl ⟨by simp only; omega, fun _ he => ?_⟩
      simp only at he
      omega
    · rcases hst with h0 | h0 <;> rw [h0] at hr <;> exact absurd hr (by decide)
  pin _ _ _ _ h e := (h e).same (.inl rfl) rfl rfl (fun _ => sameContents_refl _)
  spoilTable _ l t b row h e := (h e).same (.inl rfl) rfl rfl (fun _ => rowsOf_tables l (activeRows_spoiled t b row _))
  spoilItem _ _ _ h e := (h e).same (.inl rfl) rfl rfl (fun _ => sameContents_refl _)
  profile _ _ _ _ _ h e := by
    unfold storeProfile
    split <;> exact (h e).same (.inl rfl) rfl rfl (fun _ => sameContents_refl _)
  start _ _ _ hA := absurd rfl hA
  resumed _ _ _ _ h e := (h e).same (.inr (.inl rfl)) rfl rfl (fun _ => sameContents_refl _)
  shadow _ l t first loaded _ _ h e := (h e).same (.inl rfl) rfl rfl (fun _ =>
    rowsOf_tables l (by rw [activeRows_shadow]; exact sameContents_refl _))
  commitHeld _ _ _ _ _ h e := (h e).same (.inl rfl) rfl rfl (fun _ => sameContents_refl _)
  route _ _ _ _ _ h e := (h e).same (.inl rfl) rfl rfl (fun _ => sameContents_refl _)
  reset _ _ _ _ := .inr ⟨.inl rfl, rfl⟩

end Lane

/-! ### START -/

theorem rowsOf_enteredHold {l : Lane} (h : l.job.inFlight = true) : rowsOf (enteredHold l) = rowsOf l := by
  unfold enteredHold
  split
  · exact rowsOf_swapped (l := { held l with state := .slate, laneCtr := _ }) h
  · rfl

/-- What the take of a START does to the lanes (R126): it starts one, or none; and no integrity error comes of it. -/
theorem takeStart_effect (cmd : Command) (q : Part) : (takeStart cmd q).fault.fatalDue = q.fault.fatalDue ∧
    ((takeStart cmd q).lanes = q.lanes
      ∨ ∃ (n : Ix) (u : Bool), (takeStart cmd q).lanes = q.lanes.modify n (fun l =>
        if u then startedLane q.timebase true l else enteredHold (startedLane q.timebase false l))) := by
  unfold takeStart takeTimed answerTimed
  split
  · next t ht =>
    cases t with
    | lane n => exact ⟨(startLane_frame n _).2.2, .inr ⟨n, _, startLane_lanes n _⟩⟩
    | output n => exact ⟨rfl, .inl rfl⟩
  · exact ⟨rfl, .inl rfl⟩

/-- A START leaves the rows of a job in flight (R77). -/
theorem start_rows {q p : Part} {n : Ix}
    (h : p.lanes = q.lanes ∨ ∃ (m : Ix) (u : Bool), p.lanes = q.lanes.modify m (fun l =>
      if u then startedLane q.timebase true l else enteredHold (startedLane q.timebase false l)))
    (hf : (q.lanes.get n).job.inFlight = true) : jobRows p n = jobRows q n := by
  have key : ∀ l, p.lanes.get n = l → jobRows p n = rowsOf l := by rintro _ rfl; rfl
  rcases h with h | ⟨m, u, h⟩
  · exact key _ (by rw [h])
  · by_cases hm : n = m
    · subst hm
      rw [key _ (by rw [h, Four.get_modify_same])]
      cases u with
      | true => rfl
      | false => exact rowsOf_enteredHold (l := startedLane q.timebase false (q.lanes.get n)) hf
    · exact key _ (by rw [h, Four.get_modify_other _ _ hm])

/-- Settles O11: the first half by the law of the tables, the second by that of the lane's job; a START, which counts the
jobs from 0 anew, leaves the rows of a job in flight too. -/
theorem tablesKeepTheirCrc : Obligations.TablesKeepTheirCrc := by
  refine ⟨tablesOk_kept, fun i n s t hq he hs ht hn => ?_⟩
  have hlaw := (jobHeld_law (j := (s.part.lanes.get n).jobNumber) (rows := jobRows s.part n) n).law
  have hbegin : eachLane (fun m l => m = n → JobHeld (s.part.lanes.get n).jobNumber (jobRows s.part n) l) s.part := by
    rintro m rfl
    exact .inl ⟨le_rfl, fun _ _ => sameContents_refl _⟩
  have hend : eachLane (fun m l => m = n → JobHeld (s.part.lanes.get n).jobNumber (jobRows s.part n) l) t.part →
      sameContents (jobRows t.part n) (jobRows s.part n) := by
    intro h
    rcases h n rfl with ⟨-, hrows⟩ | ⟨-, hfl⟩
    · exact hrows ht hn
    · exact absurd ht (by simp [hfl])
  by_cases hpin : ∃ a b, i = .pinReset a b
  · obtain ⟨a, b, rfl⟩ := hpin
    cases he
    simp [resetPart, resetLane, resetJob] at ht
  by_cases h9 : codeOf i = some 9
  swap
  · exact hend (hlaw.exec_quiet (fun a b e => hpin ⟨a, b, e⟩) (fun c hc e => h9 (e ▸ hc)) hq he hbegin)
  obtain ⟨env, cmd, rfl⟩ := row_of_code h9 (by decide)
  have hx := QueueLaw.exec_rowOfCode 9 env cmd s
  by_cases htaken : isTaken 9 cmd (present 9 cmd (foundBy env s)) = true
  · have hnow := takenNow_of_isTaken hq htaken
    rw [command_taken _ hnow] at hx
    obtain ⟨hdue, hlanes⟩ := takeStart_effect cmd (partAt 9 env cmd s)
    have hquiet := settle_quiet (p := takeStart cmd (partAt 9 env cmd s)) (hdue.trans (DeviceAnswers.fatalDue_partAt hnow))
    have hpart : t.part = takeStart cmd (partAt 9 env cmd s) := by
      have hnext := hx.symm.trans he
      injection hnext with hnext
      exact (congrArg State.part hnext).symm.trans hquiet
    have hin : ((partAt 9 env cmd s).lanes.get n).job.inFlight = true := by simpa using hs
    have hat := hlaw.arrive cmd.link (commandWords (foundBy env s) 9 cmd) _ (hlaw.begin_kept env.time env.upsets hbegin) n rfl
    rw [hpart, start_rows hlanes hin]
    rcases hat with ⟨-, hrows⟩ | ⟨-, hfl⟩
    · have hnumber : ((partAt 9 env cmd s).lanes.get n).jobNumber = (s.part.lanes.get n).jobNumber := by simp
      exact hrows hin hnumber
    · exact absurd hin (by rw [Bool.not_eq_true]; exact hfl)
  · refine hend ?_
    have hnext := hx.symm.trans he
    rw [command, happens_quiet _ _ hq] at hnext
    injection hnext with hnext
    have hp := congrArg State.part hnext
    dsimp only at hp
    rw [if_neg (by exact htaken)] at hp
    rw [← hp]
    exact hlaw.settle _ (hlaw.event_keeps.present (cmd := cmd) trivial (fun ws q => hlaw.arrive _ ws q) 9
      (hlaw.begin_kept env.time env.upsets hbegin))

end Sys2Proof.Machine.JobRowsLaw
end

section
/-! SUPPORT. RELOCK (R113) and COMMIT (R161 to R163): refused, waiting, or ended in their own take. -/

namespace Sys2Proof.Machine.OperationAnswers

open Frames Keeping LaneValues TablesLaw DeviceAnswers

section Ended
variable {code : Byte} {kind : PendingKind} {cmd : Command} {q : Part} {n : Ix}

theorem set_none {α : Type} {v : Four (Option α)} (h : v.get n = none) (a : Option α) : (v.set n a).set n none = v := by
  rw [Four.set_set, ← h, Four.set_get]

/-- The DONE COMPLETE of an operation that ends in its own take, posted into the place kept for it (R170, R174). -/
theorem postDone_accepted (hneed : need code = 2) (t : OpTarget) (p : Part)
    (ho : p.outs = (acceptedAt code kind cmd t q).outs) :
    (postDone (recordOf kind code cmd q) .complete p).outs =
      withReplies q.outs cmd.link [acceptedReply cmd code q.mgmt.restart, completeReply code cmd q []] := by
  simp only [postDone, postReply, modOut_outs, ho, acceptedAt_outs hneed, recordOf, Four.modify_modify, withReplies]
  simp only [Nat.add_sub_cancel, List.append_assoc, List.singleton_append]
  rfl

theorem countTake_ended {p : Part} (hframe : { p with outs := q.outs, mgmt := q.mgmt } = q)
    (ho : p.outs = withReplies q.outs cmd.link [acceptedReply cmd code q.mgmt.restart, completeReply code cmd q []])
    (hm : p.mgmt = (openTake code cmd.link q).mgmt) : countTake false p = acceptedAndDone code cmd q := by
  have hc : countTake false p = { p with mgmt := { p.mgmt with
      ctr := { p.mgmt.ctr with commandsTaken := bump p.mgmt.ctr.commandsTaken } } } := rfl
  have hp : p = { q with outs := p.outs, mgmt := p.mgmt } := by
    rw [← hframe]
  rw [hc, hp, hm, ho]
  rfl

theorem postDone_frame (op : PendingOp) (st : DoneStatus) {p : Part} (h : { p with outs := q.outs, mgmt := q.mgmt } = q) :
    { postDone op st p with outs := q.outs, mgmt := q.mgmt } = q := h

theorem modMgmt_frame (f : Mgmt → Mgmt) {p : Part} (h : { p with outs := q.outs, mgmt := q.mgmt } = q) :
    { modMgmt f p with outs := q.outs, mgmt := q.mgmt } = q := h

/-- A lane's operation that ends in its own take: ACCEPTED, then DONE COMPLETE, and the record empty again. -/
theorem endLaneOp_accepted (hneed : need code = 2) (h : q.mgmt.laneOps.get n = none) :
    countTake false (endLaneOp n .complete (acceptedAt code kind cmd (.lane n) q)) = acceptedAndDone code cmd q := by
  have hop : (acceptedAt code kind cmd (.lane n) q).mgmt.laneOps = q.mgmt.laneOps.set n (some (recordOf kind code cmd q)) :=
    rfl
  have he : endLaneOp n .complete (acceptedAt code kind cmd (.lane n) q) =
      postDone (recordOf kind code cmd q) .complete
        (modMgmt (fun m => { m with laneOps := m.laneOps.set n none }) (acceptedAt code kind cmd (.lane n) q)) := by
    rw [endLaneOp, hop, Four.get_set_same]
  rw [he]
  refine countTake_ended (postDone_frame _ _ (modMgmt_frame _ (acceptedAt_frame _ _)))
    (postDone_accepted hneed (.lane n) _ rfl) ?_
  show ({ (acceptedAt code kind cmd (.lane n) q).mgmt with
    laneOps := (acceptedAt code kind cmd (.lane n) q).mgmt.laneOps.set n none } : Mgmt) = _
  rw [hop, set_none h]
  rfl

/-- The same of an output's operation. -/
theorem endOutOp_accepted (hneed : need code = 2) (h : q.mgmt.outOps.get n = none) :
    countTake false (endOutOp n .complete (acceptedAt code kind cmd (.output n) q)) = acceptedAndDone code cmd q := by
  have hop : (acceptedAt code kind cmd (.output n) q).mgmt.outOps = q.mgmt.outOps.set n (some (recordOf kind code cmd q)) :=
    rfl
  have he : endOutOp n .complete (acceptedAt code kind cmd (.output n) q) =
      postDone (recordOf kind code cmd q) .complete
        (modMgmt (fun m => { m with outOps := m.outOps.set n none }) (acceptedAt code kind cmd (.output n) q)) := by
    rw [endOutOp, hop, Four.get_set_same]
  rw [he]
  refine countTake_ended (postDone_frame _ _ (modMgmt_frame _ (acceptedAt_frame _ _)))
    (postDone_accepted hneed (.output n) _ rfl) ?_
  show ({ (acceptedAt code kind cmd (.output n) q).mgmt with
    outOps := (acceptedAt code kind cmd (.output n) q).mgmt.outOps.set n none } : Mgmt) = _
  rw [hop, set_none h]
  rfl

/-- An operation that waits: ACCEPTED, its record filled, one place kept for its DONE. -/
theorem countTake_waiting (hneed : need code = 2) :
    countTake false (acceptedAt code kind cmd (.lane n) q) = acceptedLane n kind code cmd q := by
  have ho := acceptedAt_outs (kind := kind) (cmd := cmd) hneed (.lane n) q
  have hc : countTake false (acceptedAt code kind cmd (.lane n) q) = { q with
      outs := (acceptedAt code kind cmd (.lane n) q).outs
      mgmt := (acceptedLane n kind code cmd q).mgmt } := rfl
  rw [hc, ho]
  rfl

theorem countTake_waiting_output (hneed : need code = 2) :
    countTake false (acceptedAt code kind cmd (.output n) q) = acceptedOutput n kind code cmd q := by
  have ho := acceptedAt_outs (kind := kind) (cmd := cmd) hneed (.output n) q
  have hc : countTake false (acceptedAt code kind cmd (.output n) q) = { q with
      outs := (acceptedAt code kind cmd (.output n) q).outs
      mgmt := (acceptedOutput n kind code cmd q).mgmt } := rfl
  rw [hc, ho]
  rfl

end Ended

/-! ### RELOCK -/

section Relock
variable {cmd : Command} {q : Part}

theorem testRelock_output {n : Ix} (h : outTarget cmd = some n) : testRelock cmd q =
    if cmd.payload ≠ [] then deny .badLength
    else if (q.outs.get n).relockPending then deny .busy
    else .ok (.output n) := by rw [testRelock, h]

theorem acceptedAt_out {β : Type} (g : OutUnit → β) (h : ∀ o rs k, g { o with replies := rs, reserved := k } = g o)
    (t : OpTarget) (m : Ix) : g ((acceptedAt 17 .relock cmd t q).outs.get m) = g (q.outs.get m) := by
  rw [acceptedAt_outs rfl, Four.get_modify]
  split
  · exact h _ _ _
  · rfl

/-- Settles O55: the tests in their order, and the three lock states. -/
theorem relockWaitsInHoldover : Obligations.RelockWaitsInHoldover := by
  intro env cmd s q h hq
  have hrefused : ∀ st, testRelock cmd (openTake 17 cmd.link q) = deny st →
      exec (.relock env cmd) s = refusedNow 17 env cmd s st := fun st hd =>
    timed_refused testRelock beginRelock h rfl (hq ▸ hd)
  refine ⟨fun hn => hrefused _ (by rw [testRelock, hn]), fun n hn => ?_⟩
  have houts : q.outs = s.part.outs := by rw [hq]; simp
  have hops : q.mgmt.outOps = s.part.mgmt.outOps := by rw [hq]; simp
  have ht := testRelock_output (q := openTake 17 cmd.link q) hn
  have hpend : ((openTake 17 cmd.link q).outs.get n).relockPending = (s.part.outs.get n).relockPending := by
    rw [openTake_eq, ← houts, Four.get_modify]
    split <;> rfl
  rw [hpend] at ht
  split
  · next h1 => exact hrefused _ (by rw [ht, if_pos h1])
  next h1 =>
  rw [if_neg h1] at ht
  split
  · next h2 => exact hrefused _ (by rw [ht, if_pos h2])
  next h2 =>
  rw [if_neg h2] at ht
  have hdue : q.fault.fatalDue = false := by
    rw [hq]
    exact fatalDue_partAt h
  have hx : exec (.relock env cmd) s = .next { s with
      part := settle (countTake false (relockOutput n (acceptedAt 17 .relock cmd (.output n) q))) } := by
    rw [hq]
    exact timed_accepted testRelock beginRelock h (hq ▸ ht)
  have hlock : ((acceptedAt 17 .relock cmd (.output n) q).outs.get n).lock = (s.part.outs.get n).lock := by
    rw [acceptedAt_out (fun o => o.lock) (fun _ _ _ => rfl), houts]
  have hnow : s.part.mgmt.outOps.get n = none →
      relockOutput n (acceptedAt 17 .relock cmd (.output n) q) =
        endOutOp n .complete (acceptedAt 17 .relock cmd (.output n) q) →
      exec (.relock env cmd) s = .next { s with part := acceptedAndDone 17 cmd q } := by
    intro hnone he
    rw [hx, he, endOutOp_accepted rfl (by rw [hops]; exact hnone)]
    exact congrArg (fun p => Host.Outcome.next { s with part := p }) (settle_quiet (p := acceptedAndDone 17 cmd q) hdue)
  split
  · next v hv =>
    have he : relockOutput n (acceptedAt 17 .relock cmd (.output n) q) =
        modOut n (fun o => { o with relockPending := true }) (acceptedAt 17 .relock cmd (.output n) q) := by
      rw [relockOutput, hlock, hv]
    have hc : countTake false (modOut n (fun o => { o with relockPending := true }) (acceptedAt 17 .relock cmd (.output n) q))
        = modOut n (fun o => { o with relockPending := true }) (countTake false (acceptedAt 17 .relock cmd (.output n) q)) :=
      rfl
    rw [hx, he, hc, countTake_waiting_output rfl]
    exact congrArg (fun p => Host.Outcome.next { s with part := p })
      (settle_quiet (p := modOut n (fun o => { o with relockPending := true }) (acceptedOutput n .relock 17 cmd q)) hdue)
  · next hv => exact fun hnone => hnow hnone (by rw [relockOutput, hlock, hv])
  · next v hv => exact fun hnone => hnow hnone (by rw [relockOutput, hlock, hv])

end Relock

/-! ### COMMIT: the payload and the checks -/

section Checks
variable {t : Table} {crc : BitVec 16} {shadow : List TRow}

/-- A row passes exactly where it has its parity and is valid for its table (R161). -/
theorem rowFailure_none {r : TRow} : rowFailure t r = none ↔ r.parityOk = true ∧ rowValid t r := by
  unfold rowFailure rowValid
  split_ifs with h1 h2 h3
  · simp_all
  · simp_all
  · simp_all
  · simp_all

theorem firstFailure_none_iff {rows : List TRow} (i : Nat) :
    firstFailure t i rows = none ↔ ∀ r ∈ rows, r.parityOk = true ∧ rowValid t r := by
  refine ⟨firstFailure_none, fun h => ?_⟩
  induction rows generalizing i with
  | nil => rfl
  | cons r rs ih =>
    rw [firstFailure, rowFailure_none.2 (h r (List.mem_cons_self ..))]
    exact ih (i + 1) (fun x hx => h x (List.mem_cons_of_mem _ hx))

/-- The first failing row is found with its number and its reason (R161). -/
theorem firstFailure_at {rows : List TRow} {i : Nat} {r : TRow} {reason : Nat} (k : Nat) (hr : rows[i]? = some r)
    (hbefore : ∀ j < i, ∀ x, rows[j]? = some x → x.parityOk = true ∧ rowValid t x) (hf : rowFailure t r = some reason) :
    firstFailure t k rows = some (k + i, reason) := by
  induction rows generalizing i k with
  | nil => cases hr
  | cons a rest ih =>
    cases i with
    | zero =>
      obtain rfl : a = r := by simpa using hr
      rw [firstFailure, hf]
      rfl
    | succ i =>
      rw [firstFailure, rowFailure_none.2 (hbefore 0 (by omega) a rfl)]
      have := ih (i := i) (k + 1) hr (fun j hj x hx => hbefore (j + 1) (by omega) x hx)
      rw [this, Nat.add_assoc, Nat.add_comm 1 i]

theorem checkTable_passes : checkTable t (some crc) shadow = none ↔
    (∀ r ∈ shadow, r.parityOk = true ∧ rowValid t r) ∧ rowsCrc shadow = crc := by
  rw [← firstFailure_none_iff 0, checkTable]
  split <;> rename_i h
  · simp [h]
  · simp [h]

theorem checkTable_crc (hrows : ∀ r ∈ shadow, r.parityOk = true ∧ rowValid t r) (hcrc : rowsCrc shadow ≠ crc) :
    checkTable t (some crc) shadow = some ⟨.crcMismatch, [word (tableNumber t), 0, 0,
      BitVec.ofNat 8 ((rowsCrc shadow).toNat / 256), BitVec.ofNat 8 ((rowsCrc shadow).toNat % 256)]⟩ := by
  have hwords (v : Nat) : beWords 2 v = [BitVec.ofNat 8 (v / 256), BitVec.ofNat 8 (v % 256)] := by
    simp [beWords, CounterAnswers.ofNat_mod]
  rw [checkTable]
  simp only [(firstFailure_none_iff 0).2 hrows, if_neg hcrc, hwords]
  rfl

theorem rowFailure_reason {r : TRow} (h : ¬(r.parityOk = true ∧ rowValid t r)) : rowFailure t r = some
    (if r.parityOk = false then 3
     else if ∀ v ∈ rowCoefs r, (coefRange t).1 ≤ v ∧ v ≤ (coefRange t).2 then 2 else 1) := by
  have hr : coefsInRange t r = true ↔ ∀ v ∈ rowCoefs r, (coefRange t).1 ≤ v ∧ v ≤ (coefRange t).2 := by
    simp [coefsInRange]
  simp only [← hr]
  cases hp : r.parityOk with
  | false => simp [rowFailure, hp]
  | true =>
    cases hin : coefsInRange t r with
    | false => simp [rowFailure, hp, hin]
    | true =>
      have hsum : (rowCoefs r).sum ≠ rowSum t := fun e => h ⟨hp, hin, e⟩
      simp [rowFailure, hp, hin, hsum]

end Checks

section Payload

theorem parseCommit_cons (m : Byte) (rest : List Byte) : parseCommit (m :: rest) =
    if m.toNat < 1 ∨ 7 < m.toNat then deny .badValue
    else if rest.length ≠ 2 * namedTables m.toNat then deny .badLength
    else .ok (commitRecOf m.toNat (m :: rest)) := rfl

theorem checkTables_orElse (c : CommitRec) (ts : Tables) : checkTables c ts =
    (checkTable .tt c.tt ts.tt.shadow <|> checkTable .hc c.hc ts.hc.shadow <|> checkTable .vc c.vc ts.vc.shadow) := by
  unfold checkTables
  cases checkTable .tt c.tt ts.tt.shadow with
  | some d => rfl
  | none => cases checkTable .hc c.hc ts.hc.shadow <;> rfl

/-- What a swap leaves of one table (R163). -/
theorem swapTable_cases (crc : Option (BitVec 16)) (b : TableBanks) :
    (crc = none → swapTable crc b = b)
      ∧ ∀ c, crc = some c → (swapTable crc b).crc = c
        ∧ (swapTable crc b).active = b.shadow.map (fun r => { r with parityOk := true })
        ∧ (swapTable crc b).shadow = (swapTable crc b).active := by
  cases crc with
  | none => exact ⟨fun _ => rfl, nofun⟩
  | some c =>
    refine ⟨nofun, ?_⟩
    rintro _ ⟨⟩
    exact ⟨rfl, rfl, rfl⟩

end Payload

/-! ### COMMIT: its take -/

section Commit
variable {cmd : Command} {q : Part} {n : Ix} {c : CommitRec}

theorem modLane_endLaneOp (m : Ix) (f : Lane → Lane) (st : DoneStatus) (p : Part) :
    endLaneOp n st (modLane m f p) = modLane m f (endLaneOp n st p) := by
  unfold endLaneOp
  simp only [modLane_mgmt]
  split <;> rfl

theorem modLane_countTake (m : Ix) (f : Lane → Lane) (b : Bool) (p : Part) :
    countTake b (modLane m f p) = modLane m f (countTake b p) := rfl

/-- A COMMIT that is not held for a job start swaps the tables and ends in its own take (R161, R163). -/
theorem acceptCommit_now {p : Part} (h : runsJobs (p.lanes.get n).state = false) :
    acceptCommit n c p = modLane n (fun l => { l with
      commit := none, tables := swapTables c l.tables, job := keepRows l }) (endLaneOp n .complete p) := by
  have hc : ((modLane n (fun l => { l with commit := some c }) p).lanes.get n).commit = some c := by simp
  unfold acceptCommit
  rw [h]
  simp only [Bool.false_eq_true, if_false, commitSwap, hc]
  rw [← modLane_endLaneOp]
  simp only [modLane, Four.modify_modify]
  rfl

theorem acceptCommit_waits {p : Part} (h : runsJobs (p.lanes.get n).state = true) :
    acceptCommit n c p = modLane n (fun l => { l with commit := some c }) p := by
  unfold acceptCommit
  rw [if_pos h]

theorem testCommit_lane (h : laneTarget cmd = some n) (hc : parseCommit cmd.payload = .ok c) : testCommit cmd q =
    if (q.mgmt.laneOps.get n).isSome then deny .busy
    else match checkTables c (q.lanes.get n).tables with
      | some d => .error d
      | none => .ok (.lane n) := by
  rw [testCommit, h]
  simp only [hc] <;> rfl

end Commit

theorem keepRows_eq (l : Lane) : keepRows l = if l.job.inFlight = true ∧ l.job.kept = none then
    { l.job with kept := some ⟨l.tables.tt.active, l.tables.hc.active, l.tables.vc.active⟩ } else l.job := by
  unfold keepRows
  refine if_congr ?_ rfl rfl
  rw [Bool.and_eq_true, Option.isNone_iff_eq_none]

/-- The tests of a COMMIT in their order, and its answer (R161, R163, R170, R174). -/
theorem commit_answers (env : Env) (cmd : Command) (s : State) (q : Part) (h : takenNow 15 env cmd s)
    (hq : q = partAt 15 env cmd s) :
    (laneTarget cmd = none → exec (.commit env cmd) s = refusedNow 15 env cmd s .badTarget)
        ∧ (∀ n d, laneTarget cmd = some n → parseCommit cmd.payload = .error d →
          exec (.commit env cmd) s = refusedWith 15 env cmd s d.status d.payload)
        ∧ (∀ n c, laneTarget cmd = some n → parseCommit cmd.payload = .ok c →
          if (s.part.mgmt.laneOps.get n).isSome = true then
            exec (.commit env cmd) s = refusedNow 15 env cmd s .busy
          else match checkTables c (q.lanes.get n).tables with
            | some d => exec (.commit env cmd) s = refusedWith 15 env cmd s d.status d.payload
            | none =>
              if runsJobs (s.part.lanes.get n).state then
                exec (.commit env cmd) s = .next { s with
                  part := { acceptedLane n .commit 15 cmd q with
                    lanes := q.lanes.modify n (fun l => { l with commit := some c }) } }
              else
                exec (.commit env cmd) s = .next { s with
                  part := { acceptedAndDone 15 cmd q with
                    lanes := q.lanes.modify n (fun l =>
                      { l with
                        commit := none, tables := swapTables c l.tables
                        job := if l.job.inFlight = true ∧ l.job.kept = none then
                          { l.job with kept := some ⟨l.tables.tt.active, l.tables.hc.active, l.tables.vc.active⟩ }
                          else l.job }) } }) := by
  have hrefused : ∀ d, testCommit cmd (openTake 15 cmd.link q) = .error d →
      exec (.commit env cmd) s = refusedWith 15 env cmd s d.status d.payload := fun d hd =>
    timed_refused testCommit beginCommit h rfl (hq ▸ hd)
  refine ⟨fun hn => hrefused ⟨.badTarget, []⟩ (by rw [testCommit, hn]; rfl),
    fun n d hn hd => hrefused d (by simp [testCommit, hn, hd]), fun n c hn hc => ?_⟩
  have ht := testCommit_lane (q := openTake 15 cmd.link q) hn hc
  have hops : (openTake 15 cmd.link q).mgmt.laneOps = s.part.mgmt.laneOps := by
    rw [hq, ← laneOps_partAt (code := 15) (env := env) (cmd := cmd)]
    rfl
  have htables : ((openTake 15 cmd.link q).lanes.get n).tables = (q.lanes.get n).tables := rfl
  have hstate : (q.lanes.get n).state = (s.part.lanes.get n).state := by rw [hq]; simp
  rw [hops, htables] at ht
  split
  · next h1 => exact hrefused ⟨.busy, []⟩ (by rw [ht, if_pos h1]; rfl)
  next h1 =>
  rw [if_neg h1] at ht
  split
  · next d hd => exact hrefused d (by rw [ht, hd])
  next hd =>
  rw [hd] at ht
  have hbegin (p : Part) : beginCommit cmd (.lane n) p = acceptCommit n c p := by simp [beginCommit, hc]
  have hx : exec (.commit env cmd) s = .next { s with
      part := settle (countTake false (acceptCommit n c (acceptedAt 15 .commit cmd (.lane n) q))) } := by
    rw [hq, ← hbegin]
    exact timed_accepted testCommit beginCommit h (hq ▸ ht)
  have hdue : q.fault.fatalDue = false := by
    rw [hq]
    exact fatalDue_partAt h
  have hruns : runsJobs ((acceptedAt 15 .commit cmd (.lane n) q).lanes.get n).state = runsJobs (s.part.lanes.get n).state :=
    congrArg runsJobs hstate
  split
  · next hr =>
    rw [hx, acceptCommit_waits (hruns.trans hr), modLane_countTake, countTake_waiting rfl]
    exact congrArg (fun p => Host.Outcome.next { s with part := p }) (settle_quiet
      (p := modLane n (fun l => { l with commit := some c }) (acceptedLane n .commit 15 cmd q)) hdue)
  · next hr =>
    have hnone : q.mgmt.laneOps.get n = none := by
      rw [hq, laneOps_partAt]
      simpa using h1
    rw [hx, acceptCommit_now (hruns.trans (Bool.eq_false_iff.2 hr)), modLane_countTake, endLaneOp_accepted rfl hnone]
    refine (congrArg (fun p => Host.Outcome.next { s with part := p }) (settle_quiet
      (p := modLane n _ (acceptedAndDone 15 cmd q)) hdue)).trans ?_
    simp only [keepRows_eq]
    rfl

theorem parseCommit_answers (ws : List Byte) :
    (ws = [] → parseCommit ws = .error ⟨.badLength, []⟩)
      ∧ (∀ m rest, ws = m :: rest → (m.toNat = 0 ∨ 7 < m.toNat) → parseCommit ws = .error ⟨.badValue, []⟩)
      ∧ (∀ m rest, ws = m :: rest → 1 ≤ m.toNat → m.toNat ≤ 7 →
        rest.length ≠ 2 * (m.toNat % 2 + m.toNat / 2 % 2 + m.toNat / 4 % 2) →
        parseCommit ws = .error ⟨.badLength, []⟩)
      ∧ (∀ m rest, ws = m :: rest → 1 ≤ m.toNat → m.toNat ≤ 7 →
        rest.length = 2 * (m.toNat % 2 + m.toNat / 2 % 2 + m.toNat / 4 % 2) →
        ∃ c : CommitRec, parseCommit ws = .ok c
          ∧ c.tt = (if m.toNat % 2 = 1 then some (rest.getD 0 0 ++ rest.getD 1 0) else none)
          ∧ c.hc = (if m.toNat / 2 % 2 = 1 then
              some (rest.getD (2 * (m.toNat % 2)) 0 ++ rest.getD (2 * (m.toNat % 2) + 1) 0) else none)
          ∧ c.vc = (if m.toNat / 4 % 2 = 1 then
              some (rest.getD (2 * (m.toNat % 2 + m.toNat / 2 % 2)) 0
                ++ rest.getD (2 * (m.toNat % 2 + m.toNat / 2 % 2) + 1) 0) else none)) := by
  refine ⟨?_, ?_, ?_, ?_⟩
  · rintro rfl
    rfl
  · rintro m rest rfl hm
    rw [parseCommit_cons, if_pos (by omega)]
    rfl
  · rintro m rest rfl h1 h7 hlen
    rw [parseCommit_cons, if_neg (by omega)]
    exact if_pos hlen
  · rintro m rest rfl h1 h7 hlen
    have hcrc (i : Nat) : crcAt (m :: rest) i = rest.getD (2 * i) 0 ++ rest.getD (2 * i + 1) 0 := by
      have e1 : 1 + 2 * i = 2 * i + 1 := by omega
      have e2 : 2 + 2 * i = (2 * i + 1) + 1 := by omega
      rw [crcAt, e1, e2]
      rfl
    refine ⟨commitRecOf m.toNat (m :: rest), ?_, ?_⟩
    · rw [parseCommit_cons, if_neg (by omega), if_neg (fun hne => hne hlen)]
    · simp only [commitRecOf, hcrc, true_and]

/-- A swap leaves the rows that a job in flight reads (R77, R163). -/
theorem lineCtx_commitSwap {p : Part} {n : Ix} (y : Nat) (h : (p.lanes.get n).job.inFlight = true) :
    (lineCtx (commitSwap n p) n y).tt = (lineCtx p n y).tt
      ∧ (lineCtx (commitSwap n p) n y).hc = (lineCtx p n y).hc
      ∧ (lineCtx (commitSwap n p) n y).vc = (lineCtx p n y).vc := by
  have hrows : JobRowsLaw.rowsOf ((commitSwap n p).lanes.get n) = JobRowsLaw.rowsOf (p.lanes.get n) := by
    rw [commitSwap_lanes, Four.get_modify_same]
    exact JobRowsLaw.rowsOf_swapped h
  exact ⟨congrArg ActiveRows.tt hrows, congrArg ActiveRows.hc hrows, congrArg ActiveRows.vc hrows⟩

/-- The refusal of a table names its first bad row and the reason (R161, Table 45). -/
theorem checkTable_row {t : Table} {shadow : List TRow} (crc : BitVec 16) {i : Nat} {r : TRow} (hr : shadow[i]? = some r)
    (hb : ∀ j < i, ∀ x, shadow[j]? = some x → x.parityOk = true ∧ rowValid t x) (hf : ¬(r.parityOk = true ∧ rowValid t r)) :
    checkTable t (some crc) shadow = some ⟨.tableInvalid, [word (tableNumber t), BitVec.ofNat 8 i,
      if r.parityOk = false then 3
      else if ∀ v ∈ rowCoefs r, (coefRange t).1 ≤ v ∧ v ≤ (coefRange t).2 then 2 else 1, 0, 0]⟩ := by
  have hfirst := firstFailure_at (t := t) 0 hr hb (rowFailure_reason hf)
  rw [Nat.zero_add] at hfirst
  rw [checkTable]
  simp only [hfirst, apply_ite word]
  rfl

/-- Settles O54. -/
theorem commitChecksAndSwaps : Obligations.CommitChecksAndSwaps := by
  refine ⟨commit_answers, parseCommit_answers, checkTables_orElse, fun t shadow crc number hn => ?_,
    fun p n y => lineCtx_commitSwap y, fun c ts t => ?_⟩
  · refine ⟨rfl, checkTable_passes, fun hrows hcrc => ?_, fun i r hr hb hf => ?_⟩
    · rw [checkTable_crc hrows hcrc, hn]
      cases t <;> rfl
    · rw [checkTable_row crc hr hb hf, hn]
      cases t <;> rfl
  · cases t <;> exact swapTable_cases _ _

end Sys2Proof.Machine.OperationAnswers
end

section
/-! SUPPORT. What the operations of the picture store make of each slot record and of the free list (R44 to R57), and a
flush of a feed's history (R37, R51). -/

namespace Sys2Proof.Machine.StoreValues

open Frames Keeping SlotsLaw HistoryLaw

section Slots
variable (n : Ix) (j k : SlotIx) (p : Part)

/-- A slot that feed `n` may return: its record passes, it is the feed's, and FILLING or HISTORY (R51). -/
def canReturn (r : SlotRec) : Bool := r.intact && decide (r.owner = some n) && (r.state == .filling || r.state == .history)

/-- A record without pins that moves on (R51, R53). -/
def released (r : SlotRec) : SlotRec :=
  { r with state := if r.poisoned then .quarantined else .free, owner := none, intact := true }

/-- A record that its feed returns (R50, R51). -/
def returned (r : SlotRec) : SlotRec := if 0 < r.pins then { r with state := .retiring, intact := true } else released r

@[simp] theorem integrityError_store : (integrityError k p).store = p.store := by
  simp [integrityError]

theorem slotOf_congr {q : Part} (h : q.store = p.store) : slotOf q j = slotOf p j := by rw [slotOf, slotOf, h]

theorem slotOf_releaseSlot : slotOf (releaseSlot k p) j = if j = k then released (slotOf p k) else slotOf p j := by
  unfold releaseSlot
  split <;> rename_i h
  · rw [slotOf_set (p := p) (by rw [slotToQuarantine_store]), released, if_pos h]
  · rw [slotOf_set (p := p) (by rw [slotToFree_store]), released, if_neg h]

theorem slotOf_returnSlot : slotOf (returnSlot n k p) j =
    if j = k ∧ canReturn n (slotOf p k) = true then returned (slotOf p k) else slotOf p j := by
  unfold returnSlot
  dsimp only
  by_cases h : canReturn n (slotOf p k) = true
  · rw [if_pos (by exact h)]
    by_cases hp : 0 < (slotOf p k).pins
    · rw [if_pos hp, slotOf_modSlot, returned, if_pos hp]
      simp [h]
    · rw [if_neg hp, slotOf_releaseSlot, returned, if_neg hp]
      simp [h]
  · rw [if_neg (by exact h), if_neg (fun e => h e.2)]
    exact slotOf_congr j p (integrityError_store k p)

theorem releaseSlot_freeList : (releaseSlot k p).store.freeList =
    p.store.freeList ++ (if (slotOf p k).poisoned then [] else [k]) := by
  unfold releaseSlot
  split
  · rw [slotToQuarantine_store]
    simp
  · rw [slotToFree_store]

theorem returnSlot_freeList : (returnSlot n k p).store.freeList = p.store.freeList ++
    (if canReturn n (slotOf p k) = true ∧ (slotOf p k).pins = 0 ∧ (slotOf p k).poisoned = false then [k] else []) := by
  unfold returnSlot
  dsimp only
  by_cases h : canReturn n (slotOf p k) = true
  · rw [if_pos (by exact h)]
    by_cases hp : 0 < (slotOf p k).pins
    · rw [if_pos hp, if_neg (by omega)]
      simp
    · rw [if_neg hp, releaseSlot_freeList]
      have h0 : (slotOf p k).pins = 0 := by omega
      cases hpo : (slotOf p k).poisoned <;> simp [h, h0]
  · rw [if_neg (by exact h), if_neg (fun e => h e.1)]
    simp

/-- A returned slot is not returned again. -/
theorem canReturn_returned (r : SlotRec) : canReturn n (returned r) = false := by
  unfold returned released canReturn
  split
  · simp
  · cases r.poisoned <;> simp

end Slots

/-! ### A flush -/

section Flush
variable {n : Ix} {k : SlotIx} {p : Part}

theorem slotOf_returnEntry (e : Entry) : slotOf (returnEntry n e p) k =
    if entrySlot e = some k ∧ canReturn n (slotOf p k) = true then returned (slotOf p k) else slotOf p k := by
  unfold returnEntry
  split
  · next k' hk =>
    rw [slotOf_returnSlot, hk]
    by_cases hkk : k = k'
    · subst hkk
      simp
    · rw [if_neg (fun h => hkk h.1), if_neg (fun h => hkk (Option.some.inj h.1).symm)]
  · next hk => rw [if_neg (by simp [hk])]

theorem returnEntry_freeList_mono (e : Entry) (j : SlotIx) (h : j ∈ p.store.freeList) :
    j ∈ (returnEntry n e p).store.freeList := by
  unfold returnEntry
  split
  · rw [returnSlot_freeList]
    exact List.mem_append_left _ h
  · exact h

theorem returnAll_freeList_mono (es : List Entry) (j : SlotIx) {p : Part} (h : j ∈ p.store.freeList) :
    j ∈ (forAll es (returnEntry n) p).store.freeList := by
  induction es generalizing p with
  | nil => exact h
  | cons e es ih => exact ih (returnEntry_freeList_mono e j h)

theorem returnAll_stands (es : List Entry) {p : Part} (h : canReturn n (slotOf p k) = false) :
    slotOf (forAll es (returnEntry n) p) k = slotOf p k := by
  induction es generalizing p with
  | nil => rfl
  | cons e es ih =>
    have hstep : slotOf (returnEntry n e p) k = slotOf p k := by rw [slotOf_returnEntry, if_neg (by simp [h])]
    exact (ih (by rw [hstep]; exact h)).trans hstep

/-- The slot of an entry that is returned moves on once (R51). -/
theorem returnAll_slot (es : List Entry) {e : Entry} {p : Part} (he : e ∈ es) (hk : entrySlot e = some k)
    (h : canReturn n (slotOf p k) = true) :
    slotOf (forAll es (returnEntry n) p) k = returned (slotOf p k)
      ∧ ((slotOf p k).pins = 0 → (slotOf p k).poisoned = false → k ∈ (forAll es (returnEntry n) p).store.freeList) := by
  induction es generalizing p with
  | nil => cases he
  | cons a es ih =>
    show slotOf (forAll es (returnEntry n) (returnEntry n a p)) k = _ ∧ (_ → _ → k ∈ (forAll es (returnEntry n) (returnEntry n a p)).store.freeList)
    by_cases ha : entrySlot a = some k
    · have hstep : slotOf (returnEntry n a p) k = returned (slotOf p k) := by rw [slotOf_returnEntry, if_pos ⟨ha, h⟩]
      refine ⟨(returnAll_stands es (by rw [hstep]; exact canReturn_returned n _)).trans hstep, fun h0 hp => ?_⟩
      refine returnAll_freeList_mono es k ?_
      rw [returnEntry, ha]
      simp only [returnSlot_freeList, h, h0, hp]
      simp
    · have hstep : slotOf (returnEntry n a p) k = slotOf p k := by rw [slotOf_returnEntry, if_neg (fun e => ha e.1)]
      have hmem : e ∈ es := by
        rcases List.mem_cons.1 he with rfl | hm
        · exact absurd hk ha
        · exact hm
      obtain ⟨h1, h2⟩ := ih (p := returnEntry n a p) hmem (by rw [hstep]; exact h)
      rw [hstep] at h1 h2
      exact ⟨h1, h2⟩

theorem flushFeed_store (n : Ix) (p : Part) :
    (flushFeed n p).store = (forAll (p.feeds.get n).history (returnEntry n)
      (modFeed n (fun f => { f with history := [] }) p)).store := rfl

theorem returnSlot_mem (n : Ix) (k : SlotIx) (p : Part) : (returnSlot n k p).store.mem = p.store.mem := by
  unfold returnSlot releaseSlot
  dsimp only
  split
  · split
    · rfl
    · split
      · rw [slotToQuarantine_store]
      · rfl
  · simp

theorem flushFeed_mem (n : Ix) (p : Part) : (flushFeed n p).store.mem = p.store.mem := by
  rw [flushFeed_store]
  refine forAll_keeps (fun p => p.store.mem) _ (fun e q => ?_) _ _
  unfold returnEntry
  split
  · exact returnSlot_mem n _ q
  · rfl

end Flush

/-! ### A flush beside an open take -/

section Opened
variable (code : Byte) (l : Ix)

/-- An operation that does the same beside the opening of a take. -/
def Beside (f : Part → Part) : Prop := ∀ p, f (openTake code l p) = openTake code l (f p)

variable {code l}

theorem beside_forAll {α : Type} {f : α → Part → Part} (h : ∀ x, Beside code l (f x)) (xs : List α) :
    Beside code l (forAll xs f) := by
  induction xs with
  | nil => exact fun _ => rfl
  | cons x xs ih => exact fun p => (congrArg (forAll xs f) (h x p)).trans (ih (f x p))

theorem beside_comp {f g : Part → Part} (hf : Beside code l f) (hg : Beside code l g) : Beside code l (fun p => g (f p)) :=
  fun p => (congrArg g (hf p)).trans (hg (f p))

theorem beside_modFault (f : FaultUnit → FaultUnit) : Beside code l (modFault f) := fun _ => rfl

theorem beside_notice (c : Cond) (m : Ix) : Beside code l (addNotice c m) := by
  intro p
  have hn : ((openTake code l p).outs.get m).notices = (p.outs.get m).notices := by
    rw [openTake_eq, Four.get_modify]
    split <;> rfl
  unfold addNotice
  rw [hn]
  have hm : modOut m (fun o => { o with notices := o.notices ++ [c] }) (openTake code l p) =
      openTake code l (modOut m (fun o => { o with notices := o.notices ++ [c] }) p) := by
    simp only [openTake_eq, modOut]
    congr 1
    ext i
    simp only [Four.get_modify]
    split_ifs <;> rfl
  rw [hm]
  exact (apply_ite (openTake code l) _ _ _).symm

theorem beside_latchSet (c : Cond) : Beside code l (latchSet c) := by
  intro p
  unfold latchSet
  rw [show (openTake code l p).fault = p.fault from rfl]
  split
  · rfl
  · rw [addNotices_eq, addNotices_eq]
    exact beside_comp (beside_comp (beside_modFault _) (beside_forAll (beside_notice c) allIx)) (beside_modFault _) p

theorem beside_integrityError (k : SlotIx) : Beside code l (integrityError k) :=
  fun _ => rfl

/-- A slot set QUARANTINED and counted, before the count is looked at (R56). -/
def quarantineSet (k : SlotIx) (p : Part) : Part :=
  bumpStore (fun c => { c with quarantineEntries := bump c.quarantineEntries })
    (modStore (fun st => { st with quarantine := st.quarantine + 1 })
      (modSlot k (fun r => { r with state := .quarantined, owner := none }) p))

theorem slotToQuarantine_eq (k : SlotIx) (p : Part) : slotToQuarantine k p =
    if p.store.quarantine + 1 = 16 then poolDegrade (quarantineSet k p) else quarantineSet k p := rfl

theorem beside_quarantineSet (k : SlotIx) : Beside code l (quarantineSet k) := fun _ => rfl

theorem beside_poolDegrade : Beside code l poolDegrade := fun p =>
  congrArg (report .dl .poolDegraded (.count p.store.quarantine)) (beside_latchSet .poolDegraded p)

theorem beside_slotToQuarantine (k : SlotIx) : Beside code l (slotToQuarantine k) := by
  intro p
  rw [slotToQuarantine_eq, slotToQuarantine_eq, beside_quarantineSet, show (openTake code l p).store = p.store from rfl]
  split
  · exact beside_poolDegrade _
  · rfl

theorem beside_returnEntry (n : Ix) (e : Entry) : Beside code l (returnEntry n e) := by
  intro p
  have hs (k : SlotIx) : slotOf (openTake code l p) k = slotOf p k := rfl
  unfold returnEntry
  split
  · next k _ =>
    unfold returnSlot releaseSlot
    dsimp only
    rw [hs k]
    split
    · split
      · rfl
      · split
        · exact beside_slotToQuarantine k p
        · rfl
    · exact beside_integrityError k p
  · rfl

/-- A flush does the same beside the opening of a take (R37). -/
theorem beside_flushFeed (n : Ix) : Beside code l (flushFeed n) := by
  intro p
  have h := beside_forAll (code := code) (l := l) (beside_returnEntry n) (p.feeds.get n).history
    (modFeed n (fun f => { f with history := [] }) p)
  exact congrArg (fun q => bumpFeed n (fun c => { c with flushes := bump c.flushes }) (modFeed n (fun f =>
    { f with lastStamp := none, dPrev := 0, segment := (f.segment + 1) % 65536 }) q)) h

end Opened

/-! ### FEED RESET -/

/-- A command answered over what its rule made of the part beside the opened take (R170, R171). -/
theorem answered_beside {code : Byte} {n : Ix} {r : Reply} {q : Part} (hneed : need code = 1) :
    countTake false (postReply n r (openTake code n q)) = answered n r false q := by
  rw [answered_done (q := q) hneed rfl rfl, DeviceAnswers.openTake_settled]

/-- What a flush makes of the slot of an entry (R51). -/
theorem flushFeed_slot {n : Ix} {p : Part} {e : Entry} {k : SlotIx} (he : e ∈ (p.feeds.get n).history)
    (hk : entrySlot e = some k) (h : canReturn n (slotOf p k) = true) :
    slotOf (flushFeed n p) k = returned (slotOf p k)
      ∧ ((slotOf p k).pins = 0 → (slotOf p k).poisoned = false → k ∈ (flushFeed n p).store.freeList) :=
  returnAll_slot (p := modFeed n (fun f => { f with history := [] }) p) _ he hk h

/-- Settles O46: the tests, the flush beside the opened take, and what a flush leaves. -/
theorem feedResetFlushes : Obligations.FeedResetFlushes := by
  refine ⟨fun env cmd s h => ⟨fun hn => ?_, fun n hn hp => ?_, fun n hn hp => ?_⟩, fun n p => ?_⟩
  · exact immediate_refused ruleFeedReset h rfl (by simp only [ruleFeedReset, hn]; rfl)
  · exact immediate_refused ruleFeedReset h rfl (by simp only [ruleFeedReset, hn, ne_eq, hp, not_false_eq_true, if_true]; rfl)
  · have hx : exec (.feedReset env cmd) s = .next { s with
        part := settle (takeImmediate 6 cmd (ruleFeedReset cmd) (partAt 6 env cmd s)) } := immediate_taken ruleFeedReset h
    refine ⟨_, hx, ?_⟩
    generalize partAt 6 env cmd s = q
    have hr : ruleFeedReset cmd (openTake 6 cmd.link q) = .ok (openTake 6 cmd.link (flushFeed n q), []) := by
      simp only [ruleFeedReset, hn, hp, ne_eq, not_true_eq_false, if_false]
      rw [beside_flushFeed n q]
    show settle (answerNow 6 cmd q.mgmt.restart (ruleFeedReset cmd) (openTake 6 cmd.link q)) = _
    rw [answerNow, hr]
    exact congrArg settle (answered_beside rfl)
  · refine ⟨flushFeed_feeds n p, fun e k he hk hi ho hs => ?_, by simp, by simp, by simp, flushFeed_mem n p, by simp⟩
    have hc : canReturn n (slotOf p k) = true := by
      rcases hs with hs | hs <;> simp [canReturn, hi, ho, hs]
    obtain ⟨hslot, hfree⟩ := flushFeed_slot he hk hc
    rw [hslot]
    refine ⟨fun h => ?_, fun h0 hpo => ?_, fun h0 hpo => ⟨?_, hfree h0 hpo⟩⟩
    · rw [returned, if_pos h]
      exact ⟨rfl, ho⟩
    · rw [returned, if_neg (by omega), released, if_pos hpo]
    · rw [returned, if_neg (by omega), released, hpo]
      rfl

end Sys2Proof.Machine.StoreValues
end

section
/-! SUPPORT. RELEASE QUARANTINE (R56, R57): every QUARANTINED slot freed, in ascending slot number. -/

namespace Sys2Proof.Machine.StoreValues

open Frames Keeping SlotsLaw DeviceAnswers

section Release

/-- A record released from quarantine (R57). -/
def unquarantined (r : SlotRec) : SlotRec := { r with state := .free, owner := none, poisoned := false, corrected := 0 }

/-- What the release of one slot makes of the store (R57). -/
theorem releaseQuarantined_part {k : SlotIx} {p : Part} (hq : (slotOf p k).state = .quarantined)
    (hi : (slotOf p k).intact = true) : releaseQuarantined k p = { p with store := { p.store with
      slots := p.store.slots.set k.val (unquarantined (slotOf p k))
      freeList := p.store.freeList ++ [k]
      quarantine := p.store.quarantine - 1
      ctr := { p.store.ctr with quarantineReleases := bump p.store.ctr.quarantineReleases } } } := by
  have hslot : (p.store.slots.set k.val { slotOf p k with poisoned := false, corrected := 0, intact := true }).set k.val
      { (p.store.slots.set k.val { slotOf p k with poisoned := false, corrected := 0, intact := true })[k.val] with
        state := .free, owner := none, intact := true } = p.store.slots.set k.val (unquarantined (slotOf p k)) := by
    rw [Vector.set_set]
    congr 1
    simp [unquarantined, hi]
  unfold releaseQuarantined
  rw [if_pos hq, if_pos hi, ← hslot]
  rfl

theorem releaseQuarantined_other {k : SlotIx} {p : Part} (hq : (slotOf p k).state ≠ .quarantined) :
    releaseQuarantined k p = p := if_neg hq

/-- What the release of a list of slots makes of the store, and that it touches no other block (R57). -/
structure Released (xs : List SlotIx) (p q : Part) : Prop where
  slots : ∀ j, slotOf q j = if j ∈ xs ∧ (slotOf p j).state = .quarantined then unquarantined (slotOf p j) else slotOf p j
  freeList : q.store.freeList = p.store.freeList ++ xs.filter (fun k => (slotOf p k).state == .quarantined)
  quarantine : q.store.quarantine = p.store.quarantine - xs.countP (fun k => (slotOf p k).state == .quarantined)
  releases : q.store.ctr.quarantineReleases =
    bump^[xs.countP (fun k => (slotOf p k).state == .quarantined)] p.store.ctr.quarantineReleases
  mem : q.store.mem = p.store.mem
  ecc : q.store.ecc = p.store.ecc
  blocks : { q with store := p.store } = p

section Blocks
variable {xs : List SlotIx} {p q : Part}

theorem Released.outs (h : Released xs p q) : q.outs = p.outs := by have e := congrArg Part.outs h.blocks; exact e
theorem Released.mgmt (h : Released xs p q) : q.mgmt = p.mgmt := by have e := congrArg Part.mgmt h.blocks; exact e
theorem Released.fatalDue (h : Released xs p q) : q.fault.fatalDue = p.fault.fatalDue := by
  have e := congrArg (fun r : Part => r.fault.fatalDue) h.blocks; exact e

end Blocks

theorem released_all {xs : List SlotIx} (hnd : xs.Nodup) {p : Part}
    (hi : ∀ k ∈ xs, (slotOf p k).state = .quarantined → (slotOf p k).intact = true) :
    Released xs p (forAll xs releaseQuarantined p) := by
  induction xs generalizing p with
  | nil => exact ⟨fun j => by simp [forAll], by simp [forAll], by simp [forAll], by simp [forAll], rfl, rfl, rfl⟩
  | cons k xs ih =>
    obtain ⟨hk, hnd⟩ := List.nodup_cons.1 hnd
    by_cases hq : (slotOf p k).state = .quarantined
    swap
    · obtain ⟨h1, h2, h3, h4, h5, h6, h7⟩ := ih (p := p) hnd (fun j hj => hi j (List.mem_cons_of_mem _ hj))
      have e : forAll (k :: xs) releaseQuarantined p = forAll xs releaseQuarantined p := by
        show forAll xs releaseQuarantined (releaseQuarantined k p) = _
        rw [releaseQuarantined_other hq]
      rw [e]
      refine ⟨fun j => ?_, ?_, ?_, ?_, h5, h6, h7⟩
      · rw [h1]
        by_cases hj : j = k
        · subst hj
          simp [hq, hk]
        · simp [hj]
      · rw [h2, List.filter_cons_of_neg (by simpa using hq)]
      · rw [h3, List.countP_cons_of_neg (by simpa using hq)]
      · rw [h4, List.countP_cons_of_neg (by simpa using hq)]
    · have hstep := releaseQuarantined_part hq (hi k (List.mem_cons_self ..) hq)
      have hslot (j : SlotIx) : slotOf (releaseQuarantined k p) j =
          if j = k then unquarantined (slotOf p k) else slotOf p j := by
        rw [hstep]
        exact slotOf_set (p := p) rfl j
      have hsame : ∀ j ∈ xs, slotOf (releaseQuarantined k p) j = slotOf p j := fun j hj => by
        rw [hslot, if_neg (by rintro rfl; exact hk hj)]
      have hfilter : xs.filter (fun j => (slotOf (releaseQuarantined k p) j).state == .quarantined) =
          xs.filter (fun j => (slotOf p j).state == .quarantined) :=
        List.filter_congr (fun j hj => by rw [hsame j hj])
      have hcount : xs.countP (fun j => (slotOf (releaseQuarantined k p) j).state == .quarantined) =
          xs.countP (fun j => (slotOf p j).state == .quarantined) := by
        rw [List.countP_eq_length_filter, List.countP_eq_length_filter, hfilter]
      obtain ⟨h1, h2, h3, h4, h5, h6, h7⟩ := ih (p := releaseQuarantined k p) hnd
        (fun j hj => by rw [hsame j hj]; exact hi j (List.mem_cons_of_mem _ hj))
      rw [hfilter] at h2
      rw [hcount] at h3 h4
      have e : forAll (k :: xs) releaseQuarantined p = forAll xs releaseQuarantined (releaseQuarantined k p) := rfl
      rw [e]
      generalize forAll xs releaseQuarantined (releaseQuarantined k p) = q at *
      refine ⟨fun j => ?_, ?_, ?_, ?_, ?_, ?_, ?_⟩
      · rw [h1, hslot]
        by_cases hj : j = k
        · subst hj
          simp [hq, hk]
        · simp [hj]
      · rw [h2, hstep, List.filter_cons_of_pos (by simpa using hq)]
        simp
      · rw [h3, hstep, List.countP_cons_of_pos (by simpa using hq)]
        simp only
        omega
      · rw [h4, hstep, List.countP_cons_of_pos (by simpa using hq), Function.iterate_succ_apply]
      · rw [h5, hstep]
      · rw [h6, hstep]
      · have hback : { releaseQuarantined k p with store := p.store } = p := by rw [hstep]
        exact (congrArg (fun r : Part => { r with store := p.store }) h7).trans hback


/-- The failures given with an event leave every slot's state, so the count of any (log entry 5). -/
theorem countSlots_partAt {code : Byte} {env : Env} {cmd : Command} {s : State} (st : SlotState) :
    countSlots (partAt code env cmd s) st = countSlots s.part st := by
  have hslot (k : SlotIx) : (slotOf (partAt code env cmd s) k).state = (slotOf s.part k).state := by
    rw [slotOf_congr k _ (partAt_store code env cmd s), found_slot]
  unfold countSlots
  rw [StatusAnswers.slots_countP, StatusAnswers.slots_countP]
  exact List.countP_congr fun k _ => by rw [hslot]

theorem countSlots_eq (p : Part) (st : SlotState) :
    countSlots p st = allSlots.countP (fun k => (slotOf p k).state == st) :=
  StatusAnswers.slots_countP p _

theorem releaseAll_released {p : Part} (hi : ∀ k, (slotOf p k).state = .quarantined → (slotOf p k).intact = true) :
    Released allSlots p (releaseAll p) := released_all (List.nodup_finRange 64) (fun k _ => hi k)

/-- RELEASE QUARANTINE that passes its tests answers how many slots it releases (R57). -/
theorem ruleReleaseQuarantine_ok {cmd : Command} {p : Part} (ht : targetOf cmd.target = .device) (hp : cmd.payload = [])
    (hdf : p.fault.deviceFatal = false) (hir : p.store.initRunning = false)
    (hq : p.store.quarantine = countSlots p .quarantined)
    (hi : ∀ k, (slotOf p k).state = .quarantined → (slotOf p k).intact = true) :
    ruleReleaseQuarantine cmd p = .ok (releaseAll p, [word (countSlots p .quarantined)]) := by
  have hleft : p.store.quarantine - (releaseAll p).store.quarantine = countSlots p .quarantined := by
    rw [(releaseAll_released hi).quarantine, ← countSlots_eq, hq]
    omega
  refine (deviceEmpty_ok ht hp).trans ?_
  rw [hdf, hir, ← hleft]
  rfl

/-- What the releases leave of a part, read beside the opening of a take. -/
theorem released_beside {code : Byte} {n : Ix} {p q : Part} (h : Released allSlots (openTake code n p) q) :
    { q with outs := p.outs, mgmt := p.mgmt } = { p with store := q.store } := by
  have hb : { q with store := (openTake code n p).store } = openTake code n p := h.blocks
  have := congrArg (fun r : Part => { r with store := q.store, outs := p.outs, mgmt := p.mgmt }) hb
  exact this

end Release

/-- Settles O47: the tests, and the fold of the releases beside the opened take. -/
theorem releaseQuarantineFrees : Obligations.ReleaseQuarantineFrees := by
  rintro env cmd s q h rfl
  obtain ⟨htarget, hlength⟩ := deviceEmpty_refusals (rule := ruleReleaseQuarantine) (fun _ => rfl) h rfl
  have hfatal : (openTake 7 cmd.link (partAt 7 env cmd s)).fault.deviceFatal = s.part.fault.deviceFatal :=
    congrArg FaultUnit.deviceFatal partAt_fault
  have hinit : (openTake 7 cmd.link (partAt 7 env cmd s)).store.initRunning = s.part.store.initRunning := by
    show (partAt 7 env cmd s).store.initRunning = _
    rw [partAt_store, found_store_initRunning]
  refine ⟨htarget, hlength, fun ht hp hw => ?_, fun ht hp hdf hir hq hi => ?_⟩
  · refine immediate_refused ruleReleaseQuarantine h rfl ((deviceEmpty_ok ht hp).trans ?_)
    rw [hfatal, hinit]
    rcases hw with hw | hw <;> simp [hw] <;> rfl
  · have hrel := releaseAll_released (p := openTake 7 cmd.link (partAt 7 env cmd s)) hi
    have hstore : (openTake 7 cmd.link (partAt 7 env cmd s)).store = (partAt 7 env cmd s).store := rfl
    have hcount : (partAt 7 env cmd s).store.quarantine = countSlots (partAt 7 env cmd s) .quarantined := by
      rw [countSlots_partAt, ← hq, partAt_store, found_store_quarantine]
    have hr := ruleReleaseQuarantine_ok (p := openTake 7 cmd.link (partAt 7 env cmd s)) ht hp (hfatal.trans hdf)
      (hinit.trans hir) hcount hi
    have hbeside := released_beside hrel
    have hx := immediate_done ruleReleaseQuarantine h rfl hr hrel.outs hrel.mgmt (hrel.fatalDue.trans (fatalDue_partAt h))
    rw [hbeside] at hx
    obtain ⟨hslots, hfree, hquar, hrels, hmem, hecc, -⟩ := hrel
    generalize releaseAll (openTake 7 cmd.link (partAt 7 env cmd s)) = r at *
    have hstates : (partAt 7 env cmd s).store.freeList = s.part.store.freeList
        ∧ (partAt 7 env cmd s).store.mem = s.part.store.mem
        ∧ (partAt 7 env cmd s).store.ctr = s.part.store.ctr := by simp
    obtain ⟨hsfree, hsmem, hsctr⟩ := hstates
    refine ⟨_, hx, fun k => ?_, hfree.trans (by rw [← hsfree]; rfl), ?_, ?_, rfl, rfl, partAt_fault, rfl, by simp [answered],
      by simp [answered], hmem.trans hsmem, hecc, by simp [answered], by simp [answered], by simp [answered],
      by simp [answered], rfl⟩
    · exact (hslots k).trans (by simp [allSlots, unquarantined]; rfl)
    · refine hquar.trans ?_
      rw [hstore, hcount, countSlots_eq]
      exact Nat.sub_self _
    · refine hrels.trans ?_
      rw [countSlots_eq, ← hsctr]
      rfl

end Sys2Proof.Machine.StoreValues
end

section
/-! SUPPORT. DEVICE RESET (R179): the reset of the part, and the quarantined slots that it keeps (R45, R46, R56). -/

namespace Sys2Proof.Machine.DeviceResetLaws

open Frames Keeping SlotsLaw DeviceAnswers ResetLaws StoreValues

/-! ### The initialisation run -/

/-- The first slot from `k` on that is not QUARANTINED (R46): those before it are, and it is not; 64 where none is left. -/
theorem skipQuarantined_spec (slots : Vector SlotRec 64) {fuel k : Nat} (hk : k ≤ 64) (hf : 64 ≤ k + fuel) :
    k ≤ skipQuarantined slots fuel k ∧ skipQuarantined slots fuel k ≤ 64
      ∧ (∀ j : SlotIx, k ≤ j.val → j.val < skipQuarantined slots fuel k → slots[j].state = .quarantined)
      ∧ (∀ j : SlotIx, j.val = skipQuarantined slots fuel k → slots[j].state ≠ .quarantined) := by
  induction fuel generalizing k with
  | zero => exact ⟨le_rfl, hk, fun j h1 h2 => absurd h2 (not_lt.2 h1), fun j h => by
      have := j.isLt
      simp only [skipQuarantined] at h
      omega⟩
  | succ fuel ih =>
    unfold skipQuarantined
    by_cases hlt : k < 64
    · rw [Vector.getElem?_eq_getElem hlt]
      dsimp only
      split
      · next hq =>
        obtain ⟨h1, h2, h3, h4⟩ := ih (k := k + 1) hlt (by omega)
        refine ⟨by omega, h2, fun j hj hjs => ?_, h4⟩
        rcases Nat.eq_or_lt_of_le hj with e | e
        · subst e
          exact hq
        · exact h3 j e hjs
      · next hq =>
        refine ⟨le_rfl, hk, fun j h1 h2 => absurd h2 (not_lt.2 h1), fun j h => ?_⟩
        subst h
        exact hq
    · rw [Vector.getElem?_eq_none (by omega)]
      exact ⟨le_rfl, hk, fun j h1 h2 => absurd h2 (not_lt.2 h1), fun j h => by
        have := j.isLt
        dsimp only at h
        omega⟩

/-! ### The degraded pool at the reset -/

/-- The fault unit after a reset that keeps `c` slots, 16 or more (R56). -/
def degradedFault (c : Nat) : FaultUnit :=
  { resetFault with
    latches := [.poolDegraded]
    alarm := true
    deviceLog := some ⟨.poolDegraded, .degraded, 0, .count c, false, 0, false⟩ }

/-- An output whose first boundary sends the notice of POOL_DEGRADED (R116, R117). -/
def noticedOut (t : Straps) : OutUnit :=
  { resetOut t with
    packets := [sendPacket ⟨0x61#8, 0x0D#8, [BitVec.ofNat 8 t.address.val, 0, 255, 1, 0, 8]⟩]
    ctr := { (resetOut t).ctr with noticesSent := 1 } }

/-- A change of each output by itself, one after the other, is one change of all four. -/
theorem forEach_modOut {f : Ix → Part → Part} {g : OutUnit → OutUnit} {p : Part}
    (h : ∀ m q, { q with outs := p.outs } = p → q.outs.get m = p.outs.get m → f m q = modOut m g q) :
    forEach f p = { p with outs := Four.make (fun m => g (p.outs.get m)) } := by
  show f 3 (f 2 (f 1 (f 0 p))) = _
  rw [h 0 p rfl rfl, h 1 (modOut 0 g p) rfl rfl, h 2 (modOut 1 g (modOut 0 g p)) rfl rfl,
    h 3 (modOut 2 g (modOut 1 g (modOut 0 g p))) rfl rfl]
  rfl

theorem addNotices_all (c : Cond) {p : Part} (hl : ∀ m, (p.links.get m).settings.listen = true)
    (hn : ∀ m, (p.outs.get m).notices = []) :
    addNotices c p = { p with outs := Four.make (fun m => { p.outs.get m with notices := [c] }) } := by
  have h : addNotices c p = { p with outs := Four.make (fun m =>
      { p.outs.get m with notices := (p.outs.get m).notices ++ [c] }) } := by
    refine forEach_modOut (g := fun o => { o with notices := o.notices ++ [c] }) fun m q hq ho => ?_
    have hlinks : q.links = p.links := by rw [← hq]
    rw [ho, hlinks, hl m, hn m]
    rfl
  rw [h]
  simp [hn]

/-- A picture of each output that sends the waiting notices of its output (R116, R117). -/
theorem placeNotices_all {p : Part} (hn : ∀ m, (p.outs.get m).notices ≠ []) :
    forEach (fun n => placeNotice n 0) p = { p with outs := Four.make (fun m => { p.outs.get m with
      notices := []
      packets := (p.outs.get m).packets ++ [sendPacket (noticePacket p (p.outs.get m).notices)]
      ctr := { (p.outs.get m).ctr with noticesSent := bump (p.outs.get m).ctr.noticesSent } }) } := by
  refine forEach_modOut (g := fun o => { o with
      notices := []
      packets := o.packets ++ [sendPacket (noticePacket p o.notices)]
      ctr := { o.ctr with noticesSent := bump o.ctr.noticesSent } }) fun m q hq ho => ?_
  have hstraps : noticePacket q = noticePacket p := by unfold noticePacket; rw [← hq]
  unfold placeNotice
  rw [ho, hstraps]
  dsimp only
  rw [if_pos ⟨by decide, hn m⟩]
  simp only [bumpOut, modOut, Four.modify_modify]
  congr 1
  exact Four.get_ext fun i => by
    simp only [Four.get_modify]
    split_ifs with hi
    · rw [hi, ho]
    · rfl

/-- A first latch on a part whose latches are clear: the notices, the alarm line and the report (R56, R184, R187). -/
theorem poolDegrade_clear {p q : Part} (hl : p.fault.latches = [])
    (hq : q = addNotices .poolDegraded (modFault (fun u => { u with latches := [.poolDegraded] }) p)) :
    poolDegrade p = report .dl .poolDegraded (.count p.store.quarantine) (alarmEval q) := by
  subst hq
  have hf : allConds.filter (fun d => d == .poolDegraded || p.fault.latches.contains d) = [.poolDegraded] := by
    rw [hl]
    rfl
  have hm : modFault (fun u => { u with
      latches := allConds.filter (fun d => d == .poolDegraded || u.latches.contains d) }) p =
      modFault (fun u => { u with latches := [.poolDegraded] }) p := by
    unfold modFault
    dsimp only
    rw [hf]
  unfold poolDegrade latchSet
  rw [hl, hm]
  rfl

theorem alarmed_reset : alarmValue { resetFault with latches := [.poolDegraded] } = true := rfl

theorem poolDegrade_reset (t : Straps) (a : Four Bool) (st : Store) :
    poolDegrade (resetPart t a st) =
      { resetPart t a st with
        outs := Four.make (fun _ => { resetOut t with notices := [.poolDegraded] })
        fault := degradedFault st.quarantine } := by
  have hout : ∀ m, (resetPart t a st).outs.get m = resetOut t := Four.get_all _
  have hnotices := addNotices_all .poolDegraded
    (p := modFault (fun u => { u with latches := [.poolDegraded] }) (resetPart t a st))
    (fun m => by simp [resetPart]; rfl) (fun m => by simp [hout]; rfl)
  simp only [modFault_outs, hout] at hnotices
  have hreport : ∀ (p : Part) o (u : FaultUnit), alarmValue u = true → u.deviceLog = none →
      report .dl .poolDegraded (.count p.store.quarantine) (alarmEval { p with outs := o, fault := u }) =
        { p with
          outs := o
          fault := { u with
            alarm := true
            deviceLog := (some ⟨.poolDegraded, .degraded, p.timebase, .count p.store.quarantine, false, 0, false⟩) } } := by
    intro p o u ha hd
    simp only [report, modLog, alarmEval, modFault, ha, hd]
    rfl
  rw [poolDegrade_clear rfl hnotices.symm]
  exact hreport _ _ _ alarmed_reset rfl

/-- The outputs after a reset that keeps `c` slots. -/
def outsAfter (t : Straps) (c : Nat) : Four OutUnit := Four.all (if 16 ≤ c then noticedOut t else resetOut t)

/-- The fault unit after a reset that keeps `c` slots. -/
def faultAfter (c : Nat) : FaultUnit := if 16 ≤ c then degradedFault c else resetFault

theorem degradeAtReset_eq (t : Straps) (a : Four Bool) (st : Store) :
    degradeAtReset (resetPart t a st) =
      { resetPart t a st with outs := outsAfter t st.quarantine, fault := faultAfter st.quarantine } := by
  unfold outsAfter faultAfter
  by_cases h : 16 ≤ st.quarantine
  · refine (if_pos h).trans ?_
    show forEach (fun n => placeNotice n 0) (poolDegrade (resetPart t a st)) = _
    rw [poolDegrade_reset, placeNotices_all (fun m => by simp), if_pos h, if_pos h]
    simp only [Four.get_make]
    rfl
  · rw [if_neg h, if_neg h]
    exact if_neg h

theorem faultAfter_quiet (c : Nat) : (faultAfter c).fatalDue = false := by
  unfold faultAfter
  split <;> rfl

/-! ### The reset -/

section Reset
variable {cmd : Command} {p : Part}

theorem takeDeviceReset_badTarget (h : targetOf cmd.target ≠ .device) :
    takeDeviceReset cmd = takeImmediate 4 cmd (fun _ => deny .badTarget) := by
  funext p
  exact if_pos h

theorem takeDeviceReset_badLength (h : targetOf cmd.target = .device) (hp : cmd.payload ≠ []) :
    takeDeviceReset cmd = takeImmediate 4 cmd (fun _ => deny .badLength) := by
  funext p
  exact (if_neg (not_not.2 h)).trans (if_pos hp)

/-- The opening of its take is all that a DEVICE RESET finds beside the part it resets (R179). -/
theorem takeDeviceReset_ok (h : targetOf cmd.target = .device) (hp : cmd.payload = []) :
    takeDeviceReset cmd p =
      countTake false (degradeAtReset (resetPart p.straps (activityOf p) (deviceResetStore p.store))) :=
  (if_neg (not_not.2 h)).trans (if_neg (not_not.2 hp))

/-- The slots of a part over the store that a DEVICE RESET leaves (R45). -/
theorem slotOf_deviceReset {q : Part} (hs : q.store = deviceResetStore p.store) (k : SlotIx) :
    slotOf q k = deviceResetSlot (slotOf p k) := by
  simp [slotOf, hs, deviceResetStore, beginInit]

end Reset

/-- Settles O44: the tests, the slots kept, the run that begins, and the degraded pool. -/
theorem deviceResetResets : Obligations.DeviceResetResets := by
  rintro env cmd s q h rfl
  refine ⟨fun ht => ?_, fun ht hp => ?_, fun ht hp => ?_⟩
  · have hx : exec (.deviceReset env cmd) s = command 4 env cmd (takeDeviceReset cmd) s := rfl
    rw [hx, takeDeviceReset_badTarget ht]
    exact immediate_refused (fun _ _ => deny .badTarget) h rfl rfl
  · have hx : exec (.deviceReset env cmd) s = command 4 env cmd (takeDeviceReset cmd) s := rfl
    rw [hx, takeDeviceReset_badLength ht hp]
    exact immediate_refused (fun _ _ => deny .badLength) h rfl rfl
  · have hx : exec (.deviceReset env cmd) s = _ := command_taken (takeDeviceReset cmd) h
    have hstraps : (partAt 4 env cmd s).straps = s.part.straps := by simp
    have hactivity : activityOf (partAt 4 env cmd s) = activityOf s.part := by simp [activityOf]
    have hmem : (partAt 4 env cmd s).store.mem = s.part.store.mem := by simp
    rw [takeDeviceReset_ok ht hp, hstraps, hactivity] at hx
    generalize partAt 4 env cmd s = q at *
    rw [degradeAtReset_eq, settle_quiet (faultAfter_quiet _)] at hx
    obtain ⟨-, hle, hbefore, hat⟩ := skipQuarantined_spec (q.store.slots.map deviceResetSlot) (fuel := 64) (k := 0)
      (by omega) (by omega)
    refine ⟨_, _, hx, rfl, rfl, fun k => ?_, rfl, rfl, rfl, fun k hk => ?_, fun k hk => ?_, hle, rfl, fun _ => rfl,
      hmem, rfl, rfl, rfl, rfl, rfl, rfl, rfl, rfl, rfl, rfl, ?_⟩
    · refine (slotOf_deviceReset (p := q) rfl k).trans ?_
      simp [deviceResetSlot, keptQuarantined, resetSlot]
    · exact hbefore k (Nat.zero_le _) hk
    · exact hat k hk
    · show if 16 ≤ (deviceResetStore q.store).quarantine then _ else _
      have hkept (h16 : 16 ≤ (deviceResetStore q.store).quarantine) :
          faultAfter (deviceResetStore q.store).quarantine = degradedFault (deviceResetStore q.store).quarantine
            ∧ outsAfter s.part.straps (deviceResetStore q.store).quarantine = Four.all (noticedOut s.part.straps) :=
        ⟨if_pos h16, congrArg Four.all (if_pos h16)⟩
      have hnone (h16 : ¬ 16 ≤ (deviceResetStore q.store).quarantine) :
          faultAfter (deviceResetStore q.store).quarantine = resetFault
            ∧ outsAfter s.part.straps (deviceResetStore q.store).quarantine = Four.all (resetOut s.part.straps) :=
        ⟨if_neg h16, congrArg Four.all (if_neg h16)⟩
      split_ifs with h16
      · obtain ⟨hf, ho⟩ := hkept h16
        refine ⟨congrArg FaultUnit.latches hf, congrArg FaultUnit.alarm hf, congrArg FaultUnit.deviceLog hf, fun n => ?_⟩
        refine (congrArg (fun v => Four.get v n) ho).trans ?_
        rw [Four.get_all]
        simp only [resetPart, Four.get_all]
        rfl
      · exact hnone h16

end Sys2Proof.Machine.DeviceResetLaws
end

section
/-! SUPPORT. What takes a lane out of its running states: STOP, HALT, a fault of the lane, and device fatal (R82, R124,
R132 to R135), with what the end of a step makes of every lane (R58, R189). -/

namespace Sys2Proof.Machine.LaneEnds

open Frames Keeping LaneValues HistoryLaw

/-! ### What the work on slots and histories leaves of the fault unit and the outputs -/

/-- A fault unit as the work on slots, histories and lanes may change it: no log of a feed or a lane, no mask and no flag
but that of the integrity error, and no latch is cleared (R56, R58, R184). -/
structure MildFault (u v : FaultUnit) : Prop where
  laneLogs : v.laneLogs = u.laneLogs
  feedLogs : v.feedLogs = u.feedLogs
  deviceFatal : v.deviceFatal = u.deviceFatal
  mask : v.mask = u.mask
  latches : ∀ c ∈ u.latches, c ∈ v.latches
  due : u.fatalDue = true → v.fatalDue = true

/-- `q` differs from `p` in its fault unit and its outputs as the work on slots and histories may make it: of the outputs
the waiting notices alone are changed. -/
structure Mild (p q : Part) : Prop extends MildFault p.fault q.fault where
  outs : ∀ m, q.outs.get m = { p.outs.get m with notices := (q.outs.get m).notices }

section Mild
variable {p q r : Part} {n m : Ix} {k : SlotIx} {u v w : FaultUnit}

theorem MildFault.refl (u : FaultUnit) : MildFault u u := ⟨rfl, rfl, rfl, rfl, fun _ h => h, id⟩

theorem MildFault.trans (h : MildFault u v) (g : MildFault v w) : MildFault u w :=
  ⟨g.laneLogs.trans h.laneLogs, g.feedLogs.trans h.feedLogs, g.deviceFatal.trans h.deviceFatal, g.mask.trans h.mask,
   fun c hc => g.latches c (h.latches c hc), fun hd => g.due (h.due hd)⟩

theorem Mild.of_same (hf : q.fault = p.fault) (ho : q.outs = p.outs) : Mild p q :=
  ⟨hf ▸ .refl _, fun m => by rw [ho]⟩

theorem Mild.refl (p : Part) : Mild p p := .of_same rfl rfl

theorem Mild.trans (h : Mild p q) (g : Mild q r) : Mild p r :=
  ⟨h.toMildFault.trans g.toMildFault, fun m => by
    have h1 := h.outs m
    have h2 := g.outs m
    rw [h2]
    generalize q.outs.get m = b at *
    rw [h1]⟩

theorem Mild.after (h : Mild q r) (hf : q.fault = p.fault) (ho : q.outs = p.outs) : Mild p r := (Mild.of_same hf ho).trans h

theorem Mild.before (h : Mild p q) (hf : r.fault = q.fault) (ho : r.outs = q.outs) : Mild p r := h.trans (.of_same hf ho)

theorem Mild.out {β : Type} (h : Mild p q) (g : OutUnit → β) (hg : ∀ o ns, g { o with notices := ns } = g o) :
    g (q.outs.get m) = g (p.outs.get m) := by rw [h.outs m, hg]

theorem mild_latchSet (c : Cond) (p : Part) : Mild p (latchSet c p) :=
  ⟨⟨by simp, by simp, by simp, by simp, fun d hd => (mem_latchSet p c d).2 (.inl hd), by simp⟩, fun m => latchSet_notices m p c⟩

theorem mild_report_dl (c : ErrCode) (d : Detail) (p : Part) : Mild p (report .dl c d p) :=
  ⟨⟨rfl, rfl, rfl, rfl, fun _ h => h, id⟩, fun _ => rfl⟩

theorem mild_integrityError (k : SlotIx) (p : Part) : Mild p (integrityError k p) :=
  ⟨⟨rfl, rfl, rfl, rfl, fun _ h => h, fun _ => rfl⟩, fun _ => rfl⟩

theorem mild_poolDegrade (p : Part) : Mild p (poolDegrade p) := (mild_latchSet _ _).trans (mild_report_dl _ _ _)

theorem mild_releaseSlot (k : SlotIx) (p : Part) : Mild p (releaseSlot k p) := by
  unfold releaseSlot
  split
  · rw [StoreValues.slotToQuarantine_eq]
    split
    · exact (mild_poolDegrade (StoreValues.quarantineSet k p)).after rfl rfl
    · exact .of_same rfl rfl
  · exact .of_same rfl rfl

theorem mild_returnSlot (n : Ix) (k : SlotIx) (p : Part) : Mild p (returnSlot n k p) := by
  unfold returnSlot
  dsimp only
  split
  · split
    · exact .of_same rfl rfl
    · exact mild_releaseSlot k p
  · exact mild_integrityError k p

theorem mild_unpinSlot (k : SlotIx) (p : Part) : Mild p (unpinSlot k p) := by
  unfold unpinSlot
  dsimp only
  split
  · split
    · exact (mild_releaseSlot k (modSlot k (fun r => { r with pins := r.pins - 1 }) p)).after rfl rfl
    · exact .of_same rfl rfl
  · exact mild_integrityError k p

theorem mild_pinSlot (n : Ix) (k : SlotIx) (p : Part) : Mild p (pinSlot n k p).1 := by
  unfold pinSlot
  dsimp only
  split
  · exact .of_same rfl rfl
  · exact mild_integrityError k p

theorem mild_returnEntry (n : Ix) (e : Entry) (p : Part) : Mild p (returnEntry n e p) := by
  unfold returnEntry
  split
  · exact mild_returnSlot n _ p
  · exact .refl p

theorem mild_forAll {α : Type} {f : α → Part → Part} (hf : ∀ a q, Mild q (f a q)) (xs : List α) (p : Part) :
    Mild p (forAll xs f p) := by
  induction xs generalizing p with
  | nil => exact .refl p
  | cons x xs ih => exact (hf x p).trans (ih (f x p))

theorem mild_flushFeed (n : Ix) (p : Part) : Mild p (flushFeed n p) :=
  have h : Mild p (forAll (p.feeds.get n).history (returnEntry n) (modFeed n (fun f => { f with history := [] }) p)) :=
    (mild_forAll (mild_returnEntry n) (p.feeds.get n).history _).after rfl rfl
  h.before rfl rfl

theorem mild_unpinJob (n : Ix) (p : Part) : Mild p (unpinJob n p) :=
  (mild_forAll mild_unpinSlot (p.lanes.get n).job.pinned
    (modLane n (fun l => { l with job := { l.job with pinned := [] } }) p)).after rfl rfl

theorem mild_abandonJob (n : Ix) (p : Part) : Mild p (abandonJob n p) := by
  unfold abandonJob
  split
  · exact (mild_unpinJob n p).before rfl rfl
  · exact .refl p

theorem mild_endJob (n : Ix) (p : Part) : Mild p (endJob n p) := by
  unfold endJob
  split
  · exact (mild_unpinJob n (modLane n (fun l => { l with job := closeJob l.job }) p)).after rfl rfl
  · exact .refl p

theorem mild_clearLane (n : Ix) (p : Part) : Mild p (clearLane n p) := (mild_abandonJob n p).before rfl rfl

theorem mild_leaveRunning (n : Ix) (s : LaneState) (p : Part) : Mild p (leaveRunning n s p) := by
  unfold leaveRunning
  dsimp only
  split
  · have h : Mild p (flushFeed (p.lanes.get n).profile.source (modLane n (fun l => { l with state := s }) p)) :=
      (mild_flushFeed (p.lanes.get n).profile.source _).after rfl rfl
    exact h.before rfl rfl
  · exact .of_same rfl rfl

end Mild

/-! ### The lane -/

/-- A lane that goes FATAL (R134): job abandoned, carry queue flushed, what was pending emptied, hold count 0. -/
def fatalled (l : Lane) : Lane := { carryFlushed (abandoned l) with
  commit := none
  acquireAt := none
  holdCount := 0
  state := .faulted
  laneCtr := { l.laneCtr with faults := bump l.laneCtr.faults } }

/-- A lane as device fatal leaves it (R135): a FAULTED lane as it was, a STOPPED one FAULTED, a running one FATAL. -/
def deviceFatalled (l : Lane) : Lane :=
  match l.state with
  | .faulted => l
  | .stopped => { l with state := .faulted, laneCtr := { l.laneCtr with faults := bump l.laneCtr.faults } }
  | _ => fatalled l

section Lanes
variable (n : Ix) (p : Part)

theorem abandoned_laneCtr (l : Lane) : (abandoned l).laneCtr = l.laneCtr := by
  unfold abandoned
  split <;> rfl

@[simp] theorem laneFatal_lanes : (laneFatal n p).lanes = p.lanes.modify n fatalled := by
  simp only [laneFatal, bumpLane_eq, modLane_lanes, latchSet_frame, leaveRunning_lanes, clearPending, endLaneOp_frame,
    clearLane_lanes, Four.modify_modify]
  exact congrArg (p.lanes.modify n) (funext fun l => by simp [fatalled, carryFlushed, abandoned_laneCtr])

theorem deviceFatalLane_lanes : (deviceFatalLane n p).lanes = p.lanes.modify n deviceFatalled := by
  unfold deviceFatalLane
  split <;> rename_i hs
  · simp [Four.modify, deviceFatalled, hs]
  · simp [Four.modify, deviceFatalled, hs]
  all_goals simp [Four.modify, deviceFatalled, hs]

/-- Device fatal acts on each lane by itself (R135). -/
theorem enterDeviceFatal_lanes : (enterDeviceFatal p).lanes = Four.make (fun m => deviceFatalled (p.lanes.get m)) := by
  have e : ∀ q : Part, (forEach deviceFatalLane q).lanes = Four.make (fun m => deviceFatalled (q.lanes.get m)) := by
    intro q
    have h : forEach deviceFatalLane q = deviceFatalLane 3 (deviceFatalLane 2 (deviceFatalLane 1 (deviceFatalLane 0 q))) := rfl
    rw [h, deviceFatalLane_lanes, deviceFatalLane_lanes, deviceFatalLane_lanes, deviceFatalLane_lanes]
    rfl
  simp [enterDeviceFatal, e]

end Lanes

/-! ### A feed without a running lane -/

/-- A feed with no running lane left has an empty history and captures nothing (R21, R22, R37). -/
def drained (f : Ix) (p : Part) : Prop :=
  runningCount p f = 0 → (p.feeds.get f).history = [] ∧ (p.feeds.get f).captureOn = false

section Drained
variable {f n : Ix} {p q : Part}

theorem runningCount_congr (h : ∀ m, (sources q f m && isRunning (q.lanes.get m).state) =
    (sources p f m && isRunning (p.lanes.get m).state)) : runningCount q f = runningCount p f :=
  List.countP_congr fun m _ => by rw [h m]

theorem runningCount_modLane {g : Lane → Lane} (hl : q.lanes = p.lanes.modify n g)
    (h : (sources q f n && isRunning (q.lanes.get n).state) = (sources p f n && isRunning (p.lanes.get n).state)) :
    runningCount q f = runningCount p f := by
  refine runningCount_congr fun m => ?_
  by_cases hm : m = n
  · rw [hm, h]
  · simp only [sources, hl, Four.get_modify_other _ _ hm]

theorem drained_of (hc : runningCount q f = runningCount p f)
    (hf : q.feeds.get f = p.feeds.get f) (hp : drained f p) : drained f q := by
  unfold drained
  rwa [hc, hf]

/-- A lane that leaves the running states leaves its source feed drained where no other lane runs on it (R21, R37). -/
theorem leaveRunning_drained (n : Ix) (s : LaneState) (p : Part) :
    drained (p.lanes.get n).profile.source (leaveRunning n s p) := by
  intro h0
  have hlanes : (leaveRunning n s p).lanes = (modLane n (fun l => { l with state := s }) p).lanes := leaveRunning_lanes n p s
  have hcount : runningCount (modLane n (fun l => { l with state := s }) p) (p.lanes.get n).profile.source = 0 := by
    rw [← h0]
    exact runningCount_congr fun m => by simp only [sources, hlanes]
  unfold leaveRunning
  dsimp only
  rw [if_pos hcount]
  have hcap : runningCount (flushFeed (p.lanes.get n).profile.source (modLane n (fun l => { l with state := s }) p))
      (p.lanes.get n).profile.source = 0 := by
    rw [← hcount]
    exact runningCount_congr fun m => by simp only [sources, flushFeed_frame]
  simp [recapture, hcap, flushFeed_feeds]

/-- A lane that leaves the running states touches no feed but its source (R124). -/
theorem leaveRunning_feed_other (s : LaneState) (h : f ≠ (p.lanes.get n).profile.source) :
    (leaveRunning n s p).feeds.get f = p.feeds.get f := by
  unfold leaveRunning
  dsimp only
  split
  · simp [recapture, flushFeed_feeds, Four.get_modify_other _ _ h]
  · simp [recapture, Four.get_modify_other _ _ h]

theorem fatalled_source (l : Lane) : (fatalled l).profile = l.profile := by
  simp only [fatalled, carryFlushed]
  unfold abandoned
  split <;> rfl

theorem laneFatal_drained (n : Ix) (hp : drained f p) : drained f (laneFatal n p) := by
  have hsplit : ∃ q : Part, laneFatal n p = bumpLane n (fun c => { c with faults := bump c.faults })
      (latchSet (.faulted n) (leaveRunning n .faulted q)) ∧ (q.lanes.get n).profile = (p.lanes.get n).profile
      ∧ q.feeds = p.feeds := by
    refine ⟨_, rfl, ?_, ?_⟩
    · simp only [modLane_lanes, clearPending, endLaneOp_frame, clearLane_lanes, Four.get_modify_same]
      exact fatalled_source (p.lanes.get n)
    · simp [clearPending]
  have hsource : ((laneFatal n p).lanes.get n).profile = (p.lanes.get n).profile := by
    rw [laneFatal_lanes, Four.get_modify_same, fatalled_source]
  by_cases hf : f = (p.lanes.get n).profile.source
  · obtain ⟨q, he, hprof, -⟩ := hsplit
    have hd := leaveRunning_drained n .faulted q
    rw [hprof, ← hf] at hd
    rw [he]
    refine drained_of (p := leaveRunning n .faulted q) (runningCount_modLane (n := n)
      (g := fun l => { l with laneCtr := { l.laneCtr with faults := bump l.laneCtr.faults } }) ?_ ?_) ?_ hd
    · simp
    · simp [sources]
    · simp
  · refine drained_of (runningCount_modLane (n := n) (laneFatal_lanes n p) ?_) ?_ hp
    · have h1 : sources (laneFatal n p) f n = false := by
        rw [sources, hsource]
        exact decide_eq_false (fun e => hf e.symm)
      have h2 : sources p f n = false := decide_eq_false (fun e => hf e.symm)
      rw [h1, h2]
      rfl
    · obtain ⟨q, he, hprof, hfeeds⟩ := hsplit
      rw [he]
      simp only [bumpLane_eq, modLane_feeds, latchSet_frame]
      rw [leaveRunning_feed_other .faulted (by rwa [hprof]), hfeeds]

theorem deviceFatalLane_drained (n : Ix) (hp : drained f p) : drained f (deviceFatalLane n p) := by
  unfold deviceFatalLane
  split <;> rename_i hs
  · exact hp
  · refine drained_of (runningCount_modLane (n := n) (p := p)
      (g := fun l => { l with state := .faulted, laneCtr := { l.laneCtr with faults := bump l.laneCtr.faults } }) ?_ ?_) ?_ hp
    · simp
    · simp [sources, hs, isRunning]
    · simp
  all_goals exact laneFatal_drained n hp

/-- Device fatal leaves a feed drained that was (R135). -/
theorem settle_drained (hp : drained f p) : drained f (settle p) := by
  unfold settle
  split
  · dsimp only
    split
    · exact hp
    · have h0 : drained f (latchSet .deviceFatal (modFault (fun u => { u with deviceFatal := true }) p)) :=
        drained_of (p := p) (runningCount_congr fun m => by simp [sources]) (by simp) hp
      have h : forEach deviceFatalLane = fun q =>
        deviceFatalLane 3 (deviceFatalLane 2 (deviceFatalLane 1 (deviceFatalLane 0 q))) := rfl
      show drained f (enterDeviceFatal p)
      unfold enterDeviceFatal
      rw [h]
      exact deviceFatalLane_drained 3 (deviceFatalLane_drained 2 (deviceFatalLane_drained 1 (deviceFatalLane_drained 0 h0)))
  · exact hp

end Drained

/-! ### The records and replies of what ends -/

/-- The DONE that the end of a pending operation posts to the reply queue of OUTm, if it is the operation's own (R174). -/
def endReplies (m : Ix) (st : DoneStatus) (o : Option PendingOp) : List Reply :=
  match o with
  | some op => if op.origin = m then [⟨op.tag, op.code, .done, doneWord st, op.restart, []⟩] else []
  | none => []

section Replies
variable {n m : Ix} {p : Part}

theorem endLaneOp_replies (st : DoneStatus) : ((endLaneOp n st p).outs.get m).replies =
    (p.outs.get m).replies ++ endReplies m st (p.mgmt.laneOps.get n) := by
  unfold endLaneOp
  split
  · next op h =>
    rw [h]
    simp only [postDone, postReply, modOut_outs, modMgmt_outs, Four.get_modify, endReplies, eq_comm (a := op.origin)]
    split_ifs
    · rfl
    · simp
  · next h => simp [h, endReplies]

theorem Mild.replies {q : Part} (h : Mild p q) : (q.outs.get m).replies = (p.outs.get m).replies :=
  h.out (fun o => o.replies) (fun _ _ => rfl)

theorem laneFatal_replies : ((laneFatal n p).outs.get m).replies =
    (p.outs.get m).replies ++ endReplies m .faulted (p.mgmt.laneOps.get n) := by
  unfold laneFatal
  show ((latchSet _ _).outs.get m).replies = _
  rw [(mild_latchSet _ _).replies, (mild_leaveRunning _ _ _).replies]
  show ((endLaneOp n .faulted (clearLane n p)).outs.get m).replies = _
  rw [endLaneOp_replies, (mild_clearLane n p).replies, (clearLane_frame n p).2.2.2.2.2.2.1]

@[simp] theorem laneFatal_mgmt : (laneFatal n p).mgmt = { p.mgmt with laneOps := p.mgmt.laneOps.set n none } := by
  simp [laneFatal, clearPending]

theorem deviceFatalLane_mgmt : (deviceFatalLane n p).mgmt = p.mgmt
    ∨ (deviceFatalLane n p).mgmt = { p.mgmt with laneOps := p.mgmt.laneOps.set n none } := by
  unfold deviceFatalLane
  split
  · exact .inl rfl
  · exact .inl (by simp)
  all_goals exact .inr laneFatal_mgmt

theorem deviceFatalLane_none (k : Ix) (h : p.mgmt.laneOps.get n = none) : (deviceFatalLane k p).mgmt.laneOps.get n = none := by
  rcases deviceFatalLane_mgmt (n := k) (p := p) with e | e <;> rw [e]
  · exact h
  · rw [Four.get_set]
    split
    · rfl
    · exact h

/-- The end of a step fills no record (R58, R135). -/
theorem settle_none (h : p.mgmt.laneOps.get n = none) : (settle p).mgmt.laneOps.get n = none := by
  unfold settle
  split
  · dsimp only
    split
    · exact h
    · have h0 : (latchSet .deviceFatal (modFault (fun u => { u with deviceFatal := true }) p)).mgmt.laneOps.get n = none := by
        simpa using h
      exact deviceFatalLane_none 3 (deviceFatalLane_none 2 (deviceFatalLane_none 1 (deviceFatalLane_none 0 h0)))
  · exact h

end Replies

/-! ### The end of a step -/

section Settle
variable {n : Ix} {p : Part}

theorem mild_endLaneOp (st : DoneStatus) (n : Ix) (p : Part) : MildFault p.fault (endLaneOp n st p).fault := by
  simpa using MildFault.refl p.fault

theorem mild_laneFatal (n : Ix) (p : Part) : MildFault p.fault (laneFatal n p).fault :=
  have h1 := (mild_clearLane n p).toMildFault.trans (mild_endLaneOp .faulted n _)
  have h2 := h1.trans (mild_leaveRunning n .faulted (modLane n (fun l => { l with holdCount := 0 })
    (clearPending n (endLaneOp n .faulted (clearLane n p))))).toMildFault
  h2.trans (mild_latchSet (.faulted n) _).toMildFault

theorem laneFatal_latched (n : Ix) (p : Part) : Cond.faulted n ∈ (laneFatal n p).fault.latches :=
  (mem_latchSet _ _ _).2 (.inr rfl)

theorem mild_deviceFatalLane (n : Ix) (p : Part) : MildFault p.fault (deviceFatalLane n p).fault := by
  unfold deviceFatalLane
  split
  · exact .refl _
  · exact (mild_latchSet (.faulted n) (modLane n (fun l => { l with state := .faulted }) p)).toMildFault
  all_goals exact mild_laneFatal n p

theorem mild_forEach {f : Ix → Part → Part} (hf : ∀ n q, MildFault q.fault (f n q).fault) (p : Part) :
    MildFault p.fault (forEach f p).fault :=
  (hf 0 p).trans ((hf 1 _).trans ((hf 2 _).trans (hf 3 _)))

theorem enterDeviceFatal_flag (p : Part) : (enterDeviceFatal p).fault.deviceFatal = true := by
  unfold enterDeviceFatal
  rw [(mild_forEach mild_deviceFatalLane _).deviceFatal, (mild_latchSet _ _).deviceFatal]
  rfl

/-- The end of a step that does not enter device fatal forgets the integrity error alone (R58, R189). -/
theorem settle_calm (h : (settle p).fault.deviceFatal = p.fault.deviceFatal) :
    settle p = { p with fault := { p.fault with fatalDue := false } } := by
  unfold settle at h ⊢
  cases hd : p.fault.fatalDue with
  | false =>
    have : p.fault = { p.fault with fatalDue := false } := by rw [← hd]
    rw [if_neg (by simp), ← this]
  | true =>
    rw [hd, if_pos rfl] at h
    cases hf : p.fault.deviceFatal with
    | true => simp [modFault]
    | false =>
      have hx := enterDeviceFatal_flag p
      simp [hf] at h
      rw [hx] at h
      cases h

theorem settle_inFatal (h : p.fault.deviceFatal = true) : settle p = { p with fault := { p.fault with fatalDue := false } } := by
  refine settle_calm ?_
  unfold settle
  split
  · simp [h]
  · rfl

theorem settle_lanes : (settle p).lanes = if p.fault.fatalDue = true ∧ p.fault.deviceFatal = false
    then Four.make (fun m => deviceFatalled (p.lanes.get m)) else p.lanes := by
  unfold settle
  by_cases hd : p.fault.fatalDue = true
  · rw [if_pos hd]
    cases hf : p.fault.deviceFatal with
    | false => simp [hd, enterDeviceFatal_lanes]
    | true => simp
  · rw [if_neg hd, if_neg (fun h => hd h.1)]

end Settle

end Sys2Proof.Machine.LaneEnds
end

section
/-! SUPPORT. STOP (R132) and HALT (R113, R133, R164, R175). -/

namespace Sys2Proof.Machine.StopAnswers

open Frames Keeping LaneValues HistoryLaw LaneEnds DeviceAnswers

/-! ### The lane -/

/-- A lane that is taken out of its running states without a fault (R132 steps 1, 2 and 3, R133). -/
def cleared (l : Lane) : Lane := { carryFlushed (abandoned l) with tcCount := 0, fresh := true }

/-- A lane whose acquire timer is cleared with the START that it belongs to. -/
def unarmed (b : Bool) (l : Lane) : Lane := if b then { l with acquireAt := none } else l

section Lane
variable (n : Ix) (p : Part)

theorem haltStart_lanes : (haltStart n p).lanes = p.lanes.modify n (unarmed (decide (laneOpKind p n = some .start))) := by
  unfold haltStart
  split <;> rename_i h
  · simp [h]
    rfl
  · simp [h, unarmed, Four.modify]

theorem clearTimecode_lanes : (resetTimecode n (clearLane n p)).lanes = p.lanes.modify n cleared := by
  simp [resetTimecode]
  rfl

/-- A lane that a STOP has returned (R132). -/
def stopped (b : Bool) (l : Lane) : Lane := { swapped (unarmed b (cleared l)) with
  holdCount := 0
  state := .stopped
  laneCtr := { l.laneCtr with stops := bump l.laneCtr.stops } }

theorem stopLane_lanes : (stopLane n p).lanes = p.lanes.modify n (stopped (decide (laneOpKind p n = some .start))) := by
  have hkind : laneOpKind (resetTimecode n (clearLane n p)) n = laneOpKind p n := by simp [laneOpKind, resetTimecode]
  simp only [stopLane, bumpLane_eq, modLane_lanes, leaveRunning_lanes, clearHold, commitSwap_lanes, haltStart_lanes,
    clearTimecode_lanes, hkind, Four.modify_modify]
  refine congrArg (p.lanes.modify n) (funext fun l => ?_)
  have hctr : (swapped (unarmed (decide (laneOpKind p n = some .start)) (cleared l))).laneCtr = l.laneCtr := by
    unfold swapped unarmed
    split_ifs <;> split <;> exact abandoned_laneCtr l
  simp only [stopped, hctr]

end Lane

section Fields
variable (b : Bool) (l : Lane)

theorem abandoned_job : (abandoned l).job = if l.job.inFlight then { l.job with inFlight := false, pinned := [], kept := none } else l.job := by
  unfold abandoned
  split <;> rfl

theorem swapped_idle (h : l.job.inFlight = false) : swapped l = { l with
    tables := (match l.commit with | some c => swapTables c l.tables | none => l.tables), commit := none } := by
  have hk : keepRows l = l.job := by simp [keepRows, h]
  cases hc : l.commit with
  | some c =>
    have hs : swapped l = { l with tables := swapTables c l.tables, commit := none, job := keepRows l } := by
      rw [swapped, hc]
    rw [hs, hk]
  | none =>
    have hs : swapped l = l := by rw [swapped, hc]
    have he : { l with tables := l.tables, commit := none } = l := by rw [← hc]
    exact hs.trans he.symm

theorem cleared_eq : cleared l = { l with
    job := (abandoned l).job
    jobCtr := (abandoned l).jobCtr
    carry := []
    carryCtr := { l.carryCtr with itemsFlushed := bumpBy l.carry.length l.carryCtr.itemsFlushed }
    tcCount := 0
    fresh := true } := by
  unfold cleared carryFlushed abandoned
  split <;> rfl

theorem abandoned_jobCtr : (abandoned l).jobCtr =
    if l.job.inFlight then { l.jobCtr with jobsAbandoned := bump l.jobCtr.jobsAbandoned } else l.jobCtr := by
  unfold abandoned
  split <;> rfl

theorem stopped_eq : stopped b l = { cleared l with
    acquireAt := if b then none else l.acquireAt
    tables := (match l.commit with | some c => swapTables c l.tables | none => l.tables)
    commit := none
    holdCount := 0
    state := .stopped
    laneCtr := { l.laneCtr with stops := bump l.laneCtr.stops } } := by
  have hidle : (unarmed b (cleared l)).job.inFlight = false := by
    unfold unarmed
    split <;> exact abandoned_inFlight l
  rw [stopped, swapped_idle _ hidle, cleared_eq]
  cases b <;> rfl

end Fields

/-! ### The replies -/

section Replies
variable {n m : Ix} {p : Part}

theorem haltStart_replies : ((haltStart n p).outs.get m).replies = (p.outs.get m).replies ++
    (if laneOpKind p n = some .start then endReplies m .halted (p.mgmt.laneOps.get n) else []) := by
  unfold haltStart
  split
  · exact endLaneOp_replies .halted
  · simp

theorem haltStart_mgmt : (haltStart n p).mgmt = if laneOpKind p n = some .start
    then { p.mgmt with laneOps := p.mgmt.laneOps.set n none } else p.mgmt := by
  unfold haltStart
  split
  · simp
  · rfl

theorem commitSwap_replies : ((commitSwap n p).outs.get m).replies = (p.outs.get m).replies ++
    (if (p.lanes.get n).commit.isSome then endReplies m .complete (p.mgmt.laneOps.get n) else []) := by
  unfold commitSwap
  split <;> rename_i h
  · simp only [h, Option.isSome_some, if_true]
    exact endLaneOp_replies .complete
  · simp [h]

theorem commitSwap_mgmt : (commitSwap n p).mgmt = if (p.lanes.get n).commit.isSome
    then { p.mgmt with laneOps := p.mgmt.laneOps.set n none } else p.mgmt := by
  unfold commitSwap
  split <;> rename_i h
  · simp [h]
  · simp [h]

/-- What a STOP has still pending once its job and its carried items are gone. -/
theorem clearedPart_pending : (resetTimecode n (clearLane n p)).mgmt = p.mgmt
    ∧ laneOpKind (resetTimecode n (clearLane n p)) n = laneOpKind p n
    ∧ ((haltStart n (resetTimecode n (clearLane n p))).lanes.get n).commit = (p.lanes.get n).commit := by
  refine ⟨by simp [resetTimecode], by simp [laneOpKind, resetTimecode], ?_⟩
  rw [haltStart_lanes, clearTimecode_lanes, Four.modify_modify, Four.get_modify_same]
  unfold unarmed
  split <;> rw [cleared_eq]

/-- The replies that a STOP posts before its own: the DONE of a START or of a COMMIT that was pending (R132). -/
theorem stopLane_replies : ((stopLane n p).outs.get m).replies = (p.outs.get m).replies ++
    (if laneOpKind p n = some .start then endReplies m .halted (p.mgmt.laneOps.get n)
     else if (p.lanes.get n).commit.isSome then endReplies m .complete (p.mgmt.laneOps.get n) else []) := by
  obtain ⟨hops, hkind, hcommit⟩ := clearedPart_pending (n := n) (p := p)
  have houts : ((resetTimecode n (clearLane n p)).outs.get m).replies = (p.outs.get m).replies :=
    (mild_clearLane n p).replies
  show ((leaveRunning _ _ (clearHold n (commitSwap n (haltStart n (resetTimecode n (clearLane n p)))))).outs.get m).replies = _
  rw [(mild_leaveRunning _ _ _).replies]
  show ((commitSwap n (haltStart n (resetTimecode n (clearLane n p)))).outs.get m).replies = _
  rw [commitSwap_replies, haltStart_replies, haltStart_mgmt, hcommit, hkind, hops, houts]
  split_ifs <;> simp [endReplies]

theorem stopLane_mgmt : (stopLane n p).mgmt =
    if laneOpKind p n = some .start ∨ (p.lanes.get n).commit.isSome = true
    then { p.mgmt with laneOps := p.mgmt.laneOps.set n none } else p.mgmt := by
  obtain ⟨hops, hkind, hcommit⟩ := clearedPart_pending (n := n) (p := p)
  simp only [stopLane, bumpLane_eq, modLane_mgmt, leaveRunning_frame, clearHold, commitSwap_mgmt, haltStart_mgmt, hcommit,
    hkind, hops]
  split_ifs <;> simp_all

end Replies

/-! ### The part -/

section Part
variable {n : Ix} {p : Part}

theorem mild_haltStart (n : Ix) (p : Part) : (haltStart n p).fault = p.fault := by
  unfold haltStart
  split
  · simp
  · rfl

theorem mild_stopLane (n : Ix) (p : Part) : MildFault p.fault (stopLane n p).fault := by
  have h := (mild_leaveRunning n .stopped (clearHold n (commitSwap n (haltStart n (resetTimecode n (clearLane n p)))))).toMildFault
  have hf : (clearHold n (commitSwap n (haltStart n (resetTimecode n (clearLane n p))))).fault = (clearLane n p).fault := by
    simp [clearHold, mild_haltStart, resetTimecode]
  rw [hf] at h
  exact (mild_clearLane n p).toMildFault.trans h

theorem stopLane_drained (n : Ix) (p : Part) : drained (p.lanes.get n).profile.source (stopLane n p) := by
  have hprof : ((clearHold n (commitSwap n (haltStart n (resetTimecode n (clearLane n p))))).lanes.get n).profile =
      (p.lanes.get n).profile := by
    simp only [clearHold, modLane_lanes, commitSwap_lanes, haltStart_lanes, clearTimecode_lanes, Four.modify_modify,
      Four.get_modify_same]
    unfold swapped unarmed
    split_ifs <;> split <;> rw [cleared_eq]
  have h := leaveRunning_drained n .stopped (clearHold n (commitSwap n (haltStart n (resetTimecode n (clearLane n p)))))
  rw [hprof] at h
  refine drained_of (runningCount_modLane (n := n)
    (g := fun l => { l with laneCtr := { l.laneCtr with stops := bump l.laneCtr.stops } }) rfl ?_) rfl h
  simp [stopLane, sources]

/-- The end of a step leaves of a STOPPED lane all but its state and its count of faults (R135). -/
theorem settle_stopped (h : (p.lanes.get n).state = .stopped) : ∃ s c, (settle p).lanes.get n =
    { p.lanes.get n with state := s, laneCtr := { (p.lanes.get n).laneCtr with faults := c } } := by
  rw [settle_lanes]
  split
  · rw [Four.get_make, deviceFatalled, h]
    exact ⟨_, _, rfl⟩
  · exact ⟨(p.lanes.get n).state, (p.lanes.get n).laneCtr.faults, rfl⟩

end Part

/-- The part that a STOP to a running lane leaves before the end of its step (R132). -/
def stopAnswered (cmd : Command) (n : Ix) (q : Part) : Part :=
  countTake false (postReply cmd.link (completeReply 10 cmd q []) (stopLane n (openTake 10 cmd.link q)))

section Answered
variable (cmd : Command) (n m : Ix) (q : Part)

theorem stopAnswered_lane : ((stopAnswered cmd n q).lanes.get n) =
    stopped (decide (laneOpKind q n = some .start)) (q.lanes.get n) := by
  have h := stopLane_lanes n (openTake 10 cmd.link q)
  show (stopLane n (openTake 10 cmd.link q)).lanes.get n = _
  rw [h, Four.get_modify_same]
  rfl

theorem stopAnswered_ops : (stopAnswered cmd n q).mgmt.laneOps =
    if laneOpKind q n = some .start ∨ (q.lanes.get n).commit.isSome = true then q.mgmt.laneOps.set n none
    else q.mgmt.laneOps := by
  show (stopLane n (openTake 10 cmd.link q)).mgmt.laneOps = _
  rw [stopLane_mgmt, apply_ite Mgmt.laneOps]
  rfl

theorem stopAnswered_flag : (stopAnswered cmd n q).fault.deviceFatal = q.fault.deviceFatal :=
  (mild_stopLane n (openTake 10 cmd.link q)).deviceFatal

theorem stopAnswered_drained : drained (q.lanes.get n).profile.source (stopAnswered cmd n q) :=
  stopLane_drained n (openTake 10 cmd.link q)

theorem openTake_replies (code : Byte) : ((openTake code cmd.link q).outs.get m).replies = (q.outs.get m).replies := by
  rw [openTake_eq, Four.get_modify]
  split <;> rfl

theorem postReply_replies (r : Reply) (p : Part) : ((postReply cmd.link r p).outs.get m).replies =
    (p.outs.get m).replies ++ if m = cmd.link then [r] else [] := by
  rw [postReply, modOut_outs, Four.get_modify]
  split <;> simp

theorem stopAnswered_replies : ((stopAnswered cmd n q).outs.get m).replies = (q.outs.get m).replies ++
    (if laneOpKind q n = some .start then endReplies m .halted (q.mgmt.laneOps.get n)
     else if (q.lanes.get n).commit.isSome then endReplies m .complete (q.mgmt.laneOps.get n) else [])
    ++ if m = cmd.link then [completeReply 10 cmd q []] else [] := by
  show ((postReply cmd.link _ _).outs.get m).replies = _
  rw [postReply_replies, stopLane_replies, openTake_replies]
  rfl

end Answered

/-- The replies of a command that ended an operation with status `st` (R174): the DONE of the operation to its own link, the
command's own reply last. -/
theorem replies_after {rs : Ix → List Reply} {link : Ix} {old : Ix → List Reply} {op : PendingOp} {st : DoneStatus} {r : Reply}
    (h : ∀ m, rs m = old m ++ endReplies m st (some op) ++ if m = link then [r] else []) :
    (op.origin = link → rs link = old link ++ [⟨op.tag, op.code, .done, doneWord st, op.restart, []⟩, r])
      ∧ (op.origin ≠ link → rs op.origin = old op.origin ++ [⟨op.tag, op.code, .done, doneWord st, op.restart, []⟩]
        ∧ rs link = old link ++ [r]) := by
  refine ⟨fun e => ?_, fun e => ⟨?_, ?_⟩⟩
  · simp [h, endReplies, e]
  · simp [h, endReplies, e]
  · simp [h, endReplies, e]

/-- Settles O50. -/
theorem stopReturnsTheLane : Obligations.StopReturnsTheLane := by
  rintro env cmd s q h rfl
  refine ⟨fun hn => immediate_refused ruleStop h rfl (by rw [ruleStop, hn]; rfl), fun n l hn hl => ?_⟩
  have hrule : ∀ p : Part, ruleStop cmd p =
      if cmd.payload ≠ [] then deny .badLength
      else if (p.lanes.get n).state = .faulted then deny .wrongState
      else if (p.lanes.get n).state = .stopped then .ok (p, [])
      else .ok (stopLane n p, []) := fun p => by rw [ruleStop, hn]
  have hlane : (openTake 10 cmd.link (partAt 10 env cmd s)).lanes.get n = l := hl.symm
  split
  · next h1 => exact immediate_refused ruleStop h rfl ((hrule _).trans (if_pos h1))
  next h1 =>
  split
  · next h2 =>
    exact immediate_refused ruleStop h rfl ((hrule _).trans ((if_neg h1).trans (if_pos (by rw [hlane, h2]))))
  next h2 =>
  split
  · next h3 =>
    exact immediate_answered ruleStop h rfl
      ((hrule _).trans ((if_neg h1).trans ((if_neg (by rwa [hlane])).trans (if_pos (by rw [hlane, h3])))))
  next h3 =>
  have hr := (hrule (openTake 10 cmd.link (partAt 10 env cmd s))).trans
    ((if_neg h1).trans ((if_neg (by rwa [hlane])).trans (if_neg (by rwa [hlane]))))
  have hx : exec (.stop env cmd) s = .next { s with
      part := settle (takeImmediate 10 cmd (ruleStop cmd) (partAt 10 env cmd s)) } := immediate_taken ruleStop h
  have hp : takeImmediate 10 cmd (ruleStop cmd) (partAt 10 env cmd s) = stopAnswered cmd n (partAt 10 env cmd s) := by
    rw [takeImmediate, answerNow, hr]
    rfl
  have hflag : (partAt 10 env cmd s).fault.deviceFatal = s.part.fault.deviceFatal := congrArg FaultUnit.deviceFatal partAt_fault
  have hops : (partAt 10 env cmd s).mgmt.laneOps = s.part.mgmt.laneOps := by simp
  have hlatest : laneOpKind s.part n = laneOpKind (partAt 10 env cmd s) n := by rw [laneOpKind, laneOpKind, hops]
  rw [hp] at hx
  refine ⟨_, hx, ?_⟩
  rw [← hflag, ← hops, hlatest]
  dsimp only
  clear hx hp hr hlane hrule h hflag hops hlatest
  generalize partAt 10 env cmd s = q at *
  have hlane := stopAnswered_lane cmd n q
  rw [← hl] at hlane
  obtain ⟨st, c, hsettled⟩ := settle_stopped (n := n) (p := stopAnswered cmd n q) (by rw [hlane, stopped_eq])
  have hcalm (hf : (settle (stopAnswered cmd n q)).fault.deviceFatal = q.fault.deviceFatal) :
      settle (stopAnswered cmd n q) = { stopAnswered cmd n q with fault := { (stopAnswered cmd n q).fault with fatalDue := false } } :=
    settle_calm (hf.trans (stopAnswered_flag cmd n q).symm)
  have hdrained := settle_drained (stopAnswered_drained cmd n q)
  rw [← hl] at hdrained
  have hreplies := fun m => stopAnswered_replies cmd n m q
  rw [hlane, stopped_eq, cleared_eq] at hsettled
  rw [hsettled, abandoned_job, ← abandoned_jobCtr]
  refine ⟨rfl, rfl, rfl, rfl, rfl, rfl, rfl, rfl, rfl, rfl, rfl, fun hf => ?_, fun hk => ⟨?_, ?_⟩, hdrained, rfl,
    fun hf => ⟨fun hnone => ?_, fun op status hop hst => ⟨?_, ?_⟩⟩⟩
  · have hst := congrArg Lane.state hsettled
    rw [hcalm hf] at hst
    exact hst.symm.trans (by rw [show ({ stopAnswered cmd n q with fault := _ } : Part).lanes.get n = _ from hlane, stopped_eq])
  · have hnone : (stopAnswered cmd n q).mgmt.laneOps.get n = none := by
      rw [stopAnswered_ops, if_pos (.inl hk), Four.get_set_same]
    rw [laneOpKind, settle_none hnone]
    rfl
  · simp only [hk, decide_true, if_true]
  · rw [hcalm hf]
    refine (hreplies cmd.link).trans ?_
    simp [laneOpKind, hnone, endReplies]
  · rw [hcalm hf]
    refine (congrArg (fun v => Four.get v n) (stopAnswered_ops cmd n q)).trans ?_
    rw [if_pos, Four.get_set_same]
    rcases hst with ⟨hs, -⟩ | ⟨-, hc, -⟩
    · exact .inl (by rw [laneOpKind, hop, ← hs]; rfl)
    · exact .inr (hl ▸ hc)
  · have hended : ∃ d : DoneStatus, doneWord d = status ∧ ∀ m, ((settle (stopAnswered cmd n q)).outs.get m).replies =
        (q.outs.get m).replies ++ endReplies m d (some op) ++ if m = cmd.link then [completeReply 10 cmd q []] else [] := by
      rw [hcalm hf, ← hop]
      rcases hst with ⟨hs, rfl⟩ | ⟨hs, hc, rfl⟩
      · have hkind : laneOpKind q n = some .start := by rw [laneOpKind, hop, ← hs]; rfl
        exact ⟨.halted, rfl, fun m => (hreplies m).trans (by rw [if_pos hkind])⟩
      · have hkind : laneOpKind q n ≠ some .start := by simp [laneOpKind, hop, hs]
        exact ⟨.complete, rfl, fun m => (hreplies m).trans (by rw [if_neg hkind, ← hl, if_pos hc])⟩
    obtain ⟨d, rfl, hall⟩ := hended
    exact replies_after hall

end Sys2Proof.Machine.StopAnswers
end

section
/-! SUPPORT. HALT of a lane's COMMIT or START and of an output's RELOCK (R113, R133, R164, R175). -/

namespace Sys2Proof.Machine.StopAnswers

open Frames Keeping LaneValues HistoryLaw LaneEnds DeviceAnswers

section Tests
variable {cmd : Command} {n : Ix} {p : Part}

theorem ruleHalt_lane (h : laneTarget cmd = some n) :
    ruleHalt cmd p = if cmd.payload ≠ [] then deny .badLength else haltLane n p := by
  rw [ruleHalt, h]

theorem laneTarget_output (h : outTarget cmd = some n) : laneTarget cmd = none := by
  unfold outTarget at h
  unfold laneTarget
  split at h <;> simp_all

theorem ruleHalt_output (h : outTarget cmd = some n) :
    ruleHalt cmd p = if cmd.payload ≠ [] then deny .badLength else haltOutput n p := by
  rw [ruleHalt, h, laneTarget_output h]

theorem haltLane_none (h : p.mgmt.laneOps.get n = none) : haltLane n p = deny .nothingPending := by
  rw [haltLane, laneOpKind, h]
  rfl

theorem haltLane_some {op : PendingOp} (h : p.mgmt.laneOps.get n = some op) : haltLane n p = .ok (match op.op with
    | .start => haltLaneStart n p
    | .commit => haltLaneCommit n p
    | .relock => endLaneOp n .halted p, []) := by
  rw [haltLane, laneOpKind, h]
  simp only [Option.map_some]
  split <;> simp_all

end Tests

/-! ### A lane's START -/

section Start
variable (cmd : Command) (n m : Ix) (q p : Part)

/-- A lane whose START has been halted (R133). -/
def haltedLane (l : Lane) : Lane := { cleared l with holdCount := 0, state := .stopped, acquireAt := none }

theorem clearedPart_mgmt : (leaveRunning n .stopped (clearHold n (resetTimecode n (clearLane n p)))).mgmt = p.mgmt := by
  simp [clearHold, resetTimecode]

theorem haltLaneStart_lanes (h : laneOpKind p n = some .start) :
    (haltLaneStart n p).lanes = p.lanes.modify n haltedLane := by
  have hk : laneOpKind (leaveRunning n .stopped (clearHold n (resetTimecode n (clearLane n p)))) n = some .start := by
    rw [laneOpKind, clearedPart_mgmt]
    exact h
  rw [haltLaneStart, haltStart_lanes, hk]
  simp only [leaveRunning_lanes, clearHold, modLane_lanes, clearTimecode_lanes, Four.modify_modify]
  rfl

theorem haltLaneStart_ops (h : laneOpKind p n = some .start) :
    (haltLaneStart n p).mgmt.laneOps.get n = none := by
  rw [haltLaneStart, haltStart_mgmt, laneOpKind, clearedPart_mgmt]
  rw [laneOpKind] at h
  rw [if_pos h]
  exact Four.get_set_same ..

theorem haltLaneStart_replies (h : laneOpKind p n = some .start) : ((haltLaneStart n p).outs.get m).replies =
    (p.outs.get m).replies ++ endReplies m .halted (p.mgmt.laneOps.get n) := by
  rw [laneOpKind] at h
  rw [haltLaneStart, haltStart_replies, laneOpKind, clearedPart_mgmt, if_pos h, (mild_leaveRunning _ _ _).replies]
  exact congrArg (· ++ _) (mild_clearLane n p).replies

theorem haltLaneStart_flag : (haltLaneStart n p).fault.deviceFatal = p.fault.deviceFatal := by
  rw [haltLaneStart, mild_haltStart, (mild_leaveRunning _ _ _).deviceFatal]
  exact (mild_clearLane n p).deviceFatal

end Start

/-! ### A lane's COMMIT and an output's RELOCK -/

section Ends
variable {cmd : Command} {n : Ix} {q : Part} {op : PendingOp}

/-- The outputs after a HALT: the DONE of what it ended, into the place kept for it, then its own (R174, R175). -/
def haltOuts (cmd : Command) (op : PendingOp) (r : Reply) (outs : Four OutUnit) : Four OutUnit :=
  withReplies (outs.modify op.origin (fun o => { o with
    replies := o.replies ++ [⟨op.tag, op.code, .done, 2, op.restart, []⟩]
    reserved := (if op.origin = cmd.link then o.reserved + 1 else o.reserved) - 1
      - (if op.origin = cmd.link then 1 else 0) })) cmd.link [r]

theorem halt_outs (r : Reply) {code : Byte} (hneed : need code = 1) :
    (postReply cmd.link r (postDone op .halted (openTake code cmd.link q))).outs = haltOuts cmd op r q.outs := by
  refine Four.get_ext fun m => ?_
  simp only [postReply, postDone, modOut_outs, openTake_eq, hneed, haltOuts, withReplies, Four.get_modify]
  by_cases h1 : m = op.origin
  · by_cases h2 : m = cmd.link
    · have e : op.origin = cmd.link := h1.symm.trans h2
      simp [h1, e]
      rfl
    · have e : op.origin ≠ cmd.link := fun e => h2 (h1.trans e)
      simp [h1, e]
      rfl
  · by_cases h2 : m = cmd.link
    · subst h2
      simp [h1]
    · simp [h1, h2]

theorem endLaneOp_some {p : Part} (st : DoneStatus) (h : p.mgmt.laneOps.get n = some op) : endLaneOp n st p =
    postDone op st (modMgmt (fun m => { m with laneOps := m.laneOps.set n none }) p) := by rw [endLaneOp, h]

theorem endOutOp_some {p : Part} (st : DoneStatus) (h : p.mgmt.outOps.get n = some op) : endOutOp n st p =
    postDone op st (modMgmt (fun m => { m with outOps := m.outOps.set n none }) p) := by rw [endOutOp, h]

/-- A DONE and a reply change the outputs alone, and a take that ends the management unit. -/
theorem posted_frame (l : Ix) (r : Reply) (f : Lane → Lane) (g : Mgmt → Mgmt) (p : Part) :
    countTake false (postReply l r (modLane n f (postDone op .halted (modMgmt g p)))) =
      { p with
        lanes := p.lanes.modify n f
        outs := (postReply l r (postDone op .halted p)).outs
        mgmt := { g p.mgmt with ctr := { (g p.mgmt).ctr with commandsTaken := bump (g p.mgmt).ctr.commandsTaken } } } := rfl

theorem posted_frame_out (l : Ix) (r : Reply) (g : Mgmt → Mgmt) (p : Part) :
    countTake false (postReply l r (postDone op .halted (modMgmt g p))) =
      { p with
        outs := (postReply l r (postDone op .halted p)).outs
        mgmt := { g p.mgmt with ctr := { (g p.mgmt).ctr with commandsTaken := bump (g p.mgmt).ctr.commandsTaken } } } := rfl

/-- A COMMIT that is halted: its record gone, its DONE before the HALT's own (R164, R175). -/
theorem haltLaneCommit_answered (r : Reply) {code : Byte} (hneed : need code = 1) (h : q.mgmt.laneOps.get n = some op) :
    countTake false (postReply cmd.link r (haltLaneCommit n (openTake code cmd.link q))) = answered cmd.link r false
      { q with
        lanes := q.lanes.modify n (fun l => { l with commit := none })
        mgmt := { q.mgmt with laneOps := q.mgmt.laneOps.set n none }
        outs := q.outs.modify op.origin (fun o => { o with
          replies := o.replies ++ [⟨op.tag, op.code, .done, 2, op.restart, []⟩]
          reserved := (if op.origin = cmd.link then o.reserved + 1 else o.reserved) - 1
            - (if op.origin = cmd.link then 1 else 0) }) } := by
  have hc : haltLaneCommit n (openTake code cmd.link q) = modLane n (fun l => { l with commit := none })
      (postDone op .halted (modMgmt (fun m => { m with laneOps := m.laneOps.set n none }) (openTake code cmd.link q))) := by
    rw [haltLaneCommit, endLaneOp_some (p := openTake code cmd.link q) .halted h]
  rw [hc, posted_frame, halt_outs r hneed]
  rfl

/-- A RELOCK that is halted: it waits no longer, and its output is left as it is (R113, R175). -/
def haltedRelock (cmd : Command) (n : Ix) (op : PendingOp) (r : Reply) (q : Part) : Part := { q with
  outs := haltOuts cmd op r (q.outs.modify n (fun o => { o with relockPending := false }))
  mgmt := { servedMgmt q.mgmt cmd.link false with outOps := q.mgmt.outOps.set n none } }

theorem modOut_openTake (code : Byte) (l : Ix) (p : Part) :
    modOut n (fun o => { o with relockPending := false }) (openTake code l p) =
      openTake code l (modOut n (fun o => { o with relockPending := false }) p) := by
  have ho : (p.outs.modify l (fun o => { o with reserved := o.reserved + need code })).modify n
      (fun o => { o with relockPending := false }) = (p.outs.modify n (fun o => { o with relockPending := false })).modify l
      (fun o => { o with reserved := o.reserved + need code }) := by
    refine Four.get_ext fun m => ?_
    simp only [Four.get_modify]
    split_ifs <;> rfl
  simp only [openTake_eq, modOut, ho]

theorem endRelock_answered (r : Reply) {code : Byte} (hneed : need code = 1) (h : q.mgmt.outOps.get n = some op) :
    countTake false (postReply cmd.link r (endRelock n .halted (openTake code cmd.link q))) = haltedRelock cmd n op r q := by
  rw [endRelock, modOut_openTake, endOutOp_some (p := openTake code cmd.link (modOut n _ q)) .halted h, posted_frame_out,
    halt_outs r hneed]
  rfl

end Ends

/-- The part that a HALT of a START leaves before the end of its step (R133). -/
def haltAnswered (cmd : Command) (n : Ix) (q : Part) : Part :=
  countTake false (postReply cmd.link (completeReply 20 cmd q []) (haltLaneStart n (openTake 20 cmd.link q)))

section Takes
variable {cmd : Command} {n : Ix} {q : Part} {op : PendingOp} {s : State}

/-- The take of a HALT to a lane with an operation pending (R175). -/
theorem takeHalt_lane {p' : Part} (hn : laneTarget cmd = some n) (hp : cmd.payload = [])
    (hr : haltLane n (openTake 20 cmd.link q) = .ok (p', [])) :
    takeImmediate 20 cmd (ruleHalt cmd) q = countTake false (postReply cmd.link (completeReply 20 cmd q []) p') := by
  rw [takeImmediate, answerNow, ruleHalt_lane hn, if_neg (not_not.2 hp), hr]
  rfl

/-- The take of a HALT to an output with a RELOCK pending (R113, R175). -/
theorem takeHalt_output (hn : outTarget cmd = some n) (hp : cmd.payload = []) (hop : q.mgmt.outOps.get n = some op) :
    takeImmediate 20 cmd (ruleHalt cmd) q = haltedRelock cmd n op (completeReply 20 cmd q []) q := by
  have hr : haltOutput n (openTake 20 cmd.link q) = .ok (endRelock n .halted (openTake 20 cmd.link q), []) := by
    have hop' : (openTake 20 cmd.link q).mgmt.outOps.get n = some op := hop
    rw [haltOutput, hop']
    rfl
  rw [takeImmediate, answerNow, ruleHalt_output hn, if_neg (not_not.2 hp), hr]
  exact endRelock_answered (completeReply 20 cmd q []) rfl hop

/-- What a halted RELOCK leaves of each output. -/
theorem haltedRelock_out (r : Reply) (m : Ix) : ((haltedRelock cmd n op r q).outs.get m).lock = (q.outs.get m).lock
    ∧ ((haltedRelock cmd n op r q).outs.get m).relockPending = (if m = n then false else (q.outs.get m).relockPending)
    ∧ ((haltedRelock cmd n op r q).outs.get m).replies =
      (q.outs.get m).replies ++ endReplies m .halted (some op) ++ (if m = cmd.link then [r] else []) := by
  simp only [haltedRelock, haltOuts, withReplies, Four.get_modify, endReplies, eq_comm (a := op.origin)]
  refine ⟨?_, ?_, ?_⟩
  · split_ifs <;> rfl
  · split_ifs <;> rfl
  · split_ifs <;> simp [doneWord]

theorem settle_answered {l : Ix} {r : Reply} {b : Bool} {p : Part} (h : p.fault.fatalDue = false) :
    settle (answered l r b p) = answered l r b p := settle_quiet h

theorem haltedRelock_reserved (r : Reply) :
    ((haltedRelock cmd n op r q).outs.get op.origin).reserved = (q.outs.get op.origin).reserved - 1 := by
  simp only [haltedRelock, haltOuts, withReplies, Four.get_modify]
  split_ifs <;> simp

end Takes

/-- Settles O57: the tests, then each kind of operation that can be pending. -/
theorem haltEndsTheOperation : Obligations.HaltEndsTheOperation := by
  rintro env cmd s q h rfl
  have hops : (partAt 20 env cmd s).mgmt.laneOps = s.part.mgmt.laneOps := by simp
  have hops' : (partAt 20 env cmd s).mgmt.outOps = s.part.mgmt.outOps := by simp
  have hx : exec (.halt env cmd) s = .next { s with
      part := settle (takeImmediate 20 cmd (ruleHalt cmd) (partAt 20 env cmd s)) } := immediate_taken ruleHalt h
  have hdue := fatalDue_partAt h
  refine ⟨fun h1 h2 => ?_, fun ht hp => ?_, fun n hn hp hnone => ?_, fun n hn hp hnone => ?_, fun n op hn hp hop hk => ?_,
    fun n op hn hp hop hres => ?_, fun n op l hn hp hop hk hl => ?_⟩
  · exact immediate_refused ruleHalt h rfl (by rw [ruleHalt, h1, h2]; rfl)
  · refine immediate_refused ruleHalt h rfl ?_
    rcases ht with ht | ht
    · obtain ⟨n, hn⟩ := Option.isSome_iff_exists.1 ht
      rw [ruleHalt_lane hn, if_pos hp]
      rfl
    · obtain ⟨n, hn⟩ := Option.isSome_iff_exists.1 ht
      rw [ruleHalt_output hn, if_pos hp]
      rfl
  · refine immediate_refused ruleHalt h rfl ?_
    rw [ruleHalt_lane hn, if_neg (not_not.2 hp)]
    exact haltLane_none (by rw [← hnone, ← hops]; rfl)
  · refine immediate_refused ruleHalt h rfl ?_
    rw [ruleHalt_output hn, if_neg (not_not.2 hp)]
    refine if_neg ?_
    rw [show (openTake 20 cmd.link (partAt 20 env cmd s)).mgmt.outOps = s.part.mgmt.outOps from hops', hnone]
    decide
  · have hop' := hop
    rw [← hops] at hop'
    have hr := haltLane_some (p := openTake 20 cmd.link (partAt 20 env cmd s)) (n := n) hop'
    simp only [hk] at hr
    rw [hx, takeHalt_lane hn hp hr, haltLaneCommit_answered _ rfl hop', doneNow]
    clear hx hr hop' hops hops' h
    generalize partAt 20 env cmd s = q at *
    rw [settle_answered]
    exact hdue
  · have hop' := hop
    rw [← hops'] at hop'
    have houts : (partAt 20 env cmd s).outs = s.part.outs := by simp
    have hl : (partAt 20 env cmd s).links = s.part.links := by simp
    have hf : (partAt 20 env cmd s).fault = s.part.fault := partAt_fault
    rw [takeHalt_output hn hp hop', settle_quiet (p := haltedRelock cmd n op _ _) hdue] at hx
    refine ⟨_, hx, ?_⟩
    rw [← houts, ← hl, ← hf]
    clear hx hdue hops hops' h hop hl hf houts
    generalize partAt 20 env cmd s = q at *
    have hreplies := replies_after (old := fun m => (q.outs.get m).replies)
      (fun m => (haltedRelock_out (cmd := cmd) (n := n) (op := op) (q := q) (completeReply 20 cmd q []) m).2.2)
    refine ⟨(haltedRelock_out _ n).1, (haltedRelock_out _ n).2.1.trans (if_pos rfl), rfl, haltedRelock_reserved _,
      hreplies.1, hreplies.2, rfl, rfl, rfl⟩
  · have hop' := hop
    rw [← hops] at hop'
    have hr := haltLane_some (p := openTake 20 cmd.link (partAt 20 env cmd s)) (n := n) hop'
    simp only [hk] at hr
    rw [takeHalt_lane hn hp hr] at hx
    have hflag : (partAt 20 env cmd s).fault.deviceFatal = s.part.fault.deviceFatal := congrArg FaultUnit.deviceFatal partAt_fault
    refine ⟨_, hx, ?_⟩
    rw [← hflag]
    clear hx hdue hops hops' h hop hflag hr
    generalize partAt 20 env cmd s = q at *
    have hkind : laneOpKind (openTake 20 cmd.link q) n = some .start := by
      rw [laneOpKind, show (openTake 20 cmd.link q).mgmt.laneOps.get n = some op from hop', ← hk]
      rfl
    have hlane : (haltAnswered cmd n q).lanes.get n = haltedLane l := by
      rw [hl]
      exact (congrArg (fun v => Four.get v n) (haltLaneStart_lanes n _ hkind)).trans (Four.get_modify_same ..)
    have hnone : (haltAnswered cmd n q).mgmt.laneOps.get n = none := haltLaneStart_ops n _ hkind
    have hflag : (haltAnswered cmd n q).fault.deviceFatal = q.fault.deviceFatal := haltLaneStart_flag n _
    have hreplies : ∀ m, ((haltAnswered cmd n q).outs.get m).replies = (q.outs.get m).replies
        ++ endReplies m .halted (some op) ++ if m = cmd.link then [completeReply 20 cmd q []] else [] := fun m => by
      show ((postReply cmd.link _ _).outs.get m).replies = _
      rw [postReply_replies, haltLaneStart_replies n m _ hkind, openTake_replies, ← hop']
      rfl
    have hstate : ((haltAnswered cmd n q).lanes.get n).state = .stopped := by rw [hlane]; rfl
    show _ ∧ _
    rw [show countTake false (postReply cmd.link (completeReply 20 cmd q []) (haltLaneStart n (openTake 20 cmd.link q))) =
      haltAnswered cmd n q from rfl]
    generalize haltAnswered cmd n q = p at *
    obtain ⟨st, c, hsettled⟩ := settle_stopped hstate
    have hcalm (hf : (settle p).fault.deviceFatal = q.fault.deviceFatal) :
        settle p = { p with fault := { p.fault with fatalDue := false } } := settle_calm (hf.trans hflag.symm)
    rw [hlane, haltedLane, cleared_eq] at hsettled
    refine ⟨settle_none hnone, ?_⟩
    rw [hsettled]
    refine ⟨rfl, ?_, rfl, rfl, rfl, rfl, rfl, abandoned_jobCtr l, rfl, fun hf => ⟨?_, ?_⟩⟩
    · exact abandoned_inFlight l
    · have hst := congrArg Lane.state hsettled
      rw [hcalm hf] at hst
      exact hst.symm.trans hstate
    · rw [hcalm hf]
      exact replies_after hreplies

end Sys2Proof.Machine.StopAnswers
end

section
/-! SUPPORT. What an event of one link leaves alone (R5, R11, R14, R17, R21). -/

namespace Sys2Proof.Machine.LinkLocality

open Frames Keeping LaneEnds

/-- Every block but the lanes that an event of link `n` leaves as it was in `s`. -/
def blocksAlone (n : Ix) (s p : Part) : Prop :=
  (∀ m, m ≠ n → p.links.get m = s.links.get m ∧ p.feeds.get m = s.feeds.get m
      ∧ p.mgmt.queues.get m = s.mgmt.queues.get m ∧ p.mgmt.lost.get m = s.mgmt.lost.get m)
    ∧ p.refA = s.refA ∧ p.refB = s.refB ∧ p.straps = s.straps ∧ p.mute = s.mute ∧ p.fault.mask = s.fault.mask
    ∧ p.fault.deviceFatal = s.fault.deviceFatal

/-- Every lane of another source is as it was in `s`. -/
def lanesAlone (n : Ix) (s p : Part) : Prop :=
  ∀ m, (s.lanes.get m).profile.source ≠ n → p.lanes.get m = s.lanes.get m

section Alone
variable {n m : Ix} {s p q : Part}

theorem blocks_store (n : Ix) (s : Part) : StoreKeeps (blocksAlone n s) := store_free {
  store := fun _ _ _ hp => hp
  black := fun _ _ hp => hp
  line := fun _ _ _ _ _ hp => hp
  report := fun l c d p hp => by simpa [blocksAlone] using hp
  due := fun _ hp => hp
  latch := fun c p hp => by simpa [blocksAlone] using hp }

theorem blocks_modLink {f : LinkRx → LinkRx} (hp : blocksAlone n s p) : blocksAlone n s (modLink n f p) :=
  ⟨fun m hm => by
    rw [modLink_links, Four.get_modify_other _ _ hm]
    exact hp.1 m hm, hp.2⟩

theorem blocks_modFeed {f : Feed → Feed} (hp : blocksAlone n s p) : blocksAlone n s (modFeed n f p) :=
  ⟨fun m hm => by
    rw [modFeed_feeds, Four.get_modify_other _ _ hm]
    exact hp.1 m hm, hp.2⟩

theorem blocks_mgmt (hq : ∀ m, m ≠ n → q.mgmt.queues.get m = p.mgmt.queues.get m ∧ q.mgmt.lost.get m = p.mgmt.lost.get m)
    (hrest : { q with mgmt := p.mgmt, outs := p.outs } = p) (hp : blocksAlone n s p) : blocksAlone n s q := by
  have h : blocksAlone n s { q with mgmt := p.mgmt, outs := p.outs } := hrest.symm ▸ hp
  exact ⟨fun m hm => by
    obtain ⟨h1, h2, h3, h4⟩ := h.1 m hm
    exact ⟨h1, h2, (hq m hm).1.trans h3, (hq m hm).2.trans h4⟩, h.2⟩

theorem blocks_placeReply (hp : blocksAlone n s p) : blocksAlone n s (placeReply n p) := by
  unfold placeReply
  split
  · exact hp
  · exact blocks_mgmt (p := p) (fun m hm => ⟨rfl, Four.get_set_other _ _ hm⟩) rfl hp

theorem blocks_placeNotice (k : Nat) (hp : blocksAlone n s p) : blocksAlone n s (placeNotice n k p) := by
  unfold placeNotice
  dsimp only
  split <;> exact hp

theorem blocks_outs (n : Ix) (s : Part) : OutKeeps (· = n) (blocksAlone n s) where
  out _ _ _ _ hp := hp
  placePackets m o p hm _ hp := by
    subst hm
    exact blocks_placeNotice _ (blocks_placeReply (blocks_placeReply (p := modOut m _ p) hp))
  endRelock m st p hp := by
    have h : blocksAlone n s (endOutOp m st (modOut m (fun o => { o with relockPending := false }) p)) := by
      simpa [blocksAlone] using hp
    exact h
  setRef _ _ _ hall := absurd ((hall 0).trans (hall 1).symm) (by decide)

theorem blocks_lanes (n : Ix) (s : Part) : LaneFree (blocksAlone n s) :=
  { blocks_store n s with
    lane := fun _ _ _ hp => hp
    endLaneOp := fun m st p hp => by simpa [blocksAlone] using hp }

theorem blocks_feeds (n : Ix) (s : Part) : FeedKeeps (· = n) (blocksAlone n s) :=
  feed_at (fun m hm => by
    subst hm
    exact { blocks_store m s with feed := fun _ _ hp => blocks_modFeed hp })
    (fun m f p hm _ hp => by
      subst hm
      exact blocks_modLink hp)

theorem blocks_keeps (n : Ix) (s : Part) : Keeps (· = n) (blocksAlone n s) :=
  ⟨blocks_store n s, blocks_feeds n s, lane_free (blocks_lanes n s) _, blocks_outs n s⟩

/-! ### The lanes -/

theorem lanes_store (n : Ix) (s : Part) : StoreKeeps (lanesAlone n s) := store_blind storeBlind_lanes
  (fun v => ∀ m, (s.lanes.get m).profile.source ≠ n → v.get m = s.lanes.get m)

theorem lanes_outs (n : Ix) (s : Part) : OutFree (lanesAlone n s) where
  out _ _ _ hp := hp
  mgmt _ _ hp := hp
  ref r _ _ hp := by cases r <;> exact hp

theorem lanes_feeds (n : Ix) (s : Part) : FeedKeeps (· = n) (lanesAlone n s) :=
  feed_free { lanes_store n s with feed := fun _ _ _ hp => hp } (fun _ _ _ _ _ hp => hp)

/-- A change of a lane of the link's own feed touches no lane of another. -/
theorem lanesAlone_modify {f : Lane → Lane} (hl : q.lanes = p.lanes.modify m f) (hs : sourceOfLane p m = n)
    (hp : lanesAlone n s p) : lanesAlone n s q := by
  intro k hk
  have hkm : k ≠ m := by
    rintro rfl
    rw [sourceOfLane, hp k hk] at hs
    exact hk hs
  rw [hl, Four.get_modify_other _ _ hkm]
  exact hp k hk

theorem lanesAlone_modLane {f : Lane → Lane} (hs : sourceOfLane p m = n) (hp : lanesAlone n s p) :
    lanesAlone n s (modLane m f p) := lanesAlone_modify (p := p) (m := m) (f := f) rfl hs hp

theorem lanes_lanes (n : Ix) (s : Part) : LaneKeeps (· = n) (lanesAlone n s) where
  lane m f p hs _ hp := lanesAlone_modLane hs hp
  laneRuns m f p hs _ hp := lanesAlone_modLane hs hp
  laneStop m st p hs _ _ _ _ hp := lanesAlone_modLane hs hp
  faultStopped m p hs _ hp := lanesAlone_modLane hs hp
  endJob m p hs hp := lanesAlone_modify (endJob_lanes m p) hs hp
  abandonJob m p hs hp := lanesAlone_modify (abandonJob_lanes m p) hs hp
  carryShrink m f p hs _ hp := lanesAlone_modLane hs hp
  carryPacket k m w p hs _ hp := lanesAlone_modify (carryPacket_lanes k m p w) hs hp
  commitSwap m p hs hp := lanesAlone_modify (commitSwap_lanes m p) hs hp
  endPending m st p hs hp := lanesAlone_modify (p := p) (m := m) (f := fun l => { l with commit := none, acquireAt := none })
    (by simp [clearPending]) hs hp
  endStart m st p hs _ hp := lanesAlone_modify (p := p) (m := m) (f := fun l => { l with acquireAt := none }) (by simp) hs hp
  endCommit m st p hs _ hp := lanesAlone_modify (p := p) (m := m) (f := fun l => { l with commit := none }) (by simp) hs hp
  endOther m st p hs _ hp := lanesAlone_modify (p := p) (m := m) (f := id) (by simp [Four.modify]) hs hp
  jobSet m job p hs _ _ _ _ hp := lanesAlone_modLane hs hp
  pin m source k p hs _ hp := lanesAlone_modify (pinOne_lanes m p source k) hs hp

theorem alone_keeps (n : Ix) (s : Part) : Keeps (· = n) (fun p => blocksAlone n s p ∧ lanesAlone n s p) :=
  (blocks_keeps n s).and ⟨lanes_store n s, lanes_feeds n s, lanes_lanes n s, out_free (lanes_outs n s) _⟩

theorem alone_arrive (ws : List Byte) (h : blocksAlone n s p ∧ lanesAlone n s p) :
    blocksAlone n s (arrive n ws p) ∧ lanesAlone n s (arrive n ws p) := by
  refine ⟨?_, (lanes_outs n s).arrive n ws h.2⟩
  unfold arrive
  split
  · exact blocks_mgmt (p := p) (fun m hm => ⟨rfl, Four.get_modify_other _ _ hm⟩) rfl h.1
  · split
    · exact blocks_mgmt (p := p) (fun m hm => ⟨rfl, Four.get_modify_other _ _ hm⟩) rfl h.1
    · exact blocks_mgmt (p := p) (fun m hm => ⟨Four.get_modify_other _ _ hm, rfl⟩) rfl h.1

/-- What an event of link `n` does at the instant it is given at. -/
theorem linkEvent_effect {i : Instr} {env : Env} (h : linkEvent i = some (n, env)) (st : State) :
    ∃ f : Part → Part, exec i st = happens env f st
      ∧ ∀ P : Part → Prop, Keeps (· = n) P → (∀ ws q, P q → P (arrive n ws q)) → ∀ p, P p → P (f p) := by
  cases i
  case activityGained e m =>
    cases h
    exact ⟨_, rfl, fun P hk _ p hp => hk.gainActivity rfl hp⟩
  case activityLost e m cut =>
    cases h
    exact ⟨_, rfl, fun P hk _ p hp => hk.loseActivity rfl cut hp⟩
  case pictureMarker e m number par blank cut =>
    cases h
    exact ⟨_, rfl, fun P hk _ p hp => hk.takeMarker rfl number par blank cut hp⟩
  case lineStart e m number par blank cut =>
    cases h
    exact ⟨_, rfl, fun P hk _ p hp => hk.takeLine rfl number blank cut hp⟩
  case lineEnd e m ss check =>
    cases h
    exact ⟨_, rfl, fun P hk _ p hp => hk.takeLineEnd rfl ss check hp⟩
  case ancillaryPacket e m words =>
    cases h
    exact ⟨_, rfl, fun P hk ha p hp => hk.takePacket rfl ha words hp⟩
  all_goals cases h

/-- Settles O15: what the event keeps, and the end of the step where device fatal is not entered. -/
theorem linkEventsStayLocal : Obligations.LinkEventsStayLocal := by
  intro i n env s t hi hu hq he hf
  obtain ⟨f, hx, hkeeps⟩ := linkEvent_effect hi s
  rw [hx, happens_quiet _ _ hq] at he
  cases he
  have hbegin : blocksAlone n s.part (begin env.time env.upsets s.part) ∧ lanesAlone n s.part (begin env.time env.upsets s.part) := by
    rw [hu]
    exact ⟨⟨fun m _ => ⟨rfl, rfl, rfl, rfl⟩, rfl, rfl, rfl, rfl, rfl, rfl⟩, fun m _ => rfl⟩
  obtain ⟨hb, hl⟩ := hkeeps _ (alone_keeps n s.part) (fun ws q => alone_arrive ws) _ hbegin
  generalize f (begin env.time env.upsets s.part) = p at *
  rw [settle_calm (hf.trans hb.2.2.2.2.2.2.symm)]
  obtain ⟨hothers, hA, hB, hstraps, hmute, hmask, -⟩ := hb
  exact ⟨hothers, hl, hA, hB, hstraps, hmute, hmask⟩

end Alone


end Sys2Proof.Machine.LinkLocality
end

section
/-! SUPPORT. The end of a slot's black write (R46) and the expiry of the acquire timer (R127). -/

namespace Sys2Proof.Machine.TimedEvents

open Frames Keeping SlotsLaw StoreValues DeviceResetLaws LaneEnds

section Cells
variable {α : Type}

/-- A list without the keys that a test refuses reads as before at the others (R46, R47). -/
theorem cellsGet_filter {a : Nat} {g : Nat → Bool} {m : List (Nat × α)} (h : cellsRising m) :
    cellsGet a (m.filter (fun c => g c.1)) = if g a = true then cellsGet a m else none := by
  induction m with
  | nil => simp [cellsGet]
  | cons c m ih =>
    obtain ⟨hc, hm⟩ := List.pairwise_cons.1 h
    by_cases hg : g c.1 = true
    · rw [List.filter_cons_of_pos (p := fun c : Nat × α => g c.1) hg]
      simp only [cellsGet, ih hm]
      by_cases ha : a = c.1
      · simp [ha, hg]
      · simp only [if_neg ha]
        split_ifs <;> rfl
    · rw [List.filter_cons_of_neg (p := fun c : Nat × α => g c.1) hg, ih hm]
      by_cases ha : a = c.1
      · simp [ha, hg]
      · simp only [cellsGet, if_neg ha]
        by_cases hlt : a < c.1
        · rw [if_pos hlt, cellsGet_none_of_lt (fun d hd => hlt.trans (hc d hd)), ite_self]
        · rw [if_neg hlt]

end Cells

theorem memoryRead_blacken {k : SlotIx} {m : List (Nat × Sample)} (h : memoryWf m) (a : Nat) :
    memoryRead (memoryBlacken k m) a = if a / Config.samplesPerSlot = k.val then blackAt a else memoryRead m a := by
  have hget := cellsGet_filter (a := a) (g := fun b => decide (b / Config.samplesPerSlot ≠ k.val)) h.1
  have hb : memoryBlacken k m = m.filter (fun c => decide (c.1 / Config.samplesPerSlot ≠ k.val)) := rfl
  rw [memoryRead, hb, hget]
  by_cases hk : a / Config.samplesPerSlot = k.val
  · simp [hk]
  · simp [hk, memoryRead]

theorem cellsGet_eccClear {k : SlotIx} {m : List (Nat × EccFault)} (h : cellsRising m) (a : Nat) :
    cellsGet a (eccClear k m) = if a / Config.samplesPerSlot = k.val then none else cellsGet a m := by
  have hget := cellsGet_filter (a := a) (g := fun b => decide (b / Config.samplesPerSlot ≠ k.val)) h
  have hb : eccClear k m = m.filter (fun c => decide (c.1 / Config.samplesPerSlot ≠ k.val)) := rfl
  rw [hb, hget]
  by_cases hk : a / Config.samplesPerSlot = k.val
  · simp [hk]
  · simp [hk]

/-- A record that passes its check where an event finds it was as it is: a failure spoils, it mends nothing (R58). -/
theorem slot_same_of_intact {env : Env} {s : State} {k : SlotIx} (h : (slotOf (foundBy env s) k).intact = true) :
    slotOf (foundBy env s) k = slotOf s.part k := by
  have key : ∀ (us : List Upset) (p : Part), (slotOf (forAll us applyUpset p) k).intact = true → (slotOf p k).intact = true := by
    intro us
    induction us with
    | nil => exact fun _ h => h
    | cons u us ih =>
      intro p h
      have hu := ih (applyUpset u p) h
      cases u with
      | slotRecord j =>
        simp only [applyUpset, slotOf, modStore_store, spoilSlot, Vector.getElem_set] at hu
        split at hu
        · cases hu
        · exact hu
      | storedSample => exact hu
      | tableRow => exact hu
      | carryItem => exact hu
  have hs : (slotOf s.part k).intact = true := key env.upsets s.part h
  rw [found_slot, h, ← hs]

/-! ### The end of a slot's initialisation -/

/-- The store after the black write of slot `k` (R46). -/
def initialised (k : SlotIx) (r : SlotRec) (st : Store) : Store :=
  let slots := st.slots.set k.val { r with state := .free, owner := none }
  let next := skipQuarantined slots 64 (st.initNext + 1)
  { st with
    slots := slots
    freeList := st.freeList ++ [k]
    mem := memoryBlacken k st.mem
    ecc := eccClear k st.ecc
    initNext := next
    initRunning := decide (next < 64)
    initDue := st.initDue + 16875 }

section Init
variable {k : SlotIx} {q : Part}

theorem initEnd_eq (hi : (slotOf q k).intact = true) (hs : (slotOf q k).state = .uninitialized) :
    initEnd k q = { q with store := initialised k (slotOf q k) q.store } := by
  have hr : slotOf (modStore (fun st => { st with mem := memoryBlacken k st.mem, ecc := eccClear k st.ecc }) q) k = slotOf q k := rfl
  have he : initEnd k q = initAdvance (slotToFree k
      (modStore (fun st => { st with mem := memoryBlacken k st.mem, ecc := eccClear k st.ecc }) q)) := by
    unfold initEnd
    simp only [hr, hi, hs, if_true]
  have hrec : (slotOf q k) = { slotOf q k with intact := true } := by rw [← hi]
  rw [he]
  unfold initialised
  rw [hrec]
  rfl

theorem slotOf_initialised (j : SlotIx) : slotOf { q with store := initialised k (slotOf q k) q.store } j =
    if j = k then { slotOf q k with state := .free, owner := none } else slotOf q j :=
  slotOf_set (p := q) rfl j

end Init

/-- Settles O39. -/
theorem slotInitialisationEnds : Obligations.SlotInitialisationEnds := by
  refine ⟨fun upsets s k q hq hm hrun hnext he hi hs => ?_, fun upsets s hq hrun => ?_⟩
  · have hslot : initSlot s.part = some k := by
      have hlt : s.part.store.initNext < 64 := hnext ▸ k.isLt
      simp [initSlot, hrun, hnext]
    have hx : exec (.slotInitialisationEnd upsets) s = _ :=
      fallsDue_quiet (fun p => (initSlot p).map (fun _ => p.store.initDue)) upsets takeInitEnd hq
    rw [hslot] at hx
    simp only [Option.map_some] at hx
    rw [show begin s.part.store.initDue upsets s.part = q from he.symm] at hx
    have hsame : ∀ j, (slotOf q j).state = (slotOf s.part j).state ∧ { slotOf s.part j with intact := (slotOf q j).intact } = slotOf q j := fun j => by
      have h := found_slot ⟨s.part.store.initDue, upsets⟩ s j
      rw [← he] at h
      exact ⟨by rw [h], h.symm⟩
    have hstore : q.store.initRunning = true ∧ q.store.initNext = k.val ∧ q.store.initDue = s.part.store.initDue
        ∧ q.store.freeList = s.part.store.freeList ∧ q.store.mem = s.part.store.mem ∧ q.fault.fatalDue = false := by
      rw [he]
      simp [hrun, hnext, hq.1]
    obtain ⟨hrun', hnext', hdue', hfree', hmem', hfatal'⟩ := hstore
    have htake : takeInitEnd q = { q with store := initialised k (slotOf q k) q.store } := by
      have hslot' : initSlot q = some k := by simp [initSlot, hrun', hnext']
      rw [takeInitEnd, hslot']
      exact initEnd_eq hi ((hsame k).1.trans hs)
    rw [htake, settle_quiet (p := { q with store := initialised k (slotOf q k) q.store }) hfatal'] at hx
    have hok : memoryOk q := he ▸ MemoryLaw.law.begin_kept s.part.store.initDue upsets hm
    have hnextslot := skipQuarantined_spec (q.store.slots.set k.val { slotOf q k with state := .free, owner := none })
      (fuel := 64) (k := q.store.initNext + 1) (by have := k.isLt; omega) (by omega)
    have hinit : (initialised k (slotOf q k) q.store).initNext =
      skipQuarantined (q.store.slots.set k.val { slotOf q k with state := .free, owner := none }) 64 (q.store.initNext + 1) := rfl
    rw [← hinit, hnext'] at hnextslot
    obtain ⟨h1, h2, h3, h4⟩ := hnextslot
    have hset (j : SlotIx) (hj : j ≠ k) :
        ((q.store.slots.set k.val { slotOf q k with state := .free, owner := none })[j]).state = (slotOf s.part j).state := by
      rw [← (hsame j).1]
      exact congrArg SlotRec.state (Vector.getElem_set_ne _ _ (fun e => hj (Fin.ext e.symm)))
    refine ⟨_, hx, ?_, fun j hj => ?_, ?_, fun a => ?_, fun a => ?_, fun _ => ?_, h1, h2, fun j hj hjn => ?_,
      fun j hj => ?_, rfl, rfl, rfl, rfl, rfl, rfl, rfl, rfl, rfl, rfl, rfl, rfl⟩
    · refine (slotOf_initialised (q := q) k).trans ?_
      have hs' : slotOf q k = slotOf s.part k := by
        rw [he] at hi ⊢
        exact slot_same_of_intact hi
      rw [if_pos rfl, hs']
    · exact (slotOf_initialised (q := q) j).trans (if_neg hj)
    · exact congrArg (· ++ [k]) hfree'
    · exact (memoryRead_blacken hok.1 a).trans (by rw [hmem'])
    · exact cellsGet_eccClear hok.2 a
    · exact congrArg (· + 16875) hdue'
    · rw [← hset j (by rintro rfl; omega)]
      exact h3 j hj hjn
    · have hjk : j ≠ k := by
        rintro rfl
        exact absurd (hj ▸ h1) (Nat.lt_irrefl _)
      rw [← hset j hjk]
      exact h4 j hj
  · have hx : exec (.slotInitialisationEnd upsets) s = _ :=
      fallsDue_quiet (fun p => (initSlot p).map (fun _ => p.store.initDue)) upsets takeInitEnd hq
    have hnone : initSlot s.part = none := by simp [initSlot, hrun]
    rw [hx, hnone]
    exact congrArg (fun p => Host.Outcome.next { s with part := p })
      (settle_quiet (p := foundBy ⟨s.part.timebase, upsets⟩ s) (by simp [hq.1]))

/-! ### The expiry of the acquire timer -/

/-- The end of a pending START by its timer (R127). -/
theorem takeTimeout_eq {n : Ix} {p : Part} {op : PendingOp} (hop : p.mgmt.laneOps.get n = some op) (hk : op.op = .start) :
    takeTimeout n p = { p with
      lanes := p.lanes.modify n (fun l => { l with
        acquireAt := none
        laneCtr := { l.laneCtr with acquireTimeouts := bump l.laneCtr.acquireTimeouts } })
      mgmt := { p.mgmt with laneOps := p.mgmt.laneOps.set n none }
      outs := p.outs.modify op.origin (fun o => { o with
        replies := o.replies ++ [⟨op.tag, op.code, .done, 1, op.restart, []⟩]
        reserved := o.reserved - 1 }) } := by
  have hkind : laneOpKind p n = some .start := by rw [laneOpKind, hop, ← hk]; rfl
  have hlanes : ∀ v : Four Lane, (v.modify n (fun l => { l with acquireAt := none })).modify n
      (fun l => { l with laneCtr := { l.laneCtr with acquireTimeouts := bump l.laneCtr.acquireTimeouts } }) =
      v.modify n (fun l => { l with
        acquireAt := none
        laneCtr := { l.laneCtr with acquireTimeouts := bump l.laneCtr.acquireTimeouts } }) := fun v => by
    rw [Four.modify_modify]
  rw [takeTimeout, if_pos hkind, StopAnswers.endLaneOp_some .timeout hop, ← hlanes]
  rfl

/-- Settles O40. -/
theorem acquireTimeoutEndsTheStart : Obligations.AcquireTimeoutEndsTheStart := by
  refine ⟨fun upsets n s due op hq hdue hop hk => ?_, fun upsets n s hq hnone => ?_⟩
  · have hx : exec (.acquireTimeout upsets n) s = _ :=
      fallsDue_quiet (fun p => (p.lanes.get n).acquireAt) upsets (takeTimeout n) hq
    rw [hdue] at hx
    have hf : (foundBy ⟨due, upsets⟩ s).fault.fatalDue = false := by simp [hq.1]
    have hm : (foundBy ⟨due, upsets⟩ s).mgmt = s.part.mgmt := found_mgmt ..
    have ho : (foundBy ⟨due, upsets⟩ s).outs = s.part.outs := found_outs ..
    rw [hx, ← ho, ← hm]
    rw [← hm] at hop
    refine congrArg (fun p => Host.Outcome.next { s with part := p }) ?_
    show settle (takeTimeout n (foundBy ⟨due, upsets⟩ s)) = _
    rw [takeTimeout_eq hop hk]
    exact settle_quiet hf
  · have hx : exec (.acquireTimeout upsets n) s = _ :=
      fallsDue_quiet (fun p => (p.lanes.get n).acquireAt) upsets (takeTimeout n) hq
    rw [hx, hnone]
    exact congrArg (fun p => Host.Outcome.next { s with part := p })
      (settle_quiet (p := foundBy ⟨s.part.timebase, upsets⟩ s) (by simp [hq.1]))

end Sys2Proof.Machine.TimedEvents
end

section
/-! SUPPORT. The three paths of an ancillary packet (R14): the command queue of its link, the label of the newest entry,
and the routing offer to every lane of the feed. -/

namespace Sys2Proof.Machine.PacketPaths

open Frames Keeping LaneEnds

section Event
variable {env : Env} {n : Ix} {words : List (BitVec 10)} {s : State} {k : Packet}

theorem packet_taken (h : quiet s) : exec (.ancillaryPacket env n words) s =
    .next { s with part := settle (takePacket n words (foundBy env s)) } := happens_quiet _ _ h

theorem takePacket_deaf {p : Part} (h : extracts (p.links.get n).state = false) : takePacket n words p = p := by
  rw [takePacket, h]
  rfl

theorem takePacket_failed {p : Part} (h : extracts (p.links.get n).state = true) (ha : acceptPacket words = none) :
    takePacket n words p = packetFailed n p := by
  rw [takePacket, h, ha]
  rfl

theorem takePacket_accepted {p : Part} (h : extracts (p.links.get n).state = true) (ha : acceptPacket words = some k) :
    takePacket n words p = dispatch n k p := by
  rw [takePacket, h, ha]
  rfl

theorem isCommand_found (env : Env) (s : State) (n : Ix) (k : Packet) : isCommand (foundBy env s) n k = isCommand s.part n k := by
  rw [isCommand, isCommand, found_links, found_straps]

theorem isTimecode_found (env : Env) (s : State) (n : Ix) (k : Packet) : isTimecode (foundBy env s) n k = isTimecode s.part n k := by
  rw [isTimecode, isTimecode, found_links]

theorem currentEntry_found (env : Env) (s : State) (n : Ix) : currentEntry (foundBy env s) n = currentEntry s.part n := by
  rw [currentEntry, currentEntry, found_feeds]

end Event

/-! ### The command queue -/

section Arrival
variable {n : Ix} {p : Part}

theorem arrive_short {ws : List Byte} (h : blockOf ws = none) : arrive n ws p = { p with mgmt := { p.mgmt with
    lost := p.mgmt.lost.modify n (saturate 255)
    ctr := { p.mgmt.ctr with shortBlocks := bump p.mgmt.ctr.shortBlocks } } } := by
  rw [arrive, h]
  rfl

theorem arrive_block {ws : List Byte} {b : Block} (h : blockOf ws = some b) : arrive n ws p = { p with mgmt :=
    if 8 ≤ (p.mgmt.queues.get n).length then { p.mgmt with
      lost := p.mgmt.lost.modify n (saturate 255)
      ctr := { p.mgmt.ctr with commandsLost := bump p.mgmt.ctr.commandsLost } }
    else { p.mgmt with queues := p.mgmt.queues.modify n (fun bs => bs ++ [b]) } } := by
  have hmax : (Config.commandMax ≤ (p.mgmt.queues.get n).length) = (8 ≤ (p.mgmt.queues.get n).length) := rfl
  rw [arrive, h]
  simp only [hmax]
  split <;> rfl

end Arrival

/-- Settles O29. -/
theorem packetsReachTheCommandQueue : Obligations.PacketsReachTheCommandQueue := by
  refine ⟨fun env n words s hq hx => ?_, fun env n words s hq hx ha => ?_, fun env n words s k rest hq hx ha hk hsub hl hu => ?_⟩
  · rw [packet_taken hq, takePacket_deaf (by rwa [found_links]), settle_quiet (by simp [hq.1])]
  · rw [packet_taken hq, takePacket_failed (by rwa [found_links]) ha, ← found_links env s, ← found_fault env s, ← found_timebase env s]
    have hf : (foundBy env s).fault.fatalDue = false := by simp [hq.1]
    generalize foundBy env s = q at *
    exact congrArg (fun p => Host.Outcome.next { s with part := p }) (settle_quiet (p := packetFailed n q) hf)
  · have hc : isCommand (foundBy env s) n k = true := by
      have haddr : (BitVec.ofNat 8 s.part.straps.address.val).toNat = s.part.straps.address.val :=
        word_toNat_address s.part.straps.address
      rw [isCommand_found, isCommand, hk, hsub, hl, hu]
      simp [haddr]
    rw [packet_taken hq, takePacket_accepted (by rwa [found_links]) ha, dispatch, if_pos hc, hu, ← found_mgmt env s]
    have hf : (foundBy env s).fault.fatalDue = false := by simp [hq.1]
    generalize foundBy env s = q at *
    have hsettle (m : Mgmt) : settle { q with mgmt := m } = { q with mgmt := m } := settle_quiet hf
    obtain - | ⟨tag, - | ⟨code, - | ⟨target, payload⟩⟩⟩ := rest
    · rw [arrive_short rfl, hsettle]
    · rw [arrive_short rfl, hsettle]
    · rw [arrive_short rfl, hsettle]
    · rw [arrive_block rfl, hsettle]

/-! ### One operation for each lane -/

/-- An operation that changes what is seen of its own lane alone, once for each lane. -/
theorem forEach_each {α : Type} {f : Ix → Part → Part} {view : Ix → Part → α} {Q : Part → Prop} {step : Ix → α → α}
    (hQ : ∀ m q, Q q → Q (f m q)) (hsame : ∀ m q, Q q → view m (f m q) = step m (view m q))
    (hother : ∀ m k q, k ≠ m → Q q → view k (f m q) = view k q) {p : Part} (hp : Q p) :
    Q (forEach f p) ∧ ∀ m, view m (forEach f p) = step m (view m p) := by
  have h0 := hQ 0 p hp
  have h1 := hQ 1 _ h0
  have h2 := hQ 2 _ h1
  have he : forEach f p = f 3 (f 2 (f 1 (f 0 p))) := rfl
  rw [he]
  refine ⟨hQ 3 _ h2, Ix.cases ?_ ?_ ?_ ?_⟩
  · rw [hother 3 0 _ (by decide) h2, hother 2 0 _ (by decide) h1, hother 1 0 _ (by decide) h0, hsame 0 _ hp]
  · rw [hother 3 1 _ (by decide) h2, hother 2 1 _ (by decide) h1, hsame 1 _ h0, hother 0 1 _ (by decide) hp]
  · rw [hother 3 2 _ (by decide) h2, hsame 2 _ h1, hother 1 2 _ (by decide) h0, hother 0 2 _ (by decide) hp]
  · rw [hsame 3 _ h2, hother 2 3 _ (by decide) h1, hother 1 3 _ (by decide) h0, hother 0 3 _ (by decide) hp]

/-- A lane and its log. -/
def laneView (m : Ix) (p : Part) : Lane × Option LogRec := (p.lanes.get m, p.fault.laneLogs.get m)

/-- `q` is `p` but for its lanes and its logs. -/
def lanesOnly (p q : Part) : Prop := { q with lanes := p.lanes, fault := p.fault } = p ∧ q.fault.fatalDue = p.fault.fatalDue

section LanesOnly
variable {p q r : Part} {m j : Ix}

theorem lanesOnly.refl (p : Part) : lanesOnly p p := ⟨rfl, rfl⟩

theorem lanesOnly.lane (f : Lane → Lane) (h : lanesOnly p q) : lanesOnly p (modLane m f q) := h

theorem lanesOnly.report (c : ErrCode) (d : Detail) (h : lanesOnly p q) : lanesOnly p (report (.ll m) c d q) := h

theorem lanesOnly.links (h : lanesOnly p q) : q.links = p.links := by have e := congrArg Part.links h.1; exact e
theorem lanesOnly.feeds (h : lanesOnly p q) : q.feeds = p.feeds := by have e := congrArg Part.feeds h.1; exact e
theorem lanesOnly.outs (h : lanesOnly p q) : q.outs = p.outs := by have e := congrArg Part.outs h.1; exact e
theorem lanesOnly.mgmt (h : lanesOnly p q) : q.mgmt = p.mgmt := by have e := congrArg Part.mgmt h.1; exact e
theorem lanesOnly.store (h : lanesOnly p q) : q.store = p.store := by have e := congrArg Part.store h.1; exact e
theorem lanesOnly.timebase (h : lanesOnly p q) : q.timebase = p.timebase := by have e := congrArg Part.timebase h.1; exact e

theorem lanesOnly.currentEntry (h : lanesOnly p q) (n : Ix) : currentEntry q n = currentEntry p n := by
  rw [Machine.currentEntry, Machine.currentEntry, h.feeds]

theorem laneView_modLane (f : Lane → Lane) (q : Part) : laneView j (modLane m f q) =
    if j = m then (f (laneView j q).1, (laneView j q).2) else laneView j q := by
  unfold laneView
  rw [modLane_lanes, Four.get_modify]
  split
  · next h => rw [h]; rfl
  · rfl

theorem report_laneLogs (m : Ix) (c : ErrCode) (d : Detail) (q : Part) :
    (report (.ll m) c d q).fault.laneLogs = q.fault.laneLogs.modify m (logReport c q.timebase d) := rfl

theorem laneView_report (c : ErrCode) (d : Detail) (q : Part) : laneView j (report (.ll m) c d q) =
    if j = m then ((laneView j q).1, logReport c q.timebase d (laneView j q).2) else laneView j q := by
  unfold laneView
  rw [report_laneLogs, Four.get_modify]
  split
  · next h => rw [h]; rfl
  · rfl

end LanesOnly

/-! ### Labels -/

section Labels
variable {n m : Ix} {p q : Part} {seq : Nat}

/-- What an invalid label does at one lane (R148). -/
def labelRefused (n : Ix) (seq : Nat) (m : Ix) (q : Part) : Part :=
  if sources q n m && isRunning (q.lanes.get m).state then
    bumpCarry m (fun c => { c with labelsInvalid := bump c.labelsInvalid }) (report (.ll m) .invalidLabel (.sequence seq) q)
  else q

/-- A lane and its log after an invalid label (R148). -/
def labelRefusedView (n : Ix) (seq t : Nat) (v : Lane × Option LogRec) : Lane × Option LogRec :=
  if v.1.profile.source = n ∧ isRunning v.1.state = true then
    ({ v.1 with carryCtr := { v.1.carryCtr with labelsInvalid := bump v.1.carryCtr.labelsInvalid } },
      logReport .invalidLabel t (.sequence seq) v.2)
  else v

theorem labelRefused_only (h : lanesOnly p q) : lanesOnly p (labelRefused n seq m q) := by
  unfold labelRefused
  split
  · exact h
  · exact h

theorem labelRefused_view (j : Ix) : laneView j (labelRefused n seq m q) =
    if j = m then labelRefusedView n seq q.timebase (laneView j q) else laneView j q := by
  unfold labelRefused
  have hd : (sources q n m && isRunning (q.lanes.get m).state) = true ↔
      (laneView m q).1.profile.source = n ∧ isRunning (laneView m q).1.state = true := by simp [sources, laneView]
  by_cases hj : j = m
  · subst hj
    rw [if_pos rfl, labelRefusedView]
    by_cases hc : (sources q n j && isRunning (q.lanes.get j).state) = true
    · rw [if_pos hc, if_pos (hd.1 hc), bumpCarry_eq, laneView_modLane, if_pos rfl, laneView_report, if_pos rfl]
    · rw [if_neg hc, if_neg (fun h => hc (hd.2 h))]
  · rw [if_neg hj]
    split
    · rw [bumpCarry_eq, laneView_modLane, if_neg hj, laneView_report, if_neg hj]
    · rfl

/-- An invalid label at every lane (R148). -/
theorem labelOffer_invalid {code : Std} {ws : List Byte} (h : parseLabel code ws = none) :
    lanesOnly p (labelOffer n code seq ws p)
      ∧ ∀ m, laneView m (labelOffer n code seq ws p) = labelRefusedView n seq p.timebase (laneView m p) := by
  have he : labelOffer n code seq ws p = forEach (labelRefused n seq) p := by
    rw [labelOffer, h]
    rfl
  rw [he]
  exact forEach_each (Q := lanesOnly p) (step := fun _ => labelRefusedView n seq p.timebase)
    (fun m q hq => labelRefused_only hq) (fun m q hq => by rw [labelRefused_view, if_pos rfl, hq.timebase])
    (fun m k q hk _ => by rw [labelRefused_view, if_neg hk]) (lanesOnly.refl p)

theorem mapNewest_last (g : Entry → Entry) {h : List Entry} {e : Entry} (he : h.getLast? = some e) :
    mapNewest g h = h.dropLast ++ [g e] := by
  induction h with
  | nil => cases he
  | cons a rest ih =>
    cases rest with
    | nil =>
      cases he
      rfl
    | cons b rest =>
      rw [List.getLast?_cons_cons] at he
      have hm : mapNewest g (a :: b :: rest) = a :: mapNewest g (b :: rest) := rfl
      rw [hm, ih he]
      rfl

end Labels

theorem dispatch_timecode {n : Ix} {k : Packet} {p : Part} (hc : isCommand p n k = false) (ht : isTimecode p n k = true) :
    dispatch n k p = takeTimecode n k.user p := by
  rw [dispatch, if_neg (by simp [hc]), if_pos ht]

theorem takeTimecode_none {n : Ix} {ws : List Byte} {p : Part} (h : currentEntry p n = none) : takeTimecode n ws p =
    modLink n (fun l => { l with ctr := { l.ctr with tcUnattached := bump l.ctr.tcUnattached } }) p := by
  rw [takeTimecode, h] <;> rfl

theorem takeTimecode_some {n : Ix} {ws : List Byte} {p : Part} {e : Entry} {code : Std} (h : currentEntry p n = some e)
    (hl : (p.links.get n).state = .locked code) : takeTimecode n ws p = labelOffer n code e.seq ws p := by
  have hcode : lockedCode p n = some code := by rw [lockedCode, hl]
  rw [takeTimecode, h, hcode]

/-- Settles O31. -/
theorem labelsReachTheNewestEntry : Obligations.LabelsReachTheNewestEntry := by
  intro env n words s k hq ha hc ht
  have hx : exec (.ancillaryPacket env n words) s = _ := packet_taken hq
  have hc' : isCommand (foundBy env s) n k = false := (isCommand_found ..).trans hc
  have ht' : isTimecode (foundBy env s) n k = true := (isTimecode_found ..).trans ht
  have hf : (foundBy env s).fault.fatalDue = false := by simp [hq.1]
  have hlinks : (foundBy env s).links = s.part.links := found_links ..
  have hfeeds : (foundBy env s).feeds = s.part.feeds := found_feeds ..
  have hfault : (foundBy env s).fault = s.part.fault := found_fault ..
  have hentry : currentEntry (foundBy env s) n = currentEntry s.part n := currentEntry_found ..
  have hlane (m : Ix) : ((foundBy env s).lanes.get m).profile = (s.part.lanes.get m).profile
      ∧ ((foundBy env s).lanes.get m).state = (s.part.lanes.get m).state
      ∧ ((foundBy env s).lanes.get m).carryCtr = (s.part.lanes.get m).carryCtr := ⟨by simp, by simp, by simp⟩
  generalize foundBy env s = q at *
  refine ⟨fun hex hnone => ?_, fun code e hlock he => ?_⟩
  · rw [hx, takePacket_accepted (by rwa [hlinks]) ha, dispatch_timecode hc' ht', takeTimecode_none (hentry.trans hnone),
      ← hlinks, settle_quiet (p := modLink n _ q) hf]
    rfl
  · rw [takePacket_accepted (by rw [hlinks, hlock]; rfl) ha, dispatch_timecode hc' ht',
      takeTimecode_some (hentry.trans he) (by rw [hlinks, hlock])] at hx
    refine ⟨fun lab hlab h2 hu => ?_, fun hbad => ?_⟩
    · have hlast : (s.part.feeds.get n).history.getLast? = some e := by
        rw [currentEntry] at he
        split at he
        · exact he
        · cases he
      have hoffer : labelOffer n code e.seq k.user q = modNewest n (fun e => { e with label := some lab }) q := by
        rw [labelOffer, hu, PureLaws.parseLabel_words hlab h2]
      rw [hx, hoffer, settle_quiet (p := modNewest n _ q) hf, ← hfeeds]
      rw [← hfeeds] at hlast
      have hmod : q.feeds.modify n (fun f => { f with history := mapNewest (fun e => { e with label := some lab }) f.history }) =
          q.feeds.modify n (fun f => { f with history := f.history.dropLast ++ [{ e with label := some lab }] }) := by
        rw [Four.modify, Four.modify, mapNewest_last _ hlast]
      exact congrArg (fun v => Host.Outcome.next { s with part := { q with feeds := v } }) hmod
    · obtain ⟨honly, hview⟩ := labelOffer_invalid (n := n) (p := q) (seq := e.seq) (code := code)
        ((PureLaws.parseLabel_none_iff code k.user).2 hbad)
      rw [settle_quiet (honly.2.trans hf)] at hx
      refine ⟨_, hx, honly.feeds.trans hfeeds, honly.links.trans hlinks, fun m => ?_⟩
      have hm := hview m
      obtain ⟨hprof, hstate, hctr⟩ := hlane m
      have hlog : q.fault.laneLogs.get m = getLog (.ll m) s.part := by rw [hfault]; rfl
      have htime := honly.timebase
      generalize labelOffer n code e.seq k.user q = t at *
      rw [← hprof, ← hstate, ← hctr, ← hlog]
      unfold labelRefusedView laneView at hm
      split at hm
      · next h =>
        rw [if_pos h]
        obtain ⟨h1, h2⟩ := Prod.mk.inj hm
        exact ⟨by rw [show ({ s with part := t } : State).part.lanes.get m = _ from h1], h2.trans (by rw [← htime])⟩
      · next h =>
        rw [if_neg h]
        exact Prod.mk.inj hm

/-! ### Routing offers -/

section Offers
variable {n m j : Ix} {p q : Part} {k : Packet}

/-- What a carry queue without room puts into the lane's log (R144). -/
def overflowLog (t : Nat) (l : Lane) (r : Option LogRec) : Option LogRec :=
  match l.carry with
  | [] => r
  | i :: rest =>
    if Config.carryMax ≤ (i :: rest).length then
      logReport .carryDrop t (match i.source with
        | some q => .sequence q
        | none => .none) r
    else r

/-- A lane and its log after a routing offer of feed `n` (R141, R144). -/
def offerView (n : Ix) (k : Packet) (item : CarryItem) (t : Nat) (v : Lane × Option LogRec) : Lane × Option LogRec :=
  if v.1.profile.source = n ∧ isRunning v.1.state = true then
    match routeOf v.1.route k with
    | .carry =>
      ({ carryRoomed v.1 with
          carry := (carryRoomed v.1).carry ++ [item]
          carryCtr := { (carryRoomed v.1).carryCtr with packetsCarried := bump (carryRoomed v.1).carryCtr.packetsCarried } },
        overflowLog t v.1 v.2)
    | .drop => ({ v.1 with carryCtr := { v.1.carryCtr with routeDrops := bump v.1.carryCtr.routeDrops } }, v.2)
  else v

theorem carryRoomed_room {l : Lane} (h : l.carry.length < 64) : carryRoomed l = l := by
  rw [carryRoomed, if_neg (by omega)]

theorem carryRoomed_full {l : Lane} (h : ¬l.carry.length < 64) : carryRoomed l = { l with
    carry := l.carry.drop 1
    carryCtr := { l.carryCtr with carryOverflows := bump l.carryCtr.carryOverflows } } := by
  rw [carryRoomed, if_pos (by omega), List.drop_one]

theorem overflowLog_room {t : Nat} {l : Lane} {r : Option LogRec} (h : l.carry.length < 64) : overflowLog t l r = r := by
  cases hc : l.carry with
  | nil => rw [overflowLog, hc]
  | cons i rest =>
    rw [hc] at h
    rw [overflowLog, hc]
    exact if_neg (Nat.not_le.2 h)

theorem overflowLog_full {t : Nat} {l : Lane} {r : Option LogRec} {i : CarryItem} {rest : List CarryItem}
    (hc : l.carry = i :: rest) (h : 64 ≤ l.carry.length) : overflowLog t l r =
      logReport .carryDrop t (match i.source with
        | some q => .sequence q
        | none => .none) r := by
  rw [hc] at h
  rw [overflowLog, hc]
  exact if_pos h

theorem offerView_stays {item : CarryItem} {t : Nat} {v : Lane × Option LogRec}
    (h : ¬(v.1.profile.source = n ∧ isRunning v.1.state = true)) : offerView n k item t v = v := by rw [offerView, if_neg h]

theorem offerView_drops {item : CarryItem} {t : Nat} {v : Lane × Option LogRec}
    (h : v.1.profile.source = n ∧ isRunning v.1.state = true) (hr : routeOf v.1.route k = .drop) : offerView n k item t v =
      ({ v.1 with carryCtr := { v.1.carryCtr with routeDrops := bump v.1.carryCtr.routeDrops } }, v.2) := by
  rw [offerView, if_pos h, hr]

theorem offerView_carries {item : CarryItem} {t : Nat} {v : Lane × Option LogRec}
    (h : v.1.profile.source = n ∧ isRunning v.1.state = true) (hr : routeOf v.1.route k = .carry) : offerView n k item t v =
      ({ carryRoomed v.1 with
          carry := (carryRoomed v.1).carry ++ [item]
          carryCtr := { (carryRoomed v.1).carryCtr with packetsCarried := bump (carryRoomed v.1).carryCtr.packetsCarried } },
        overflowLog t v.1 v.2) := by
  rw [offerView, if_pos h, hr]

theorem carryRoom_only (h : lanesOnly p q) : lanesOnly p (carryRoom m q) := by
  unfold carryRoom
  split
  · exact h
  · split
    · exact h
    · exact h

theorem carryPacket_only (h : lanesOnly p q) : lanesOnly p (carryPacket n m k q) := by
  have hr : lanesOnly p (carryRoom m q) := carryRoom_only h
  exact hr

theorem takeOffer_only (h : lanesOnly p q) : lanesOnly p (takeOffer n k m q) := by
  unfold takeOffer
  split
  · split
    · exact carryPacket_only h
    · exact h
  · exact h

theorem carryRoom_logs (j : Ix) (q : Part) : (carryRoom m q).fault.laneLogs.get j =
    if j = m then overflowLog q.timebase (q.lanes.get m) (q.fault.laneLogs.get m) else q.fault.laneLogs.get j := by
  cases hc : (q.lanes.get m).carry with
  | nil =>
    have h : carryRoom m q = q := by rw [carryRoom, hc]
    rw [h, overflowLog, hc]
    split
    · next hj => rw [hj]
    · rfl
  | cons i rest =>
    rw [carryRoom, overflowLog, hc]
    by_cases hfull : Config.carryMax ≤ (i :: rest).length
    · simp only [if_pos hfull]
      refine (congrArg (fun v => Four.get v j) (report_laneLogs m .carryDrop _ _)).trans ((Four.get_modify ..).trans ?_)
      split
      · next hj =>
        rw [hj]
        rfl
      · rfl
    · simp only [if_neg hfull]
      split
      · next hj => rw [hj]
      · rfl

theorem carryPacket_view (j : Ix) (q : Part) : laneView j (carryPacket n m k q) =
    if j = m then
      ({ carryRoomed (q.lanes.get m) with
          carry := (carryRoomed (q.lanes.get m)).carry ++ [carryItemOf n q k]
          carryCtr := { (carryRoomed (q.lanes.get m)).carryCtr with
            packetsCarried := bump (carryRoomed (q.lanes.get m)).carryCtr.packetsCarried } },
        overflowLog q.timebase (q.lanes.get m) (q.fault.laneLogs.get m))
    else laneView j q := by
  have hlogs : (carryPacket n m k q).fault.laneLogs = (carryRoom m q).fault.laneLogs := rfl
  rw [laneView, carryPacket_lanes, hlogs, Four.get_modify, carryRoom_logs]
  split
  · next h => rw [h]
  · rfl

/-- The routing offer at one lane, where the lane's source feed is asked first (R14). -/
def offered (n : Ix) (k : Packet) (m : Ix) (q : Part) : Part := if sources q n m then takeOffer n k m q else q

theorem offered_view (j : Ix) (q : Part) : laneView j (offered n k m q) =
    if j = m then offerView n k (carryItemOf n q k) q.timebase (laneView j q) else laneView j q := by
  have hd : sources q n m = true ↔ (q.lanes.get m).profile.source = n := by simp [sources]
  have hstay (hno : ¬((laneView m q).1.profile.source = n ∧ isRunning (laneView m q).1.state = true)) :
      laneView j q = if j = m then offerView n k (carryItemOf n q k) q.timebase (laneView j q) else laneView j q := by
    split
    · next hj =>
      rw [hj, offerView, if_neg hno]
    · rfl
  unfold offered takeOffer
  split
  · next hs =>
    split
    · next hrun =>
      have hyes : (laneView m q).1.profile.source = n ∧ isRunning (laneView m q).1.state = true := ⟨hd.1 hs, hrun⟩
      cases hroute : routeOf (q.lanes.get m).route k with
      | carry =>
        refine (carryPacket_view j q).trans ?_
        split
        · next hj =>
          subst hj
          rw [offerView, if_pos hyes, show (laneView j q).1.route = (q.lanes.get j).route from rfl, hroute]
          rfl
        · rfl
      | drop =>
        refine (laneView_modLane (m := m) (j := j) (fun l => { l with carryCtr :=
          { l.carryCtr with routeDrops := bump l.carryCtr.routeDrops } }) q).trans ?_
        split
        · next hj =>
          subst hj
          rw [offerView, if_pos hyes, show (laneView j q).1.route = (q.lanes.get j).route from rfl, hroute]
          rfl
        · rfl
    · next hrun => exact hstay (fun h => hrun h.2)
  · next hs => exact hstay (fun h => hs (hd.2 h.1))

/-- Every lane takes the offer by its own table. -/
theorem dispatch_offer (hc : isCommand p n k = false) (ht : isTimecode p n k = false) :
    lanesOnly p (dispatch n k p)
      ∧ ∀ m, laneView m (dispatch n k p) = offerView n k (carryItemOf n p k) p.timebase (laneView m p) := by
  have he : dispatch n k p = forEach (offered n k) p := by
    rw [dispatch, if_neg (by simp [hc]), if_neg (by simp [ht])]
    rfl
  rw [he]
  refine forEach_each (Q := lanesOnly p) (step := fun _ => offerView n k (carryItemOf n p k) p.timebase)
    (fun m q hq => ?_) (fun m q hq => ?_) (fun m j q hj _ => ?_) (lanesOnly.refl p)
  · unfold offered
    split
    · exact takeOffer_only hq
    · exact hq
  · have hitem : carryItemOf n q k = carryItemOf n p k := by
      rw [carryItemOf, carryItemOf, hq.currentEntry, hq.timebase]
    rw [offered_view, if_pos rfl, hq.timebase, hitem]
  · rw [offered_view, if_neg hj]

end Offers

/-- An entry of a routing table fits a packet (R140). -/
def routeHits (k : Packet) (e : RouteEntry) : Bool :=
  e.kind == k.kind && (e.subkind.isNone || decide (e.subkind = some k.subkind))

theorem routeOf_found {t : RouteTable} {k : Packet} {e : RouteEntry} (h : t.entries.find? (routeHits k) = some e) :
    routeOf t k = e.action := by
  change t.entries.find? (fun e => e.kind == k.kind && (e.subkind.isNone || decide (e.subkind = some k.subkind))) = some e at h
  rw [routeOf, h]

theorem routeOf_none {t : RouteTable} {k : Packet} (h : t.entries.find? (routeHits k) = none) : routeOf t k = t.default := by
  change t.entries.find? (fun e => e.kind == k.kind && (e.subkind.isNone || decide (e.subkind = some k.subkind))) = none at h
  rw [routeOf, h]

/-- A table's action is that of its first entry that fits, and its default where none fits (R140). -/
theorem routeOf_first {t : RouteTable} {k : Packet} {hit : RouteEntry → Prop}
    (hhit : ∀ e, hit e ↔ e.kind = k.kind ∧ (e.subkind = none ∨ e.subkind = some k.subkind)) :
    (∀ (pre post : List RouteEntry) (e : RouteEntry), t.entries = pre ++ e :: post → (∀ x ∈ pre, ¬hit x) → hit e →
        routeOf t k = e.action)
      ∧ ((∀ x ∈ t.entries, ¬hit x) → routeOf t k = t.default) := by
  have hb (e : RouteEntry) : routeHits k e = true ↔ hit e := by
    rw [hhit]
    simp [routeHits]
  refine ⟨fun pre post e he hpre hh => routeOf_found ?_, fun hnone =>
    routeOf_none (List.find?_eq_none.2 (fun x hx h => hnone x hx ((hb x).1 h)))⟩
  rw [he, List.find?_append, List.find?_eq_none.2 (fun x hx h => hpre x hx ((hb x).1 h)), List.find?_cons_of_pos ((hb e).2 hh)]
  rfl

/-- Settles O30. -/
theorem lanesTakeRoutingOffers : Obligations.LanesTakeRoutingOffers := by
  refine ⟨fun env n words s k item hq hx ha hc ht hitem => ?_, fun t k hit hhit => routeOf_first hhit⟩
  have hex : exec (.ancillaryPacket env n words) s = _ := packet_taken hq
  have hc' : isCommand (foundBy env s) n k = false := (isCommand_found ..).trans hc
  have ht' : isTimecode (foundBy env s) n k = false := (isTimecode_found ..).trans ht
  have hf : (foundBy env s).fault.fatalDue = false := by simp [hq.1]
  have hlinks : (foundBy env s).links = s.part.links := found_links ..
  have hfeeds : (foundBy env s).feeds = s.part.feeds := found_feeds ..
  have houts : (foundBy env s).outs = s.part.outs := found_outs ..
  have hmgmt : (foundBy env s).mgmt = s.part.mgmt := found_mgmt ..
  have hlog (m : Ix) : (foundBy env s).fault.laneLogs.get m = getLog (.ll m) s.part := by rw [found_fault]; rfl
  have hcarry : carryItemOf n (foundBy env s) k = item := by
    rw [hitem, carryItemOf, currentEntry_found, found_timebase] <;> rfl
  generalize foundBy env s = q at *
  obtain ⟨honly, hview⟩ := dispatch_offer (n := n) (p := q) (k := k) hc' ht'
  rw [takePacket_accepted (by rwa [hlinks]) ha, settle_quiet (honly.2.trans hf)] at hex
  refine ⟨_, hex, fun m l hl => ?_, honly.links.trans hlinks, honly.feeds.trans hfeeds, honly.outs.trans houts,
    honly.mgmt.trans hmgmt, honly.store, honly.timebase⟩
  have hm := hview m
  have htime := honly.timebase
  have hlm := hlog m
  have hlane : (q.lanes.get m, q.fault.laneLogs.get m) = (l, getLog (.ll m) s.part) := by rw [hl, hlm]
  rw [hcarry, laneView, laneView, hlane] at hm
  generalize dispatch n k q = t at *
  obtain ⟨h1, h2⟩ := Prod.mk.inj (show (t.lanes.get m, t.fault.laneLogs.get m) =
    ((offerView n k item q.timebase (l, getLog (.ll m) s.part)).1, (offerView n k item q.timebase (l, getLog (.ll m) s.part)).2) from hm)
  show t.lanes.get m = _ ∧ t.fault.laneLogs.get m = _
  rw [h1, h2]
  by_cases hrun : l.profile.source = n ∧ isRunning l.state = true
  · rw [if_pos hrun]
    cases hroute : routeOf l.route k with
    | drop =>
      rw [offerView_drops hrun hroute]
      refine ⟨rfl, ?_⟩
      cases l.carry with
      | nil => rfl
      | cons head rest => exact (if_neg (fun h => by cases h.2.2.1)).symm
    | carry =>
      rw [offerView_carries hrun hroute]
      by_cases hroom : l.carry.length < 64
      · rw [carryRoomed_room hroom, overflowLog_room hroom]
        refine ⟨(if_pos hroom).symm, ?_⟩
        cases hc : l.carry with
        | nil => rfl
        | cons head rest => exact (if_neg (fun h => by rw [hc] at hroom; omega)).symm
      · rw [carryRoomed_full hroom]
        refine ⟨(if_neg hroom).symm, ?_⟩
        cases hc : l.carry with
        | nil => exact absurd (by rw [hc]; exact Nat.zero_lt_succ _) hroom
        | cons head rest =>
          have hfull : 64 ≤ (head :: rest).length := by rw [← hc]; omega
          refine (overflowLog_full hc (by omega)).trans ?_
          refine Eq.trans ?_ (if_pos ⟨hrun.1, hrun.2, rfl, hfull⟩).symm
          exact (congrArg (fun time => logReport .carryDrop time _ _) htime.symm).trans (by cases head.source <;> rfl)
  · rw [if_neg hrun, offerView_stays hrun]
    refine ⟨rfl, ?_⟩
    cases l.carry with
    | nil => rfl
    | cons head rest => exact (if_neg (fun h => hrun ⟨h.1, h.2.1⟩)).symm

end Sys2Proof.Machine.PacketPaths
end

section
/-! SUPPORT. What a link does when it leaves LOCKED (R11), and the loss and gain of activity (R5). -/

namespace Sys2Proof.Machine.LockLoss

open Frames Keeping LaneValues HistoryLaw LaneEnds StopAnswers StoreValues SlotsLaw TimedEvents

/-- An operation for each lane, seen from one of them: what the other lanes' operations do keeps a relation and leaves what
is seen. -/
theorem forEach_at {α : Type} {f : Ix → Part → Part} {view : Part → α} {R : Part → Part → Prop}
    (hrefl : ∀ q, R q q) (htrans : ∀ a b c, R a b → R b c → R a c) (hR : ∀ k q, R q (f k q)) (m : Ix)
    (hother : ∀ k q, k ≠ m → view (f k q) = view q) (p : Part) :
    ∃ q, R p q ∧ view q = view p ∧ R (f m q) (forEach f p) ∧ view (forEach f p) = view (f m q) := by
  have he : forEach f p = f 3 (f 2 (f 1 (f 0 p))) := rfl
  have h01 := htrans _ _ _ (hR 0 p) (hR 1 (f 0 p))
  have h23 (q : Part) := htrans _ _ _ (hR 2 q) (hR 3 (f 2 q))
  rw [he]
  revert hother
  revert m
  refine Ix.cases (fun ho => ?_) (fun ho => ?_) (fun ho => ?_) (fun ho => ?_)
  · exact ⟨p, hrefl p, rfl, htrans _ _ _ (hR 1 _) (h23 _), by
      rw [ho 3 _ (by decide), ho 2 _ (by decide), ho 1 _ (by decide)]⟩
  · exact ⟨_, hR 0 p, ho 0 p (by decide), h23 _, by rw [ho 3 _ (by decide), ho 2 _ (by decide)]⟩
  · exact ⟨_, h01, by rw [ho 1 _ (by decide), ho 0 _ (by decide)], hR 3 _, ho 3 _ (by decide)⟩
  · exact ⟨_, htrans _ _ _ h01 (hR 2 _), by rw [ho 2 _ (by decide), ho 1 _ (by decide), ho 0 _ (by decide)], hrefl _, rfl⟩

/-! ### Acting on the input -/

/-- `q` is `p` after lanes have acted on their inputs (R129 to R131): latches are only set, records only emptied, replies
only added, and no block but the lanes, the outputs, the management unit and the fault unit is touched. -/
structure InputActs (p q : Part) : Prop extends MildFault p.fault q.fault where
  sameDue : q.fault.fatalDue = p.fault.fatalDue
  rest : { q with lanes := p.lanes, outs := p.outs, mgmt := p.mgmt, fault := p.fault } = p
  ops : ∀ m, p.mgmt.laneOps.get m = none → q.mgmt.laneOps.get m = none
  replies : ∀ m, ∀ r ∈ (p.outs.get m).replies, r ∈ (q.outs.get m).replies

section Acts
variable {p q r : Part} {n m k : Ix}

theorem InputActs.refl (p : Part) : InputActs p p := ⟨.refl _, rfl, rfl, fun _ h => h, fun _ _ h => h⟩

theorem InputActs.trans (h : InputActs p q) (g : InputActs q r) : InputActs p r where
  toMildFault := h.toMildFault.trans g.toMildFault
  sameDue := g.sameDue.trans h.sameDue
  rest := by
    have h1 := h.rest
    have h2 := g.rest
    rw [← h2] at h1
    exact h1
  ops m hm := g.ops m (h.ops m hm)
  replies m r hr := g.replies m r (h.replies m r hr)

theorem InputActs.links (h : InputActs p q) : q.links = p.links := by have e := congrArg Part.links h.rest; exact e
theorem InputActs.feeds (h : InputActs p q) : q.feeds = p.feeds := by have e := congrArg Part.feeds h.rest; exact e
theorem InputActs.store (h : InputActs p q) : q.store = p.store := by have e := congrArg Part.store h.rest; exact e
theorem InputActs.timebase (h : InputActs p q) : q.timebase = p.timebase := by have e := congrArg Part.timebase h.rest; exact e

theorem acts_modLane (n : Ix) (f : Lane → Lane) (p : Part) : InputActs p (modLane n f p) :=
  ⟨.refl _, rfl, rfl, fun _ h => h, fun _ _ h => h⟩

theorem acts_latchSet (c : Cond) (p : Part) : InputActs p (latchSet c p) where
  toMildFault := (mild_latchSet c p).toMildFault
  sameDue := by simp
  rest := by
    simp only [latchSet_frame]
  ops m h := by simpa using h
  replies m r h := by rwa [(mild_latchSet c p).replies]

theorem acts_endLaneOp (n : Ix) (st : DoneStatus) (p : Part) : InputActs p (endLaneOp n st p) where
  toMildFault := mild_endLaneOp st n p
  sameDue := by simp
  rest := by simp only [endLaneOp_frame]
  ops m h := by
    rw [endLaneOp_laneOps, Four.get_set]
    split
    · rfl
    · exact h
  replies m r h := by
    rw [endLaneOp_replies]
    exact List.mem_append_left _ h

theorem acts_commitSwap (n : Ix) (p : Part) : InputActs p (commitSwap n p) := by
  unfold commitSwap
  split
  · exact (acts_modLane n _ p).trans (acts_endLaneOp n .complete _)
  · exact .refl p

theorem acts_enterHolding (n : Ix) (p : Part) : InputActs p (enterHolding n p) := by
  have h : InputActs p (bumpLane n (fun c => { c with holdEntries := bump c.holdEntries })
      (latchSet (.inputLost n) (modLane n (fun l => { l with state := .holding, holdCount := 0 }) p))) :=
    ((acts_modLane n _ p).trans (acts_latchSet _ _)).trans (acts_modLane n _ _)
  unfold enterHolding
  dsimp only
  split
  · exact h.trans (((acts_modLane n _ _).trans (acts_latchSet _ _)).trans ((acts_modLane n _ _).trans (acts_commitSwap n _)))
  · exact h

theorem acts_inputLoss (n : Ix) (p : Part) : InputActs p (inputLoss n p) := by
  unfold inputLoss
  split
  · exact acts_enterHolding n p
  · exact acts_enterHolding n p
  all_goals exact .refl p

theorem acts_inputReturn (n : Ix) (p : Part) : InputActs p (inputReturn n p) := by
  unfold inputReturn
  split
  · exact acts_modLane n _ p
  · exact acts_modLane n _ p
  all_goals exact .refl p

theorem acts_evalUsable (n : Ix) (p : Part) : InputActs p (evalUsable n p) := by
  have h := acts_modLane n (fun l => { l with usable := inputUsable p n }) p
  unfold evalUsable
  dsimp only
  split
  · exact h.trans (acts_inputLoss n _)
  · split
    · exact h.trans (acts_inputReturn n _)
    · exact h

/-- What is seen of a lane with its pending record. -/
def laneOpView (m : Ix) (p : Part) : Lane × Option PendingOp := (p.lanes.get m, p.mgmt.laneOps.get m)

theorem laneOpView_of {f : Lane → Lane} (hm : m ≠ k) (hl : q.lanes = p.lanes.modify k f)
    (ho : q.mgmt.laneOps.get m = p.mgmt.laneOps.get m) : laneOpView m q = laneOpView m p := by
  rw [laneOpView, laneOpView, hl, Four.get_modify_other _ _ hm, ho]

theorem enterHolding_laneOps (hm : m ≠ k) : (enterHolding k p).mgmt.laneOps.get m = p.mgmt.laneOps.get m := by
  unfold enterHolding enterSlate
  dsimp only
  split
  · rw [commitSwap_mgmt]
    split
    · rw [show (_ : Mgmt).laneOps.get m = _ from Four.get_set_other _ _ hm]
      simp
    · simp
  · simp

theorem evalUsable_view (hm : m ≠ k) (q : Part) : laneOpView m (evalUsable k q) = laneOpView m q := by
  have h0 : laneOpView m (modLane k (fun l => { l with usable := inputUsable q k }) q) = laneOpView m q :=
    laneOpView_of (p := q) (k := k) hm (modLane_lanes ..) rfl
  unfold evalUsable
  dsimp only
  split
  · refine Eq.trans ?_ h0
    generalize modLane k _ q = a
    unfold inputLoss
    split
    · exact laneOpView_of hm (enterHolding_lanes k a) (enterHolding_laneOps hm)
    · exact laneOpView_of hm (enterHolding_lanes k a) (enterHolding_laneOps hm)
    all_goals rfl
  · split
    · refine Eq.trans ?_ h0
      generalize modLane k _ q = a
      unfold inputReturn
      split
      · exact laneOpView_of (p := a) (k := k) hm (modLane_lanes ..) rfl
      · exact laneOpView_of (p := a) (k := k) hm (modLane_lanes ..) rfl
      all_goals rfl
    · exact h0

end Acts

/-! ### The loss of a lane's input -/

section Loses
variable {p q : Part} {m : Ix}

/-- A lane whose input is found not usable (R122, R129). -/
def unusable (l : Lane) : Lane :=
  if l.usable then lostInput { l with usable := false } else { l with usable := false }

theorem evalUsable_lost (h : inputUsable p m = false) : evalUsable m p =
    if (p.lanes.get m).usable then inputLoss m (modLane m (fun l => { l with usable := false }) p)
    else modLane m (fun l => { l with usable := false }) p := by
  unfold evalUsable
  rw [h]
  cases (p.lanes.get m).usable <;> rfl

theorem evalUsable_lost_lane (h : inputUsable p m = false) : (evalUsable m p).lanes.get m = unusable (p.lanes.get m) := by
  rw [evalUsable_lost h, unusable]
  split
  · rw [inputLoss_lanes, Four.get_modify_same, modLane_lanes, Four.get_modify_same]
  · rw [modLane_lanes, Four.get_modify_same]

theorem lostInput_usable (l : Lane) : (lostInput l).usable = l.usable := by
  unfold lostInput enteredHold slated swapped held
  split_ifs
  · split <;> rfl
  · rfl
  · rfl

theorem unusable_usable (l : Lane) : (unusable l).usable = false := by
  unfold unusable
  split
  · exact lostInput_usable _
  · rfl

/-- What a swap makes of a lane, field by field (R163). -/
theorem swapped_eq (l : Lane) : swapped l = { l with
    tables := (match l.commit with | some c => swapTables c l.tables | none => l.tables)
    commit := none
    job := if l.commit.isSome = true ∧ l.job.inFlight = true ∧ l.job.kept = none then
        { l.job with kept := some ⟨l.tables.tt.active, l.tables.hc.active, l.tables.vc.active⟩ }
      else l.job } := by
  cases hc : l.commit with
  | none =>
    have hs : swapped l = l := by rw [swapped, hc]
    have he : { l with tables := l.tables, commit := none, job := l.job } = l := by rw [← hc]
    rw [hs]
    exact he.symm
  | some c =>
    have hs : swapped l = { l with tables := swapTables c l.tables, commit := none, job := keepRows l } := by
      rw [swapped, hc]
    rw [hs, keepRows]
    cases l.job.inFlight <;> cases l.job.kept <;> rfl

/-- Entry to HOLDING at a hold limit of 0 ends with the swap of SLATE (R130). -/
theorem enterHolding_slate (h : (p.lanes.get m).profile.holdLimit = 0) : ∃ a, enterHolding m p = commitSwap m a
    ∧ (a.lanes.get m).commit = (p.lanes.get m).commit ∧ a.mgmt = p.mgmt
    ∧ ∀ n, (a.outs.get n).replies = (p.outs.get n).replies := by
  have hlim : ((bumpLane m (fun c => { c with holdEntries := bump c.holdEntries })
      (latchSet (.inputLost m) (modLane m (fun l => { l with state := .holding, holdCount := 0 }) p))).lanes.get m).profile.holdLimit
      = 0 := by simpa using h
  refine ⟨_, (if_pos hlim).trans rfl, by simp, by simp, fun n => ?_⟩
  exact (mild_latchSet _ _).replies.trans (mild_latchSet _ _).replies

theorem enterHolding_replies (h : (p.lanes.get m).profile.holdLimit = 0) (n : Ix) :
    ((enterHolding m p).outs.get n).replies = (p.outs.get n).replies ++
      (if (p.lanes.get m).commit.isSome then endReplies n .complete (p.mgmt.laneOps.get m) else []) := by
  obtain ⟨a, he, hc, hm, hr⟩ := enterHolding_slate h
  rw [he, commitSwap_replies, hc, hm, hr]

theorem enterHolding_ended (h : (p.lanes.get m).profile.holdLimit = 0) (hc : (p.lanes.get m).commit.isSome = true) :
    (enterHolding m p).mgmt.laneOps.get m = none := by
  obtain ⟨a, he, hac, -, -⟩ := enterHolding_slate h
  rw [he, commitSwap_mgmt, if_pos (hac ▸ hc)]
  exact Four.get_set_same ..

theorem doneTo_eq (n : Ix) (o : Option PendingOp) : doneTo n o = endReplies n .complete o := by cases o <;> rfl

/-- A lane that finds its input not usable (R122, R129, R130). -/
theorem evalUsable_losesInput (h : inputUsable p m = false) : losesInput p (evalUsable m p) m := by
  have hl := evalUsable_lost_lane h
  unfold losesInput
  dsimp only
  rw [hl]
  by_cases hu : (p.lanes.get m).usable = true ∧ ((p.lanes.get m).state = .acquiring ∨ (p.lanes.get m).state = .converting)
  · have he : evalUsable m p = enterHolding m (modLane m (fun l => { l with usable := false }) p) := by
      rw [evalUsable_lost h, if_pos hu.1]
      have hs : ((modLane m (fun l => { l with usable := false }) p).lanes.get m).state = (p.lanes.get m).state := by simp
      rcases hu.2 with h1 | h1 <;> rw [inputLoss, hs, h1]
    have hlim : ((modLane m (fun l => { l with usable := false }) p).lanes.get m).profile.holdLimit =
        (p.lanes.get m).profile.holdLimit := by simp
    have hmem := fun d => mem_enterHolding m (modLane m (fun l => { l with usable := false }) p) d
    rw [if_pos hu, he]
    refine ⟨(hmem _).2 (.inr (.inl rfl)), ?_⟩
    rw [unusable, if_pos hu.1, lostInput, if_pos hu.2]
    by_cases h0 : (p.lanes.get m).profile.holdLimit = 0
    · rw [if_pos h0, enteredHold, if_pos h0, slated, swapped_eq]
      refine ⟨rfl, (hmem _).2 (.inr (.inr ⟨rfl, hlim.trans h0⟩)), fun hc => ⟨enterHolding_ended (hlim.trans h0) (by simpa using hc), ?_⟩⟩
      intro n r hr
      rw [enterHolding_replies (hlim.trans h0), if_pos (by simpa using hc)]
      rw [doneTo_eq] at hr
      exact List.mem_append_right _ hr
    · rw [if_neg h0, enteredHold, if_neg h0]
      rfl
  · rw [if_neg hu, unusable]
    split
    · next h1 => rw [lostInput, if_neg (fun h2 => hu ⟨h1, h2⟩)]
    · rfl

/-- What a lane makes of the loss of its input stands through what follows. -/
theorem losesInput_of {p' q' : Part} (h : losesInput p q m) (hb : laneOpView m p' = laneOpView m p)
    (hl : q'.lanes.get m = q.lanes.get m) (hops : q.mgmt.laneOps.get m = none → q'.mgmt.laneOps.get m = none)
    (hlatch : ∀ c ∈ q.fault.latches, c ∈ q'.fault.latches)
    (hr : ∀ n, ∀ r ∈ (q.outs.get n).replies, r ∈ (q'.outs.get n).replies) : losesInput p' q' m := by
  obtain ⟨h1, h2⟩ := Prod.mk.inj hb
  unfold losesInput at h ⊢
  dsimp only at h ⊢
  rw [h1, h2, hl]
  split at h
  · next hu =>
    rw [if_pos hu]
    refine ⟨hlatch _ h.1, ?_⟩
    have h3 := h.2
    split at h3
    · next h0 =>
      rw [if_pos h0]
      exact ⟨h3.1, hlatch _ h3.2.1, fun hc => ⟨hops (h3.2.2 hc).1, fun n r hn => hr n r ((h3.2.2 hc).2 n r hn)⟩⟩
    · next h0 =>
      rw [if_neg h0]
      exact h3
  · next hu =>
    rw [if_neg hu]
    exact h

end Loses

/-! ### What the end of a step leaves -/

/-- `q` is `p` after the lanes that device fatal takes (R135): links, logs of feeds and lanes, and latches stand, and a feed
of a link that is not LOCKED still captures nothing. -/
structure Endured (p q : Part) : Prop where
  links : q.links = p.links
  timebase : q.timebase = p.timebase
  feedLogs : q.fault.feedLogs = p.fault.feedLogs
  laneLogs : q.fault.laneLogs = p.fault.laneLogs
  latches : ∀ c ∈ p.fault.latches, c ∈ q.fault.latches
  capture : ∀ f, lockedCode p f = none → (p.feeds.get f).captureOn = false → (q.feeds.get f).captureOn = false

section Settle
variable {p q r : Part} {n f : Ix}

theorem Endured.refl (p : Part) : Endured p p := ⟨rfl, rfl, rfl, rfl, fun _ h => h, fun _ _ h => h⟩

theorem Endured.trans (h : Endured p q) (g : Endured q r) : Endured p r :=
  ⟨g.links.trans h.links, g.timebase.trans h.timebase, g.feedLogs.trans h.feedLogs, g.laneLogs.trans h.laneLogs,
   fun c hc => g.latches c (h.latches c hc),
   fun f hl hc => g.capture f ((lockedCode_congr h.links f).trans hl) (h.capture f hl hc)⟩

theorem endured_of (hl : q.links = p.links) (ht : q.timebase = p.timebase) (hm : MildFault p.fault q.fault)
    (hf : ∀ f, lockedCode p f = none → (p.feeds.get f).captureOn = false → (q.feeds.get f).captureOn = false) : Endured p q :=
  ⟨hl, ht, hm.feedLogs, hm.laneLogs, hm.latches, hf⟩

theorem recapture_unlocked (h : lockedCode p f = none) (hc : (p.feeds.get f).captureOn = false) :
    ((recapture n p).feeds.get f).captureOn = false := by
  simp only [recapture, modFeed_feeds, Four.get_modify]
  split
  · next hf => simp [← hf, h]
  · exact hc

theorem flushFeed_capture (hc : (p.feeds.get f).captureOn = false) : ((flushFeed n p).feeds.get f).captureOn = false := by
  rw [flushFeed_feeds, Four.get_modify]
  split
  · exact hc
  · exact hc

theorem leaveRunning_capture (s : LaneState) (h : lockedCode p f = none) (hc : (p.feeds.get f).captureOn = false) :
    ((leaveRunning n s p).feeds.get f).captureOn = false := by
  unfold leaveRunning
  dsimp only
  split
  · refine recapture_unlocked ?_ (flushFeed_capture hc)
    rw [lockedCode_congr (p := p) (by simp) f]
    exact h
  · exact recapture_unlocked h hc

theorem endured_laneFatal (n : Ix) (p : Part) : Endured p (laneFatal n p) := by
  refine endured_of (by simp [laneFatal, clearPending]) (by simp [laneFatal, clearPending]) (mild_laneFatal n p) (fun f h hc => ?_)
  unfold laneFatal
  simp only [bumpLane_eq, modLane_feeds, latchSet_frame]
  exact leaveRunning_capture .faulted ((lockedCode_congr (p := p) (by simp [clearPending]) f).trans h) (by simpa [clearPending] using hc)

theorem endured_latchSet (c : Cond) (p : Part) : Endured p (latchSet c p) :=
  endured_of (by simp) (by simp) (mild_latchSet c p).toMildFault (fun f _ hc => by simpa using hc)

theorem endured_modLane (n : Ix) (g : Lane → Lane) (p : Part) : Endured p (modLane n g p) :=
  ⟨rfl, rfl, rfl, rfl, fun _ h => h, fun _ _ h => h⟩

theorem endured_modFault {g : FaultUnit → FaultUnit} (hf : (g p.fault).feedLogs = p.fault.feedLogs)
    (hl : (g p.fault).laneLogs = p.fault.laneLogs) (hc : (g p.fault).latches = p.fault.latches) :
    Endured p (modFault g p) := ⟨rfl, rfl, hf, hl, fun c h => by rw [modFault_fault, hc]; exact h, fun _ _ h => h⟩

theorem endured_deviceFatalLane (n : Ix) (p : Part) : Endured p (deviceFatalLane n p) := by
  unfold deviceFatalLane
  split
  · exact .refl p
  · exact ((endured_modLane n _ p).trans (endured_latchSet _ _)).trans (endured_modLane n _ _)
  all_goals exact endured_laneFatal n p

theorem endured_enterDeviceFatal (p : Part) : Endured p (enterDeviceFatal p) :=
  have h0 : Endured p (latchSet .deviceFatal (modFault (fun u => { u with deviceFatal := true }) p)) :=
    (endured_modFault rfl rfl rfl).trans (endured_latchSet _ _)
  (((h0.trans (endured_deviceFatalLane 0 _)).trans (endured_deviceFatalLane 1 _)).trans (endured_deviceFatalLane 2 _)).trans
    (endured_deviceFatalLane 3 _)

theorem endured_settle (p : Part) : Endured p (settle p) := by
  unfold settle
  split
  · dsimp only
    split
    · exact endured_modFault rfl rfl rfl
    · exact (endured_enterDeviceFatal p).trans (endured_modFault rfl rfl rfl)
  · exact .refl p

theorem deviceFatalled_usable (l : Lane) : (deviceFatalled l).usable = l.usable := by
  unfold deviceFatalled
  split
  · rfl
  · rfl
  · unfold fatalled carryFlushed abandoned
    split <;> rfl

/-- The end of a step changes no lane's indication of its input (R122, R135). -/
theorem settle_usable (m : Ix) : ((settle p).lanes.get m).usable = (p.lanes.get m).usable := by
  rw [settle_lanes]
  split
  · rw [Four.get_make, deviceFatalled_usable]
  · rfl

/-- What a lane makes of the loss of its input stands where the part does not go to device fatal. -/
theorem settle_losesInput {m : Ix} (h : losesInput p q m) (hcalm : (settle q).fault.deviceFatal = q.fault.deviceFatal) :
    losesInput p (settle q) m := by
  rw [settle_calm hcalm]
  exact losesInput_of h rfl rfl id (fun _ hc => hc) (fun _ _ hr => hr)

end Settle

/-! ### Leaving LOCKED -/

section LockLost
variable {p : Part} {n m : Ix}

/-- The lanes of a feed act on their inputs, each by itself. -/
theorem forSourcing_acts (p : Part) (n : Ix) : InputActs p (forSourcing n evalUsable p) := by
  have h (k : Ix) (q : Part) : InputActs q (if sources q n k then evalUsable k q else q) := by
    split
    · exact acts_evalUsable k q
    · exact .refl q
  exact (((h 0 p).trans (h 1 _)).trans (h 2 _)).trans (h 3 _)

/-- A lane of the feed of a link that is not LOCKED has lost its input (R122, R129). -/
theorem forSourcing_lost (hlock : lockedCode p n = none) (hm : (p.lanes.get m).profile.source = n) :
    losesInput p (forSourcing n evalUsable p) m
      ∧ (forSourcing n evalUsable p).lanes.get m = unusable (p.lanes.get m) := by
  have hacts (k : Ix) (q : Part) : InputActs q (if sources q n k then evalUsable k q else q) := by
    split
    · exact acts_evalUsable k q
    · exact .refl q
  have hother (k : Ix) (q : Part) (hk : k ≠ m) :
      laneOpView m (if sources q n k then evalUsable k q else q) = laneOpView m q := by
    split
    · exact evalUsable_view hk.symm q
    · rfl
  obtain ⟨q, hpq, hview, hrest, hafter⟩ := forEach_at (R := InputActs) (f := fun k q => if sources q n k then evalUsable k q else q)
    .refl (fun _ _ _ => .trans) hacts m hother p
  have hlane : q.lanes.get m = p.lanes.get m := congrArg Prod.fst hview
  have hs : sources q n m = true := by rw [sources, hlane, hm, decide_eq_true rfl]
  have hun : inputUsable q m = false := by
    rw [inputUsable, hlane, hm, lockedCode_congr hpq.links, hlock]
    rfl
  simp only [hs, if_true] at hrest hafter
  have hfs : forEach (fun k q => if sources q n k then evalUsable k q else q) p = forSourcing n evalUsable p := rfl
  rw [hfs] at hrest hafter
  have hl : (forSourcing n evalUsable p).lanes.get m = (evalUsable m q).lanes.get m := congrArg Prod.fst hafter
  refine ⟨losesInput_of (evalUsable_losesInput hun) hview.symm hl (hrest.ops m) hrest.latches hrest.replies, ?_⟩
  rw [hl, evalUsable_lost_lane hun, hlane]

end LockLost

/-! ### An open picture that is given up -/

section Abandon
variable {p : Part} {n m : Ix} {e : Entry}

theorem abandonNewest_closed (logged : Bool) (h : ∀ e, newest (p.feeds.get n) = some e → isOpenPicture e = false) :
    abandonNewest n logged p = p := by
  cases hc : newest (p.feeds.get n) with
  | none => rw [abandonNewest, hc]
  | some e =>
    rw [abandonNewest, hc]
    exact if_neg (by rw [h e hc]; exact Bool.false_ne_true)

/-- An open picture given up, before a picture start reports it (R36). -/
def abandonedEntry (n : Ix) (e : Entry) (p : Part) : Part :=
  bumpFeed n (fun c => { c with holesAbandoned := bump c.holesAbandoned })
    (returnEntry n e (modNewest n (toHole .abandoned) p))

theorem abandonNewest_open (logged : Bool) (h : newest (p.feeds.get n) = some e) (ho : isOpenPicture e = true) :
    abandonNewest n logged p =
      if logged then report (.fl n) .abandoned (.sequence e.seq) (abandonedEntry n e p) else abandonedEntry n e p := by
  rw [abandonNewest, h]
  exact if_pos ho

theorem mild_abandonedEntry (n : Ix) (e : Entry) (p : Part) : Mild p (abandonedEntry n e p) :=
  have h : Mild p (returnEntry n e (modNewest n (toHole .abandoned) p)) := (mild_returnEntry n e _).after rfl rfl
  h.before rfl rfl

/-- What feeds give up touches the feed, the store and the fault unit alone. -/
theorem abandonedEntry_frame : (abandonedEntry n e p).links = p.links ∧ (abandonedEntry n e p).lanes = p.lanes
    ∧ (abandonedEntry n e p).mgmt = p.mgmt ∧ (abandonedEntry n e p).timebase = p.timebase
    ∧ (abandonedEntry n e p).feeds = p.feeds.modify n (fun f => { f with
        history := mapNewest (toHole .abandoned) f.history
        ctr := { f.ctr with holesAbandoned := bump f.ctr.holesAbandoned } }) := by
  refine ⟨storeBlind_links.returnEntry n e, storeBlind_lanes.returnEntry n e, storeBlind_mgmt.returnEntry n e,
    storeBlind_timebase.returnEntry n e, ?_⟩
  simp only [abandonedEntry, bumpFeed_eq, modFeed_feeds, returnEntry_feeds, modNewest, Four.modify_modify]

/-- Two parts of which the second has given up an entry without a report, as far as R11 and R129 look at it. -/
theorem abandonNewest_quiet (n : Ix) (p : Part) :
    Mild p (abandonNewest n false p) ∧ (abandonNewest n false p).links = p.links ∧ (abandonNewest n false p).lanes = p.lanes
      ∧ (abandonNewest n false p).mgmt = p.mgmt
      ∧ ∀ m, ((abandonNewest n false p).feeds.get m).captureOn = (p.feeds.get m).captureOn := by
  by_cases h : ∃ e, newest (p.feeds.get n) = some e ∧ isOpenPicture e = true
  · obtain ⟨e, he, ho⟩ := h
    obtain ⟨hlinks, hlanes, hmgmt, -, hfeeds⟩ := abandonedEntry_frame (n := n) (e := e) (p := p)
    rw [abandonNewest_open false he ho, if_neg Bool.false_ne_true]
    refine ⟨mild_abandonedEntry n e p, hlinks, hlanes, hmgmt, fun m => ?_⟩
    rw [hfeeds, Four.get_modify]
    split <;> rfl
  · have hc : abandonNewest n false p = p := abandonNewest_closed false (fun e he => by
      by_contra ho
      exact h ⟨e, he, by simpa using ho⟩)
    rw [hc]
    exact ⟨.refl p, rfl, rfl, rfl, fun _ => rfl⟩

end Abandon

section LockLost
variable {p : Part} {n m : Ix}

/-- The part once capture and the lanes have followed a link that left LOCKED, and the open picture is given up (R11). -/
def lockGone (n : Ix) (p : Part) : Part := abandonNewest n false (forSourcing n evalUsable (recapture n p))

theorem lockLost_eq (n : Ix) (p : Part) : lockLost n p =
    modLink n (fun l => { l with lineErrors := 0 }) (bumpLink n (fun c => { c with lockLosses := bump c.lockLosses })
      (report (.fl n) .linkLost .none (latchSet (.linkLost n) (lockGone n p)))) := rfl

theorem recapture_lost (hlock : lockedCode p n = none) : ((recapture n p).feeds.get n).captureOn = false := by
  simp [recapture, hlock]

/-- What R11 makes of capture and of the lanes of the feed. -/
theorem lockGone_spec (hlock : lockedCode p n = none) :
    (lockGone n p).links = p.links ∧ ((lockGone n p).feeds.get n).captureOn = false
      ∧ (∀ m, (p.lanes.get m).profile.source = n → losesInput p (lockGone n p) m
        ∧ (lockGone n p).lanes.get m = unusable (p.lanes.get m))
      ∧ (lockGone n p).fault.deviceFatal = p.fault.deviceFatal := by
  have hacts := forSourcing_acts (recapture n p) n
  obtain ⟨hmild, hlinks, hlanes, hmgmt, hcap⟩ := abandonNewest_quiet n (forSourcing n evalUsable (recapture n p))
  refine ⟨hlinks.trans hacts.links, ?_, fun m hm => ?_, hmild.deviceFatal.trans hacts.deviceFatal⟩
  · rw [lockGone, hcap, hacts.feeds]
    exact recapture_lost hlock
  · obtain ⟨h1, h2⟩ := forSourcing_lost (p := recapture n p) (m := m) hlock hm
    refine ⟨losesInput_of h1 rfl ?_ ?_ hmild.latches (fun k r hr => ?_), ?_⟩
    · rw [lockGone, hlanes]
    · rw [lockGone, hmgmt]
      exact id
    · rw [lockGone, hmild.replies]
      exact hr
    · rw [lockGone, hlanes, h2]
      rfl

/-- The effects of R11 on the link, its capture, its lanes, the latches and the log (R5, R7, R10). -/
theorem lockLost_spec (hlock : lockedCode p n = none) :
    (lockLost n p).links = p.links.modify n (fun l => { l with
        ctr := { l.ctr with lockLosses := bump l.ctr.lockLosses }, lineErrors := 0 })
      ∧ ((lockLost n p).feeds.get n).captureOn = false
      ∧ (∀ m, (p.lanes.get m).profile.source = n → losesInput p (lockLost n p) m
        ∧ (lockLost n p).lanes.get m = unusable (p.lanes.get m))
      ∧ Cond.linkLost n ∈ (lockLost n p).fault.latches ∧ (getLog (.fl n) (lockLost n p)).isSome = true
      ∧ (lockLost n p).fault.deviceFatal = p.fault.deviceFatal := by
  obtain ⟨hlinks, hcap, hlanes, hdev⟩ := lockGone_spec hlock
  have hmild := mild_latchSet (.linkLost n) (lockGone n p)
  have hlatch : (lockLost n p).fault.latches = (latchSet (.linkLost n) (lockGone n p)).fault.latches := rfl
  have hreplies (k : Ix) : ((lockLost n p).outs.get k).replies = ((lockGone n p).outs.get k).replies := hmild.replies
  have hlane : (lockLost n p).lanes = (lockGone n p).lanes := by
    rw [lockLost_eq]
    simp
  have hmgmt : (lockLost n p).mgmt = (lockGone n p).mgmt := by
    rw [lockLost_eq]
    simp
  refine ⟨?_, ?_, fun m hm => ⟨losesInput_of (hlanes m hm).1 rfl (by rw [hlane]) (by rw [hmgmt]; exact id) ?_ ?_, ?_⟩, ?_, ?_, hmild.deviceFatal.trans hdev⟩
  · rw [lockLost_eq]
    simp only [bumpLink_eq, modLink_links, report_frame, latchSet_frame, Four.modify_modify, hlinks]
  · rw [lockLost_eq]
    simpa using hcap
  · rw [hlatch]
    exact hmild.latches
  · intro k r hr
    rwa [hreplies]
  · rw [hlane, (hlanes m hm).2]
  · rw [hlatch, mem_latchSet]
    exact .inr rfl
  · have hlog : getLog (.fl n) (lockLost n p) = logReport .linkLost (latchSet (.linkLost n) (lockGone n p)).timebase .none
        ((latchSet (.linkLost n) (lockGone n p)).fault.feedLogs.get n) := by
      rw [lockLost_eq]
      exact Four.get_modify_same ..
    rw [hlog]
    unfold logReport
    split
    · rfl
    · split
      · rfl
      · rfl

end LockLost

/-! ### Activity -/

section Activity
variable {p : Part} {n : Ix} {e : Entry} {k : SlotIx} {a : Int}

/-- A link that has lost its activity (R5). -/
def darkened (l : LinkRx) : LinkRx :=
  { l with
    activity := false, state := .dark, est := none, window := none, missedRun := 0, cur := none, recorded := none
    lastNumber := none, line := none }

theorem loseActivity_eq (n : Ix) (cut : Bool) (p : Part) : loseActivity n cut p =
    if isLocked ((truncated n cut p).links.get n).state then lockLost n (modLink n darkened (truncated n cut p))
    else modLink n darkened (truncated n cut p) := rfl

/-- A packet cut off changes its link's counters and log alone (R3). -/
theorem truncated_eq (n : Ix) (cut : Bool) (p : Part) : truncated n cut p =
    if cut = true ∧ extracts (p.links.get n).state = true then packetFailed n p else p := by
  unfold truncated
  simp only [Bool.and_eq_true]

theorem packetFailed_links (n : Ix) (p : Part) : (packetFailed n p).links = p.links.modify n (fun l =>
    { l with ctr := { l.ctr with packetErrors := bump l.ctr.packetErrors } }) := rfl

theorem truncated_link (n : Ix) (cut : Bool) (p : Part) : (truncated n cut p).links.get n = { p.links.get n with
    ctr := if cut = true ∧ extracts (p.links.get n).state = true then
        { (p.links.get n).ctr with packetErrors := bump (p.links.get n).ctr.packetErrors }
      else (p.links.get n).ctr } := by
  rw [truncated_eq]
  split
  · rw [packetFailed_links, Four.get_modify_same]
  · rfl

theorem truncated_log (n : Ix) (cut : Bool) (p : Part) : getLog (.fl n) (truncated n cut p) =
    if cut = true ∧ extracts (p.links.get n).state = true then logReport .badPacket p.timebase .none (getLog (.fl n) p)
    else getLog (.fl n) p := by
  rw [truncated_eq]
  split
  · exact Four.get_modify_same ..
  · rfl

/-- Behind its links and its logs of feeds the part is as it was. -/
theorem truncated_frame (n : Ix) (cut : Bool) (p : Part) : (truncated n cut p).timebase = p.timebase
    ∧ (truncated n cut p).feeds = p.feeds ∧ (truncated n cut p).store = p.store ∧ (truncated n cut p).lanes = p.lanes
    ∧ (truncated n cut p).outs = p.outs ∧ (truncated n cut p).mgmt = p.mgmt
    ∧ (truncated n cut p).fault.fatalDue = p.fault.fatalDue
    ∧ (truncated n cut p).fault.deviceFatal = p.fault.deviceFatal := by
  rw [truncated_eq]
  split <;> exact ⟨rfl, rfl, rfl, rfl, rfl, rfl, rfl, rfl⟩

theorem lockedCode_dark (h : (p.links.get n).state = .dark) : lockedCode p n = none := by rw [lockedCode, h]

theorem lockedCode_seeking (h : (p.links.get n).state = .seeking) : lockedCode p n = none := by rw [lockedCode, h]

end Activity

section Slots
variable {p : Part} {n : Ix} {e : Entry} {k : SlotIx} {a : Int}

/-- A feed's slot that nothing pins goes back to the free list (R50, R51). -/
theorem returnSlot_free (hr : canReturn n (slotOf p k) = true) (hpins : (slotOf p k).pins = 0)
    (hpois : (slotOf p k).poisoned = false) : returnSlot n k p = slotToFree k p := by
  have h0 : ¬0 < (slotOf p k).pins := by omega
  have h1 : ¬(slotOf p k).poisoned = true := by simp [hpois]
  exact ((if_pos hr).trans (if_neg h0)).trans (if_neg h1)

theorem canReturn_filling (hi : (slotOf p k).intact = true) (ho : (slotOf p k).owner = some n)
    (hs : (slotOf p k).state = .filling ∨ (slotOf p k).state = .history) : canReturn n (slotOf p k) = true := by
  rcases hs with hs | hs <;> simp [canReturn, hi, ho, hs]

theorem isOpenPicture_of (hk : e.kind = .picture k a) (hc : e.complete = false) : isOpenPicture e = true := by
  rw [isOpenPicture, hk, hc]
  rfl

theorem entrySlot_of (hk : e.kind = .picture k a) : entrySlot e = some k := by rw [entrySlot, hk]

/-- An open picture given up: its slot is FREE at the tail of the free list (R36, R51). -/
theorem abandonedEntry_free (hk : e.kind = .picture k a) (hi : (slotOf p k).intact = true)
    (ho : (slotOf p k).owner = some n) (hs : (slotOf p k).state = .filling) (hpins : (slotOf p k).pins = 0)
    (hpois : (slotOf p k).poisoned = false) : abandonedEntry n e p =
      bumpFeed n (fun c => { c with holesAbandoned := bump c.holesAbandoned })
        (slotToFree k (modNewest n (toHole .abandoned) p)) := by
  have hslot : slotOf (modNewest n (toHole .abandoned) p) k = slotOf p k := rfl
  have hr : returnEntry n e (modNewest n (toHole .abandoned) p) = slotToFree k (modNewest n (toHole .abandoned) p) := by
    rw [returnEntry, entrySlot_of hk]
    exact returnSlot_free (by rw [hslot]; exact canReturn_filling hi ho (.inl hs)) (by rw [hslot]; exact hpins)
      (by rw [hslot]; exact hpois)
  rw [abandonedEntry, hr]

end Slots

section Lost
variable {p : Part} {n : Ix} {e : Entry} {k : SlotIx} {a : Int}

/-- Leaving LOCKED with a picture open: it becomes an ABANDONED hole and its slot is FREE (R11, R36). -/
theorem lockLost_abandoned (he : newest (p.feeds.get n) = some e) (hk : e.kind = .picture k a) (hc : e.complete = false)
    (hi : (slotOf p k).intact = true) (ho : (slotOf p k).owner = some n) (hs : (slotOf p k).state = .filling)
    (hpins : (slotOf p k).pins = 0) (hpois : (slotOf p k).poisoned = false) :
    ((lockLost n p).feeds.get n).history = (p.feeds.get n).history.dropLast ++ [toHole .abandoned e]
      ∧ ((lockLost n p).feeds.get n).ctr.holesAbandoned = bump (p.feeds.get n).ctr.holesAbandoned
      ∧ slotOf (lockLost n p) k = { slotOf p k with state := .free, owner := none, intact := true }
      ∧ (lockLost n p).store.freeList = p.store.freeList ++ [k]
      ∧ (lockLost n p).fault.fatalDue = p.fault.fatalDue := by
  have hacts := forSourcing_acts (recapture n p) n
  have hrec : (recapture n p).feeds.get n = { p.feeds.get n with
      captureOn := (lockedCode p n).isSome && decide (0 < runningCount p n) } := Four.get_modify_same ..
  have hfeed : (forSourcing n evalUsable (recapture n p)).feeds.get n = (recapture n p).feeds.get n := by rw [hacts.feeds]
  have hstore : (forSourcing n evalUsable (recapture n p)).store = p.store := hacts.store
  have hdue : (forSourcing n evalUsable (recapture n p)).fault.fatalDue = p.fault.fatalDue := hacts.sameDue
  have hnew : newest ((forSourcing n evalUsable (recapture n p)).feeds.get n) = some e := by
    rw [hfeed, hrec]
    exact he
  have hslot : slotOf (forSourcing n evalUsable (recapture n p)) k = slotOf p k := slotOf_congr _ _ hstore
  rw [lockLost_eq, lockGone, abandonNewest_open false hnew (isOpenPicture_of hk hc), if_neg Bool.false_ne_true]
  rw [hrec] at hfeed
  generalize forSourcing n evalUsable (recapture n p) = b at *
  have hfeeds := (abandonedEntry_frame (n := n) (e := e) (p := b)).2.2.2.2
  have hab := abandonedEntry_free (p := b) (n := n) hk (by rw [hslot]; exact hi) (by rw [hslot]; exact ho) (by rw [hslot]; exact hs)
    (by rw [hslot]; exact hpins) (by rw [hslot]; exact hpois)
  have hfeed' : (abandonedEntry n e b).feeds.get n = { b.feeds.get n with
      history := mapNewest (toHole .abandoned) (b.feeds.get n).history
      ctr := { (b.feeds.get n).ctr with holesAbandoned := bump (b.feeds.get n).ctr.holesAbandoned } } := by
    rw [hfeeds, Four.get_modify_same]
  have hst : (abandonedEntry n e b).store = (slotToFree k b).store := by
    rw [hab]
    rfl
  have hfault : (abandonedEntry n e b).fault = b.fault := by
    rw [hab]
    rfl
  generalize abandonedEntry n e b = c at *
  refine ⟨?_, ?_, ?_, ?_, ?_⟩
  · simp only [bumpLink_eq, modLink_feeds, report_frame, latchSet_frame, hfeed', hfeed]
    exact PacketPaths.mapNewest_last _ he
  · simp only [bumpLink_eq, modLink_feeds, report_frame, latchSet_frame, hfeed', hfeed]
  · rw [slotOf_congr k c (by simp), slotOf_set (p := b) (k := k) (by rw [hst, slotToFree_store]), if_pos rfl, hslot]
  · simp only [bumpLink_eq, modLink_store, report_frame, latchSet_frame, hst, slotToFree_store, hstore]
  · show (latchSet (.linkLost n) c).fault.fatalDue = _
    rw [(latchSet_fault_flags c _).2.2.1, hfault, hdue]

end Lost

/-! ### O22 -/

/-- Settles O22. -/
theorem activityMovesTheLink : Obligations.ActivityMovesTheLink := by
  refine ⟨fun env n s hq hd => ?_, fun env n cut s hq hl => ?_, fun env n cut s hq hl => ?_⟩
  · have hx : exec (.activityGained env n) s = .next { s with part := settle (gainActivity n (foundBy env s)) } :=
      happens_quiet _ _ hq
    rw [hx, ← found_links env s]
    rw [← found_links env s] at hd
    have hf : (foundBy env s).fault.fatalDue = false := by simp [hq.1]
    generalize foundBy env s = q at *
    rw [settle_quiet (p := gainActivity n q) hf]
    have hg : gainActivity n q = { q with links := q.links.modify n (fun l =>
        { l with activity := true, state := .seeking, cur := none, recorded := none, lastNumber := none, line := none }) } := by
      simp only [gainActivity, modLink, Four.modify, hd, if_true]
    rw [hg]
  · have hx : exec (.activityLost env n cut) s = .next { s with part := settle (loseActivity n cut (foundBy env s)) } :=
      happens_quiet _ _ hq
    have hf : (foundBy env s).fault.fatalDue = false := by simp [hq.1]
    have hlinks := found_links env s
    have hfeeds : (foundBy env s).feeds = s.part.feeds := found_feeds ..
    have houts : (foundBy env s).outs = s.part.outs := found_outs ..
    have hlog : getLog (.fl n) (foundBy env s) = getLog (.fl n) s.part := by rw [getLog, getLog, found_fault]
    generalize foundBy env s = q at *
    have hlink := truncated_link n cut q
    have hlog' := truncated_log n cut q
    obtain ⟨htime, hfeed, -, hlane, hout, -, hdue, -⟩ := truncated_frame n cut q
    have hex : (s.part.links.get n).state = .measuring ↔ extracts (q.links.get n).state = true := by
      rw [hlinks]
      cases hs : (s.part.links.get n).state <;> simp [extracts, hs, isLocked] at hl ⊢
    rw [loseActivity_eq, if_neg (by rw [hlink, hlinks]; simp [hl])] at hx
    generalize truncated n cut q = r at *
    rw [settle_quiet (p := modLink n darkened r) (hdue.trans hf)] at hx
    refine ⟨_, hx, ?_⟩
    have ha : (modLink n darkened r).links.get n = darkened (r.links.get n) := Four.get_modify_same ..
    simp only [hex, ha]
    refine ⟨rfl, rfl, rfl, rfl, rfl, rfl, rfl, rfl, rfl, ?_, ?_, ?_, ?_, hfeed.trans hfeeds, hlane, hout.trans houts⟩
    · rw [← hlinks]
      have e := congrArg LinkRx.lastCode hlink
      exact e
    · rw [← hlinks]
      have e := congrArg LinkRx.settings hlink
      exact e
    · rw [← hlinks]
      have e := congrArg LinkRx.ctr hlink
      exact e
    · rw [← hlog]
      refine Eq.trans ?_ (hlog'.trans (by rw [← htime] <;> rfl))
      rfl
  · have hx : exec (.activityLost env n cut) s = .next { s with part := settle (loseActivity n cut (foundBy env s)) } :=
      happens_quiet _ _ hq
    have hf : (foundBy env s).fault.fatalDue = false := by simp [hq.1]
    have hlinks := found_links env s
    have hfeeds : (foundBy env s).feeds = s.part.feeds := found_feeds ..
    have hfree : (foundBy env s).store.freeList = s.part.store.freeList := found_store_freeList ..
    have hfatal : (foundBy env s).fault.deviceFatal = s.part.fault.deviceFatal := by rw [found_fault]
    have hprof (m : Ix) : ((foundBy env s).lanes.get m).profile = (s.part.lanes.get m).profile := by simp
    have hslot (k : SlotIx) : (slotOf (foundBy env s) k).intact = true → slotOf (foundBy env s) k = slotOf s.part k :=
      slot_same_of_intact
    generalize foundBy env s = q at *
    have hlink := truncated_link n cut q
    obtain ⟨-, hfeed, hstore, hlane, houts, hmgmt, hdue, hdev⟩ := truncated_frame n cut q
    rw [loseActivity_eq, if_pos (by rw [hlink, hlinks]; exact hl)] at hx
    generalize truncated n cut q = r at *
    have hget : (modLink n darkened r).links.get n = darkened (r.links.get n) := Four.get_modify_same ..
    have hlock : lockedCode (modLink n darkened r) n = none := lockedCode_dark (by rw [hget]; rfl)
    obtain ⟨hl1, hl2, hl3, hl4, hl5, hl6⟩ := lockLost_spec hlock
    have hlost (e : Entry) (k : SlotIx) (a : Int) := lockLost_abandoned (p := modLink n darkened r) (n := n) (e := e) (k := k) (a := a)
    have hsettle := endured_settle (lockLost n (modLink n darkened r))
    have huse (m : Ix) := settle_usable (p := lockLost n (modLink n darkened r)) m
    have hloses (m : Ix) (h : losesInput (modLink n darkened r) (lockLost n (modLink n darkened r)) m) := settle_losesInput h
    have hquiet := settle_quiet (p := lockLost n (modLink n darkened r))
    have hlane' (m : Ix) : (modLink n darkened r).lanes.get m = q.lanes.get m := by rw [← hlane]; rfl
    have hview (m : Ix) : laneOpView m q = laneOpView m (modLink n darkened r) := by
      rw [laneOpView, laneOpView, hlane', ← hmgmt]
      rfl
    have hlockL : lockedCode (lockLost n (modLink n darkened r)) n = none := by
      rw [lockedCode, hl1, Four.get_modify_same, hget]
      rfl
    generalize settle (lockLost n (modLink n darkened r)) = t at *
    have htl : t.links.get n = { darkened (r.links.get n) with
        ctr := { (r.links.get n).ctr with lockLosses := bump (r.links.get n).ctr.lockLosses }, lineErrors := 0 } := by
      rw [hsettle.links, hl1, Four.get_modify_same, hget]
      rfl
    have hsrc (m : Ix) (hm : (s.part.lanes.get m).profile.source = n) :
        ((modLink n darkened r).lanes.get m).profile.source = n := by rw [hlane', hprof, hm]
    refine ⟨_, hx, ?_⟩
    dsimp only
    rw [htl]
    refine ⟨rfl, rfl, rfl, rfl, rfl, rfl, rfl, rfl, rfl, ?_, ?_, hsettle.capture n hlockL hl2, fun m hm => ?_,
      fun hcalm m hm => ?_, hsettle.latches _ hl4, ?_, fun e k a he hk hc hi ho hs hp hz => ?_⟩
    · rw [← hlinks]
      have e := congrArg LinkRx.lastCode hlink
      exact e
    · rw [← hlinks, hlink]
      dsimp only
      split <;> rfl
    · rw [huse, (hl3 m (hsrc m hm)).2]
      exact unusable_usable _
    · refine losesInput_of (hloses m (hl3 m (hsrc m hm)).1 ?_) (hview m) rfl id (fun _ h => h) (fun _ _ h => h)
      rw [hcalm, hl6, ← hfatal, ← hdev]
      rfl
    · rw [getLog, hsettle.feedLogs]
      exact hl5
    · have hfeed' : (modLink n darkened r).feeds.get n = s.part.feeds.get n := by
        rw [← hfeeds, ← hfeed]
        rfl
      have hslot' : slotOf (modLink n darkened r) k = slotOf q k := slotOf_congr _ _ hstore
      have hsame := hslot k hi
      rw [← hsame] at ho hs hp hz
      obtain ⟨h1, h2, h3, h4, h5⟩ := hlost e k a (hfeed'.symm ▸ he) hk hc (hslot'.symm ▸ hi) (hslot'.symm ▸ ho)
        (hslot'.symm ▸ hs) (hslot'.symm ▸ hp) (hslot'.symm ▸ hz)
      have hdueL : (lockLost n (modLink n darkened r)).fault.fatalDue = false := h5.trans (hdue.trans hf)
      rw [hquiet hdueL, h1, h2, h3, h4, hfeed']
      refine ⟨rfl, rfl, rfl, rfl, ?_⟩
      rw [← hfree, ← hstore]
      rfl

end Sys2Proof.Machine.LockLoss
end

section
/-! SUPPORT. Line starts (R1, R6, R7): missed markers, breaks of the sequence, and the way to SEEKING. -/

namespace Sys2Proof.Machine.LineStarts

open Frames Keeping LaneValues HistoryLaw LaneEnds LockLoss

/-! ### A packet cut off comes first -/

section Cut
variable {env : Env} {n : Ix} {s : State}

theorem begin_at {t : Nat} {p : Part} (h : t ≤ p.timebase) : begin t [] p = p := by
  have e : begin t [] p = { p with timebase := max p.timebase t } := rfl
  rw [e, Nat.max_eq_left h]

theorem found_timebase_le (env : Env) (s : State) : env.time ≤ (foundBy env s).timebase := by
  rw [found_timebase]
  exact Nat.le_max_right ..

/-- A part that an event has found and that nothing is due in. -/
theorem quiet_of {q : Part} (hq : quiet s) (hf : q.fault.fatalDue = s.part.fault.fatalDue) (hm : q.mgmt = s.part.mgmt)
    (ho : q.outs = s.part.outs) : quiet { s with part := q } := ⟨hf.trans hq.1, (JobRowsLaw.arbiter_congr hm ho).trans hq.2⟩

/-- An event that begins with a packet cut off is the packet's failure and then the event without it, at the same instant
(R3). -/
theorem cut_first {g : Part → Part} (hq : quiet s) : happens env (fun p => g (truncated n true p)) s =
    if extracts (s.part.links.get n).state then
      happens ⟨env.time, []⟩ (fun p => g (truncated n false p)) { s with
        part := { foundBy env s with
          links := s.part.links.modify n (fun l => { l with ctr := { l.ctr with packetErrors := bump l.ctr.packetErrors } })
          fault := { s.part.fault with
            feedLogs := s.part.fault.feedLogs.modify n (logReport .badPacket (max s.part.timebase env.time) .none) } } }
    else happens env (fun p => g (truncated n false p)) s := by
  have hex : extracts ((foundBy env s).links.get n).state = extracts (s.part.links.get n).state := by rw [found_links]
  rw [happens_quiet _ _ hq]
  show Host.Outcome.next { s with part := settle (g (truncated n true (foundBy env s))) } = _
  by_cases h : extracts (s.part.links.get n).state = true
  · have hfailed : truncated n true (foundBy env s) = { foundBy env s with
        links := s.part.links.modify n (fun l => { l with ctr := { l.ctr with packetErrors := bump l.ctr.packetErrors } })
        fault := { s.part.fault with
          feedLogs := s.part.fault.feedLogs.modify n (logReport .badPacket (max s.part.timebase env.time) .none) } } := by
      rw [truncated_eq, if_pos ⟨rfl, hex.trans h⟩, ← found_links env s, ← found_fault env s, ← found_timebase env s]
      rfl
    have htime : env.time ≤ (truncated n true (foundBy env s)).timebase := by
      rw [(truncated_frame n true _).1]
      exact found_timebase_le env s
    rw [if_pos h, ← hfailed, happens_quiet]
    · show _ = Host.Outcome.next { s with
        part := settle (g (truncated n false (begin env.time [] (truncated n true (foundBy env s))))) }
      rw [begin_at htime, truncated_eq n false, if_neg (fun e => Bool.false_ne_true e.1)]
    · refine quiet_of hq ?_ ?_ ?_
      · rw [(truncated_frame n true _).2.2.2.2.2.2.1, found_fault]
      · rw [(truncated_frame n true _).2.2.2.2.2.1, found_mgmt]
      · rw [(truncated_frame n true _).2.2.2.2.1, found_outs]
  · rw [if_neg h, happens_quiet _ _ hq]
    show _ = Host.Outcome.next { s with part := settle (g (truncated n false (foundBy env s))) }
    rw [truncated_eq n true, if_neg (fun e => h (hex.symm.trans e.2)), truncated_eq n false, if_neg (fun e => Bool.false_ne_true e.1)]

theorem truncated_whole (n : Ix) (p : Part) : truncated n false p = p := by
  rw [truncated_eq, if_neg (fun e => Bool.false_ne_true e.1)]

end Cut

/-! ### The way to SEEKING -/

section Seeking
variable {p q : Part} {n f : Ix} {cur : Option Current}

/-- A link that goes to SEEKING, with what its search goes on from (R7, R10). -/
def sought (cur : Option Current) (l : LinkRx) : LinkRx :=
  { l with state := .seeking, est := none, window := none, recorded := none, cur := cur }

theorem toSeeking_eq (n : Ix) (cur : Option Current) (p : Part) : toSeeking n cur p =
    if isLocked (p.links.get n).state then lockLost n (modLink n (sought cur) p) else modLink n (sought cur) p := rfl

/-- The sequence of a feed goes on through the end of a step (R23, R37). -/
theorem leaveRunning_nextSeq (s : LaneState) : ((leaveRunning n s p).feeds.get f).nextSeq = (p.feeds.get f).nextSeq := by
  unfold leaveRunning
  dsimp only
  simp only [recapture, modFeed_feeds, Four.get_modify]
  split <;> split <;> simp [flushFeed_feeds, Four.get_modify]
  all_goals split <;> rfl

theorem deviceFatalLane_nextSeq : ((deviceFatalLane n p).feeds.get f).nextSeq = (p.feeds.get f).nextSeq := by
  have h : ((laneFatal n p).feeds.get f).nextSeq = (p.feeds.get f).nextSeq := by
    unfold laneFatal
    simp only [bumpLane_eq, modLane_feeds, latchSet_frame, leaveRunning_nextSeq, clearPending, endLaneOp_frame, clearLane_frame]
  unfold deviceFatalLane
  split
  · rfl
  · simp
  all_goals exact h

theorem settle_nextSeq : ((settle p).feeds.get f).nextSeq = (p.feeds.get f).nextSeq := by
  unfold settle
  split
  · dsimp only
    split
    · rfl
    · have h : ∀ a : Part, ((forEach deviceFatalLane a).feeds.get f).nextSeq = (a.feeds.get f).nextSeq := fun a => by
        have e : forEach deviceFatalLane a = deviceFatalLane 3 (deviceFatalLane 2 (deviceFatalLane 1 (deviceFatalLane 0 a))) := rfl
        rw [e, deviceFatalLane_nextSeq, deviceFatalLane_nextSeq, deviceFatalLane_nextSeq, deviceFatalLane_nextSeq]
      show ((enterDeviceFatal p).feeds.get f).nextSeq = _
      rw [enterDeviceFatal, h]
      simp
  · rfl

theorem lockLost_nextSeq : ((lockLost n p).feeds.get f).nextSeq = (p.feeds.get f).nextSeq := by
  have hacts := forSourcing_acts (recapture n p) n
  have h : ((lockGone n p).feeds.get f).nextSeq = (p.feeds.get f).nextSeq := by
    have hr : ((forSourcing n evalUsable (recapture n p)).feeds.get f).nextSeq = (p.feeds.get f).nextSeq := by
      rw [hacts.feeds]
      simp only [recapture, modFeed_feeds, Four.get_modify]
      split <;> rfl
    rw [← hr, lockGone]
    generalize forSourcing n evalUsable (recapture n p) = b
    by_cases ho : ∃ e, newest (b.feeds.get n) = some e ∧ isOpenPicture e = true
    · obtain ⟨e, he, ho⟩ := ho
      rw [abandonNewest_open false he ho, if_neg Bool.false_ne_true,
        (abandonedEntry_frame (n := n) (e := e) (p := b)).2.2.2.2, Four.get_modify]
      split <;> rfl
    · rw [abandonNewest_closed false (fun e he => by
        by_contra hc
        exact ho ⟨e, he, by simpa using hc⟩)]
  rw [lockLost_eq]
  simpa using h

/-- What a link that leaves LOCKED leaves behind in the part `t`, from the part `p` (R11, R129). -/
structure LostLock (n : Ix) (p t : Part) : Prop where
  capture : (t.feeds.get n).captureOn = false
  latched : Cond.linkLost n ∈ t.fault.latches
  logged : (getLog (.fl n) t).isSome = true
  nextSeq : (t.feeds.get n).nextSeq = (p.feeds.get n).nextSeq
  usable : ∀ m, (p.lanes.get m).profile.source = n → (t.lanes.get m).usable = false
  loses : t.fault.deviceFatal = p.fault.deviceFatal → ∀ m, (p.lanes.get m).profile.source = n → losesInput p t m

/-- The end of the step in which a link leaves LOCKED, whatever its link record does then (R11, R58). -/
theorem lockLost_settled (g : LinkRx → LinkRx) (hlock : lockedCode p n = none) (hg : ∀ l, (g l).state = l.state) :
    (settle (modLink n g (lockLost n p))).links.get n = g { p.links.get n with
        ctr := { (p.links.get n).ctr with lockLosses := bump (p.links.get n).ctr.lockLosses }, lineErrors := 0 }
      ∧ LostLock n p (settle (modLink n g (lockLost n p))) := by
  obtain ⟨hlinks, hcap, hlanes, hlatch, hlog, hdev⟩ := lockLost_spec hlock
  have hseq := lockLost_nextSeq (n := n) (f := n) (p := p)
  have hget : (modLink n g (lockLost n p)).links.get n = g { p.links.get n with
      ctr := { (p.links.get n).ctr with lockLosses := bump (p.links.get n).ctr.lockLosses }, lineErrors := 0 } := by
    rw [modLink_links, Four.get_modify_same, hlinks, Four.get_modify_same]
  have hlock' : lockedCode (modLink n g (lockLost n p)) n = none := by
    rw [lockedCode, hget, hg]
    exact hlock
  have hl : (modLink n g (lockLost n p)).lanes = (lockLost n p).lanes := rfl
  have hv (m : Ix) (h : losesInput p (lockLost n p) m) : losesInput p (modLink n g (lockLost n p)) m :=
    losesInput_of h rfl rfl id (fun _ h => h) (fun _ _ h => h)
  have hend := endured_settle (modLink n g (lockLost n p))
  refine ⟨hend.links ▸ hget, hend.capture n hlock' hcap, hend.latches _ hlatch, ?_, ?_, fun m hm => ?_, fun hcalm m hm => ?_⟩
  · rw [getLog, hend.feedLogs]
    exact hlog
  · rw [settle_nextSeq]
    exact hseq
  · rw [settle_usable, hl, (hlanes m hm).2]
    exact unusable_usable _
  · refine settle_losesInput (hv m (hlanes m hm).1) (hcalm.trans ?_)
    exact hdev.symm

/-- What the receiver sees of a line start (R1). -/
def seen (number : Nat) (blank : Bool) (l : LinkRx) : LinkRx := { l with lastNumber := some number, line := some (!blank) }

/-- A link that goes to SEEKING at a line start, with the rest of its step (R7, R10, R11). -/
theorem seeking_settled (number : Nat) (blank : Bool) (hf : p.fault.fatalDue = false) :
    (settle (seeLine n number blank (toSeeking n cur p))).links.get n = { sought cur (p.links.get n) with
        lineErrors := if isLocked (p.links.get n).state then 0 else (p.links.get n).lineErrors
        ctr := if isLocked (p.links.get n).state then
            { (p.links.get n).ctr with lockLosses := bump (p.links.get n).ctr.lockLosses } else (p.links.get n).ctr
        lastNumber := some number, line := some (!blank) }
      ∧ if isLocked (p.links.get n).state then LostLock n p (settle (seeLine n number blank (toSeeking n cur p)))
        else settle (seeLine n number blank (toSeeking n cur p)) =
          { p with links := (settle (seeLine n number blank (toSeeking n cur p))).links } := by
  have hs : seeLine n number blank (toSeeking n cur p) = modLink n (seen number blank) (toSeeking n cur p) := rfl
  have hget : (modLink n (sought cur) p).links.get n = sought cur (p.links.get n) := Four.get_modify_same ..
  rw [hs, toSeeking_eq]
  by_cases h : isLocked (p.links.get n).state = true
  · have hlock : lockedCode (modLink n (sought cur) p) n = none := lockedCode_seeking (by rw [hget]; rfl)
    obtain ⟨h1, h2⟩ := lockLost_settled (seen number blank) hlock (fun _ => rfl)
    simp only [h, if_true]
    refine ⟨?_, h2.capture, h2.latched, h2.logged, h2.nextSeq, h2.usable, fun hcalm m hm => ?_⟩
    · rw [h1, hget]
      rfl
    · exact losesInput_of (h2.loses hcalm m hm) rfl rfl id (fun _ h => h) (fun _ _ h => h)
  · simp only [h, if_false, Bool.false_eq_true]
    rw [settle_quiet (p := modLink n (seen number blank) (modLink n (sought cur) p)) hf]
    refine ⟨?_, rfl⟩
    rw [modLink_links, Four.get_modify_same, hget]
    rfl

end Seeking

/-! ### Line starts -/

section Lines
variable {p : Part} {n : Ix} {number : Nat} {blank : Bool} {e : Established} {c : Current}

theorem takeLine_cut (n : Ix) (number : Nat) (blank cut : Bool) (p : Part) :
    takeLine n number blank cut p = takeLine n number blank false (truncated n cut p) := by
  have h : takeLine n number blank false (truncated n cut p) =
      match ((truncated n false (truncated n cut p)).links.get n).state with
      | .dark => truncated n false (truncated n cut p)
      | .seeking => seeLine n number blank (lineSeeking n number blank (truncated n false (truncated n cut p)))
      | .measuring => seeLine n number blank (lineChecked n number blank (truncated n false (truncated n cut p)))
      | .locked _ => seeLine n number blank (lineChecked n number blank (truncated n false (truncated n cut p))) := rfl
  rw [h, truncated_whole]
  rfl

theorem takeLine_dark (h : (p.links.get n).state = .dark) : takeLine n number blank false p = p := by
  rw [takeLine, truncated_whole]
  simp only [h]

theorem takeLine_seeking (h : (p.links.get n).state = .seeking) :
    takeLine n number blank false p = seeLine n number blank (lineSeeking n number blank p) := by
  rw [takeLine, truncated_whole]
  simp only [h]

theorem takeLine_extracts (h : extracts (p.links.get n).state = true) :
    takeLine n number blank false p = seeLine n number blank (lineChecked n number blank p) := by
  rw [takeLine, truncated_whole]
  cases hs : (p.links.get n).state with
  | dark => simp [hs, extracts] at h
  | seeking => simp [hs, extracts] at h
  | measuring => rfl
  | locked code => rfl

/-- A link that has missed a marker (R7). -/
def missed (l : LinkRx) : LinkRx :=
  { l with ctr := { l.ctr with missedMarkers := bump l.ctr.missedMarkers }, missedRun := l.missedRun + 1, window := none }

theorem modLink_const {f g : LinkRx → LinkRx} (h : f (p.links.get n) = g (p.links.get n)) : modLink n f p = modLink n g p := by
  simp only [modLink, Four.modify, h]

theorem modLink_id (n : Ix) (p : Part) : modLink n id p = p := by
  have h : p.links.modify n id = p.links := Four.set_get ..
  rw [modLink, h]

theorem missedRun_counted (n : Ix) (p : Part) : modLink n
    (fun l => { l with missedRun := (p.links.get n).missedRun + 1, window := none })
    (bumpLink n (fun c => { c with missedMarkers := bump c.missedMarkers }) p) = modLink n missed p := by
  rw [bumpLink_eq, modLink_modLink]
  exact modLink_const rfl

theorem missedMarker_lost (h : 2 ≤ (p.links.get n).missedRun) :
    missedMarker n blank p = toSeeking n none (modLink n missed p) := by
  unfold missedMarker
  dsimp only
  rw [missedRun_counted, if_pos (by omega)]

theorem missedMarker_stays (h : (p.links.get n).missedRun < 2) (he : (p.links.get n).est = some e)
    (hc : (p.links.get n).cur = some c) : missedMarker n blank p = modLink n (fun l => { missed l with
      cur := some (beginPicture (expectedParity e c.parity) (expectedParity e c.parity) blank false) }) p := by
  unfold missedMarker
  dsimp only
  rw [missedRun_counted, if_neg (by omega)]
  simp only [he, hc]
  exact modLink_modLink ..

end Lines

/-- Settles O26. -/
theorem missedMarkersCount : Obligations.MissedMarkersCount := by
  intro env n number parity blank s l hq hl
  have hx (number : Nat) : exec (.lineStart env n number parity blank false) s =
      .next { s with part := settle (takeLine n number blank false (foundBy env s)) } := happens_quiet _ _ hq
  have hcut : exec (.lineStart env n number parity blank true) s = happens env (takeLine n number blank true) s := rfl
  refine ⟨fun e c hex he hc hrun => ?_, fun hex hbreak => ?_, fun hex hnum hseq => ?_, fun hs => ?_, fun hs => ?_, ?_⟩
  · rw [hx, ← found_links env s]
    rw [hl, ← found_links env s] at hex he hc hrun
    have hf : (foundBy env s).fault.fatalDue = false := by simp [hq.1]
    generalize foundBy env s = q at *
    have ht : takeLine n 1 blank false q = modLink n (fun l => { l with
        ctr := { l.ctr with missedMarkers := bump l.ctr.missedMarkers }
        missedRun := l.missedRun + 1, window := none
        cur := some (beginPicture (expectedParity e c.parity) (expectedParity e c.parity) blank false)
        lastNumber := some 1, line := some (!blank) }) q := by
      rw [takeLine_extracts hex, lineChecked, if_pos rfl, missedMarker_stays hrun he hc]
      simp only [seeLine, modLink_modLink]
      rfl
    rw [ht, settle_quiet (p := modLink n _ q) hf]
    rfl
  · rw [hx]
    have hlinks := found_links env s
    have hfatal : (foundBy env s).fault.deviceFatal = s.part.fault.deviceFatal := by rw [found_fault]
    have hfeeds : (foundBy env s).feeds = s.part.feeds := found_feeds ..
    have hsrc (m : Ix) : ((foundBy env s).lanes.get m).profile.source = (s.part.lanes.get m).profile.source := by simp
    have hf : (foundBy env s).fault.fatalDue = false := by simp [hq.1]
    rw [← hlinks] at hl
    generalize foundBy env s = q at *
    refine ⟨_, rfl, ?_⟩
    have hto : ∃ g : LinkRx → LinkRx, lineChecked n number blank q = toSeeking n none (modLink n g q)
        ∧ g l = { l with
            missedRun := if number = 1 then 3 else l.missedRun
            ctr := { l.ctr with missedMarkers := if number = 1 then bump l.ctr.missedMarkers else l.ctr.missedMarkers }
            window := if number = 1 then none else l.window } := by
      rcases hbreak with ⟨h1, h2⟩ | ⟨h1, h2⟩
      · refine ⟨missed, ?_, ?_⟩
        · rw [lineChecked, if_pos h1, missedMarker_lost (by rw [← hl, h2])]
        · simp only [missed, h1, h2, if_true]
      · refine ⟨id, ?_, ?_⟩
        · rw [lineChecked, if_neg h1, if_pos (by rw [← hl, h2])]
          rw [modLink_id]
        · simp only [h1, if_false]
          rfl
    obtain ⟨g, hg, hgl⟩ := hto
    rw [takeLine_extracts (by rw [← hl]; exact hex), hg]
    have hget : (modLink n g q).links.get n = g l := by rw [modLink_links, Four.get_modify_same, hl]
    have hstate : isLocked ((modLink n g q).links.get n).state = isLocked l.state := by rw [hget, hgl]
    obtain ⟨h1, h2⟩ := seeking_settled (p := modLink n g q) (n := n) (cur := none) number blank hf
    rw [hstate] at h1 h2
    generalize settle (seeLine n number blank (toSeeking n none (modLink n g q))) = t at *
    refine ⟨?_, ?_⟩
    · refine h1.trans ?_
      rw [hget, hgl, hl]
      simp only [sought]
      split_ifs <;> rfl
    · split at h2 <;> rename_i hlock
      · rw [if_pos hlock]
        refine ⟨h2.capture, h2.latched, h2.logged, fun m hm => h2.usable m ((hsrc m).trans hm),
          fun hcalm m hm => ?_⟩
        exact losesInput_of (h2.loses (hcalm.trans hfatal.symm) m ((hsrc m).trans hm)) rfl rfl id
          (fun _ h => h) (fun _ _ h => h)
      · rw [if_neg hlock]
        exact h2
  · rw [hx, ← found_links env s]
    rw [hl, ← found_links env s] at hex hseq
    have hf : (foundBy env s).fault.fatalDue = false := by simp [hq.1]
    generalize foundBy env s = q at *
    have ht : takeLine n number blank false q = modLink n (fun l => { l with
        cur := l.cur.map (countLine blank), lastNumber := some number, line := some (!blank) }) q := by
      rw [takeLine_extracts hex, lineChecked, if_neg hnum, if_neg (by simp [hseq]), seeLine, modLink_modLink]
    rw [ht, settle_quiet (p := modLink n _ q) hf]
    rfl
  · rw [hx, ← found_links env s]
    rw [hl, ← found_links env s] at hs
    have hf : (foundBy env s).fault.fatalDue = false := by simp [hq.1]
    generalize foundBy env s = q at *
    have ht : takeLine n number blank false q = modLink n (fun l => { l with
        cur := if number = 1 ∨ outOfSequence l.lastNumber number false = true then none else l.cur.map (countLine blank)
        recorded := if number = 1 ∨ outOfSequence l.lastNumber number false = true then none else l.recorded
        lastNumber := some number, line := some (!blank) }) q := by
      rw [takeLine_seeking hs, lineSeeking]
      by_cases hbreak : number = 1 ∨ outOfSequence (q.links.get n).lastNumber number false = true
      · rw [if_pos (by simpa using hbreak), seeLine, modLink_modLink]
        refine modLink_const ?_
        simp only [if_pos hbreak]
      · rw [if_neg (by simpa using hbreak), seeLine, modLink_modLink]
        refine modLink_const ?_
        simp only [if_neg hbreak]
    rw [ht, settle_quiet (p := modLink n _ q) hf]
    rfl
  · rw [hx, takeLine_dark (by rw [found_links, ← hl, hs]), settle_quiet (by simp [hq.1])]
  · have h1 : takeLine n number blank true = fun p => takeLine n number blank false (truncated n true p) :=
      funext (takeLine_cut n number blank true)
    have h2 : (fun p => takeLine n number blank false (truncated n false p)) = takeLine n number blank false :=
      funext fun p => by rw [truncated_whole]
    rw [hcut, h1, cut_first hq, h2, hl]
    rfl

end Sys2Proof.Machine.LineStarts
end

section
/-! SUPPORT. The end of a line: its check (R2), its samples in the slot (R33, R47), and the completion of a picture (R13,
R34, R50). -/

namespace Sys2Proof.Machine.LineEnds

open Frames Keeping LaneValues HistoryLaw LaneEnds LockLoss LineStarts StoreValues SlotsLaw

/-! ### The samples of a line -/

section Runs
variable {k : SlotIx} {comp : Component} {line : Nat} {vs : List Sample} {st : Cells}

/-- Values written one after another from sample `i` on. -/
def writeFrom (k : SlotIx) (comp : Component) (line i : Nat) (vs : List Sample) (st : Cells) : Cells :=
  (vs.zipIdx i).foldl (fun st vi => writeSample (sampleAddress k comp line vi.2) vi.1 st) st

theorem writeFrom_cons (v : Sample) (i : Nat) : writeFrom k comp line i (v :: vs) st =
    writeFrom k comp line (i + 1) vs (writeSample (sampleAddress k comp line i) v st) := by
  simp only [writeFrom, List.zipIdx_cons, List.foldl_cons]

theorem sampleAddress_col {i j : Nat} (h : i ≠ j) : sampleAddress k comp line i ≠ sampleAddress k comp line j := by
  unfold sampleAddress
  cases comp <;> simp only <;> omega

/-- What a run of writes does not reach reads as before. -/
theorem writeFrom_other {a : Nat} (i : Nat) (h : memoryWf st.1)
    (ha : ∀ j, i ≤ j → j < i + vs.length → a ≠ sampleAddress k comp line j) :
    memoryRead (writeFrom k comp line i vs st).1 a = memoryRead st.1 a := by
  induction vs generalizing i st with
  | nil => rfl
  | cons v vs ih =>
    rw [writeFrom_cons, ih (st := writeSample (sampleAddress k comp line i) v st) (i + 1) (memoryWf_write h) (fun j hj hl => ha j (by omega) (by simp; omega))]
    exact memoryRead_write_other h (ha i le_rfl (by simp))

/-- What a run of writes puts at a sample reads as the value of it. -/
theorem writeFrom_same {j : Nat} {v : Sample} (i : Nat) (h : memoryWf st.1) (hv : vs[j]? = some v) :
    memoryRead (writeFrom k comp line i vs st).1 (sampleAddress k comp line (i + j)) = v := by
  induction vs generalizing i j st with
  | nil => cases hv
  | cons w vs ih =>
    rw [writeFrom_cons]
    cases j with
    | zero =>
      cases hv
      rw [writeFrom_other (st := writeSample (sampleAddress k comp line i) v st) (i + 1) (memoryWf_write h) (fun j hj _ => sampleAddress_col (by omega))]
      exact memoryRead_write_same h
    | succ j =>
      have h' := ih (j := j) (st := writeSample (sampleAddress k comp line i) w st) (i + 1) (memoryWf_write h) hv
      rw [show i + 1 + j = i + (j + 1) by omega] at h'
      exact h'

end Runs

section Line
variable {k : SlotIx} {line width : Nat} {ss : List LinkSample} {st : Cells}

/-- Samples of different components of a picture line lie at different addresses (R47). -/
theorem sampleAddress_comp {a b : Component} {i j : Nat} (hab : a ≠ b) (hline : line < 1080) (hi : i < if a = .y then 1920 else 960)
    (hj : j < if b = .y then 1920 else 960) : sampleAddress k a line i ≠ sampleAddress k b line j := by
  unfold sampleAddress Config.lumaPerSlot
  cases a <;> cases b <;> simp at hab hi hj ⊢ <;> omega

/-- How many samples of a component a line of this width keeps. -/
def keptWidth (width : Nat) (comp : Component) : Nat := if comp = .y then width else width / 2

theorem writeLine_other {a : Nat} (h : memoryWf st.1 ∧ cellsRising st.2)
    (ha : ∀ comp i, i < keptWidth width comp → i < (componentOf comp ss).length → a ≠ sampleAddress k comp line i) :
    memoryRead (writeLine k line width ss st).1 a = memoryRead st.1 a := by
  have hrun (comp : Component) (st : Cells) (hst : memoryWf st.1) :
      memoryRead (writeRun k comp line ((componentOf comp ss).take (keptWidth width comp)) st).1 a = memoryRead st.1 a :=
    writeFrom_other 0 hst (fun j _ hj => by
      rw [List.length_take] at hj
      exact ha comp j (by omega) (by omega))
  have h1 := writeRun_wf (slot := k) (comp := .y) (line := line) (vs := (componentOf .y ss).take (keptWidth width .y)) h
  have h2 := writeRun_wf (slot := k) (comp := .cb) (line := line) (vs := (componentOf .cb ss).take (keptWidth width .cb)) h1
  exact (hrun .cr _ h2.1).trans ((hrun .cb _ h1.1).trans (hrun .y st h.1))

theorem writeLine_same {comp : Component} {i : Nat} {v : Sample} (h : memoryWf st.1 ∧ cellsRising st.2) (hline : line < 1080)
    (hwidth : width ≤ 1920) (hi : i < keptWidth width comp) (hv : (componentOf comp ss)[i]? = some v) :
    memoryRead (writeLine k line width ss st).1 (sampleAddress k comp line i) = v := by
  have hfar (c : Component) (j : Nat) (hj : j < keptWidth width c) : j < if c = .y then 1920 else 960 := by
    unfold keptWidth at hj
    split_ifs at hj ⊢ <;> omega
  have hother (c : Component) (st : Cells) (hst : memoryWf st.1) (hc : comp ≠ c) :
      memoryRead (writeRun k c line ((componentOf c ss).take (keptWidth width c)) st).1 (sampleAddress k comp line i) =
        memoryRead st.1 (sampleAddress k comp line i) :=
    writeFrom_other 0 hst (fun j _ hj => by
      rw [List.length_take] at hj
      exact sampleAddress_comp hc hline (hfar comp i hi) (hfar c j (by omega)))
  have hown (st : Cells) (hst : memoryWf st.1) :
      memoryRead (writeRun k comp line ((componentOf comp ss).take (keptWidth width comp)) st).1
        (sampleAddress k comp line i) = v := by
    have e := writeFrom_same (k := k) (comp := comp) (line := line) (st := st) (j := i) (v := v)
      (vs := (componentOf comp ss).take (keptWidth width comp)) 0 hst (by rw [List.getElem?_take_of_lt hi]; exact hv)
    rwa [Nat.zero_add] at e
  have h1 := writeRun_wf (slot := k) (comp := .y) (line := line) (vs := (componentOf .y ss).take (keptWidth width .y)) h
  have h2 := writeRun_wf (slot := k) (comp := .cb) (line := line) (vs := (componentOf .cb ss).take (keptWidth width .cb)) h1
  cases comp with
  | y => exact (hother .cr _ h2.1 (by decide)).trans ((hother .cb _ h1.1 (by decide)).trans (hown st h.1))
  | cb => exact (hother .cr _ h2.1 (by decide)).trans (hown _ h1.1)
  | cr => exact hown _ h2.1

end Line

/-! ### What the end of a step leaves of the samples -/

section Memory
variable {p : Part}

theorem releaseSlot_mem (k : SlotIx) (p : Part) : (releaseSlot k p).store.mem = p.store.mem := by
  unfold releaseSlot
  split
  · rw [slotToQuarantine_store]
  · rfl

theorem unpinSlot_mem (k : SlotIx) (p : Part) : (unpinSlot k p).store.mem = p.store.mem := by
  unfold unpinSlot
  dsimp only
  split
  · split
    · exact releaseSlot_mem k _
    · rfl
  · simp

theorem clearLane_mem (n : Ix) (p : Part) : (clearLane n p).store.mem = p.store.mem := by
  have hj : (abandonJob n p).store.mem = p.store.mem := by
    unfold abandonJob unpinJob
    split
    · exact forAll_keeps (fun p => p.store.mem) _ (fun k q => unpinSlot_mem k q) _ _
    · rfl
  exact hj

theorem leaveRunning_mem (n : Ix) (s : LaneState) (p : Part) : (leaveRunning n s p).store.mem = p.store.mem := by
  unfold leaveRunning
  dsimp only
  split
  · exact flushFeed_mem _ _
  · rfl

theorem deviceFatalLane_mem (n : Ix) (p : Part) : (deviceFatalLane n p).store.mem = p.store.mem := by
  have h : (laneFatal n p).store.mem = p.store.mem := by
    unfold laneFatal
    simp only [bumpLane_eq, modLane_store, latchSet_frame, leaveRunning_mem, clearPending, endLaneOp_frame, clearLane_mem]
  unfold deviceFatalLane
  split
  · rfl
  · simp
  all_goals exact h

theorem settle_mem (p : Part) : (settle p).store.mem = p.store.mem := by
  unfold settle
  split
  · dsimp only
    split
    · rfl
    · have e : ∀ a : Part, (forEach deviceFatalLane a).store.mem = a.store.mem := fun a => by
        have e : forEach deviceFatalLane a = deviceFatalLane 3 (deviceFatalLane 2 (deviceFatalLane 1 (deviceFatalLane 0 a))) := rfl
        rw [e, deviceFatalLane_mem, deviceFatalLane_mem, deviceFatalLane_mem, deviceFatalLane_mem]
      show (enterDeviceFatal p).store.mem = _
      rw [enterDeviceFatal, e]
      simp
  · rfl

end Memory

/-! ### The end of a line -/

section LineEnd
variable {n : Ix} {active : Bool} {samples : List LinkSample} {check : BitVec 16} {p : Part}

/-- The line counted out, and its check made (R1, R2). -/
def checkedLine (n : Ix) (active : Bool) (samples : List LinkSample) (check : BitVec 16) (p : Part) : Part :=
  let l := p.links.get n
  let q := modLink n (fun l => { l with
    line := none
    cur := if active then l.cur.map (countSamples (lumaCount (activeSamples active samples))) else l.cur }) p
  if extracts l.state then checkLine n (capturesLine l active) (activeSamples active samples) check q else q

/-- The samples of the line put into their slot (R33). -/
def storedLine (n : Ix) (active : Bool) (samples : List LinkSample) (check : BitVec 16) (p : Part) : Part :=
  let l := p.links.get n
  if capturesLine l active then
    captureLine n ((l.cur.map Current.active).getD 0 - 1) (activeSamples active samples) (checkedLine n active samples check p)
  else checkedLine n active samples check p

theorem takeLineEnd_eq (h : (p.links.get n).line = some active) : takeLineEnd n samples check p =
    if completesPicture (p.links.get n) active then
      handCompletion n ((storedLine n active samples check p).links.get n).lineErrors (storedLine n active samples check p)
    else storedLine n active samples check p := by
  rw [takeLineEnd, h]
  rfl

/-- What the line check makes of the link record; no other block is touched (R2). -/
theorem checkedLine_eq (n : Ix) (active : Bool) (samples : List LinkSample) (check : BitVec 16) (p : Part) :
    checkedLine n active samples check p = modLink n (fun l => { l with
      line := none
      cur := if active then l.cur.map (countSamples (lumaCount (activeSamples active samples))) else l.cur
      ctr := if extracts l.state = true ∧ check ≠ lineCheck (activeSamples active samples) then
          { l.ctr with lineErrors := bump l.ctr.lineErrors } else l.ctr
      lineErrors := if (extracts l.state = true ∧ check ≠ lineCheck (activeSamples active samples))
          ∧ capturesLine l active = true then saturate 65535 l.lineErrors else l.lineErrors }) p := by
  unfold checkedLine checkLine
  by_cases hx : extracts (p.links.get n).state = true
  · rw [if_pos hx]
    by_cases hc : check = lineCheck (activeSamples active samples)
    · rw [if_pos hc]
      refine modLink_const ?_
      simp [hc]
    · rw [if_neg hc]
      by_cases hcap : capturesLine (p.links.get n) active = true
      · simp only [hcap, if_true, bumpLink_eq, modLink_modLink]
        refine modLink_const ?_
        simp [hc, hx, hcap]
      · simp only [hcap, if_false, Bool.false_eq_true, bumpLink_eq, modLink_modLink]
        refine modLink_const ?_
        simp [hc, hx, hcap]
  · rw [if_neg hx]
    refine modLink_const ?_
    simp [hx]

theorem checkedLine_link : (checkedLine n active samples check p).links.get n = { p.links.get n with
    line := none
    cur := if active then (p.links.get n).cur.map (countSamples (lumaCount (activeSamples active samples)))
      else (p.links.get n).cur
    ctr := if extracts (p.links.get n).state = true ∧ check ≠ lineCheck (activeSamples active samples) then
        { (p.links.get n).ctr with lineErrors := bump (p.links.get n).ctr.lineErrors } else (p.links.get n).ctr
    lineErrors := if (extracts (p.links.get n).state = true ∧ check ≠ lineCheck (activeSamples active samples))
        ∧ capturesLine (p.links.get n) active = true then saturate 65535 (p.links.get n).lineErrors
      else (p.links.get n).lineErrors } := by
  rw [checkedLine_eq, modLink_links, Four.get_modify_same]

theorem checkedLine_frame : { checkedLine n active samples check p with links := p.links } = p := by
  rw [checkedLine_eq]
  rfl

section Capture
variable {line : Nat} {ss : List LinkSample} {e : Entry} {code : Std} {k : SlotIx} {a : Int}

/-- The samples of a line change nothing but the cells of the memory (R33). -/
theorem captureLine_frame (n : Ix) (line : Nat) (ss : List LinkSample) (p : Part) :
    { captureLine n line ss p with store := p.store } = p
      ∧ (captureLine n line ss p).store = { p.store with
          mem := (captureLine n line ss p).store.mem, ecc := (captureLine n line ss p).store.ecc } := by
  unfold captureLine
  dsimp only
  split
  · split
    · split
      · exact ⟨rfl, rfl⟩
      · exact ⟨rfl, rfl⟩
    · exact ⟨rfl, rfl⟩
  · exact ⟨rfl, rfl⟩

theorem captureLine_open (hon : (p.feeds.get n).captureOn = true) (he : newest (p.feeds.get n) = some e)
    (hk : e.kind = .picture k a) (hc : e.complete = false) (hcode : lockedCode p n = some code)
    (hl : line < linesPerPicture code) : captureLine n line ss p = modStore (fun st => { st with
      mem := (writeLine k line (stdRow code).width ss (st.mem, st.ecc)).1
      ecc := (writeLine k line (stdRow code).width ss (st.mem, st.ecc)).2 }) p := by
  rw [captureLine]
  simp only [hon, he, hcode, hk]
  rw [if_pos (by simp [hc, hl])]

theorem captureLine_closed (h : (p.feeds.get n).captureOn = false
    ∨ ∀ e, newest (p.feeds.get n) = some e → isOpenPicture e = false) : captureLine n line ss p = p := by
  unfold captureLine
  dsimp only
  split
  · next e code hon he hcode =>
    split
    · next k a hk =>
      have hopen : isOpenPicture e = false := by
        rcases h with h | h
        · rw [h] at hon
          cases hon
        · exact h e he
      rw [isOpenPicture, hk] at hopen
      rw [if_neg (by simpa using fun hc => absurd (hopen : (!e.complete) = false) (by simp [hc]))]
    · rfl
  · rfl

end Capture

/-- A completion touches no link, and no sample of the memory (R34). -/
theorem handCompletion_frame (n : Ix) (errors : Nat) (p : Part) :
    (handCompletion n errors p).links = p.links ∧ (handCompletion n errors p).store.mem = p.store.mem := by
  have hcomplete (k : SlotIx) (q : Part) : (completeSlot k q).links = q.links ∧ (completeSlot k q).store.mem = q.store.mem := by
    unfold completeSlot
    dsimp only
    split
    · exact ⟨rfl, rfl⟩
    · exact ⟨by simp [integrityError], by simp⟩
  unfold handCompletion
  dsimp only
  split
  · split
    · split
      · next k a _ =>
        split
        · exact ⟨rfl, rfl⟩
        · unfold completePicture
          dsimp only
          split
          · exact ⟨storeBlind_links.returnSlot n k, returnSlot_mem n k _⟩
          · split
            · exact hcomplete k _
            · exact hcomplete k _
      · exact ⟨rfl, rfl⟩
      · exact ⟨rfl, rfl⟩
    · exact ⟨rfl, rfl⟩
  · exact ⟨rfl, rfl⟩

theorem storedLine_links : (storedLine n active samples check p).links = (checkedLine n active samples check p).links := by
  unfold storedLine
  dsimp only
  split
  · have e := congrArg Part.links (captureLine_frame n (((p.links.get n).cur.map Current.active).getD 0 - 1)
      (activeSamples active samples) (checkedLine n active samples check p)).1
    exact e
  · rfl

/-- The end of a line that was begun: its link and the memory (R2, R33). -/
theorem lineEnd_settled (h : (p.links.get n).line = some active) :
    (settle (takeLineEnd n samples check p)).links.get n = (checkedLine n active samples check p).links.get n
      ∧ (settle (takeLineEnd n samples check p)).store.mem = (storedLine n active samples check p).store.mem := by
  rw [(endured_settle _).links, settle_mem, takeLineEnd_eq h]
  split
  · obtain ⟨h1, h2⟩ := handCompletion_frame n ((storedLine n active samples check p).links.get n).lineErrors
      (storedLine n active samples check p)
    rw [h1, h2, storedLine_links]
    exact ⟨rfl, rfl⟩
  · rw [storedLine_links]
    exact ⟨rfl, rfl⟩

end LineEnd

theorem extracts_of_locked {st : LinkState} (h : isLocked st = true) : extracts st = true := by
  cases st with
  | locked code => rfl
  | dark => cases h
  | seeking => cases h
  | measuring => cases h

/-- Settles O27. -/
theorem lineEndChecksTheLine : Obligations.LineEndChecksTheLine := by
  intro env n samples check s active l hq hmem hl hline
  have hx : exec (.lineEnd env n samples check) s = .next { s with part := settle (takeLineEnd n samples check (foundBy env s)) } :=
    happens_quiet _ _ hq
  have hlinks := found_links env s
  have hfeeds : (foundBy env s).feeds = s.part.feeds := found_feeds ..
  have hsmem : (foundBy env s).store.mem = s.part.store.mem := found_store_mem ..
  have hok : memoryOk (foundBy env s) := MemoryLaw.law.begin_kept env.time env.upsets hmem
  rw [← hlinks] at hl
  generalize foundBy env s = q at *
  obtain ⟨h1, h2⟩ := lineEnd_settled (p := q) (n := n) (active := active) (samples := samples) (check := check) (by rw [← hl, hline])
  rw [checkedLine_link, ← hl] at h1
  generalize settle (takeLineEnd n samples check q) = t at *
  refine ⟨_, hx, ?_⟩
  dsimp only
  rw [h1, h2]
  refine ⟨rfl, rfl, rfl, ?_, fun code c e k a hs ha hc hh hon he hk hco hlines => ?_, fun hno => ?_⟩
  · refine if_congr ?_ rfl rfl
    simp only [capturesLine, Bool.and_eq_true]
    constructor
    · rintro ⟨⟨-, hbad⟩, ⟨hact, hlock⟩, hhand⟩
      exact ⟨hlock, hact, hhand, by rwa [activeSamples, if_pos hact] at hbad⟩
    · rintro ⟨hlock, hact, hhand, hbad⟩
      exact ⟨⟨extracts_of_locked hlock, by rwa [activeSamples, if_pos hact]⟩, ⟨hact, hlock⟩, hhand⟩
  · have hcap : capturesLine (q.links.get n) active = true := by
      rw [capturesLine, ← hl, ha, hs, hc]
      simp [isLocked, hh]
    have hact : activeSamples active samples = samples := by rw [activeSamples, if_pos ha]
    have hcode : lockedCode q n = some code := by rw [lockedCode, ← hl, hs]
    have hframe := checkedLine_frame (n := n) (active := active) (samples := samples) (check := check) (p := q)
    have hcode' : lockedCode (checkedLine n active samples check q) n = some code := by
      rw [lockedCode, checkedLine_link, ← hl]
      simp only [hs]
    have hst : (storedLine n active samples check q).store.mem =
        (writeLine k (c.active - 1) (stdRow code).width samples (q.store.mem, q.store.ecc)).1 := by
      rw [storedLine, if_pos hcap, hact, ← hl, hc]
      have hf : (checkedLine n active samples check q).feeds = q.feeds := by
        have e := congrArg Part.feeds hframe
        exact e
      have hs' : (checkedLine n active samples check q).store = q.store := by
        have e := congrArg Part.store hframe
        exact e
      rw [← hfeeds, ← hf] at hon he
      refine (congrArg (fun p => p.store.mem) (captureLine_open hon he hk hco hcode' hlines)).trans ?_
      rw [modStore_store, hs']
    have hwidth : (stdRow code).width ≤ 1920 ∧ linesPerPicture code ≤ 1080 := by
      cases code <;> decide
    have hkept (comp : Component) : keptWidth (stdRow code).width comp = componentWidth code comp := by cases comp <;> rfl
    have hcells : memoryWf (q.store.mem, q.store.ecc).1 ∧ cellsRising (q.store.mem, q.store.ecc).2 := hok
    rw [hst]
    refine ⟨fun comp i v hi hv => ?_, fun adr hadr => ?_⟩
    · exact writeLine_same hcells (by omega) hwidth.1 (by rw [hkept]; exact hi) hv
    · rw [← hsmem]
      refine writeLine_other hcells (fun comp i hi hlen => hadr comp i (by rw [← hkept]; exact hi) ?_)
      rwa [componentOf, List.length_map] at hlen
  · have hf : (checkedLine n active samples check q).feeds = q.feeds := by
      have e := congrArg Part.feeds (checkedLine_frame (n := n) (active := active) (samples := samples) (check := check) (p := q))
      exact e
    have hs' : (checkedLine n active samples check q).store = q.store := by
      have e := congrArg Part.store (checkedLine_frame (n := n) (active := active) (samples := samples) (check := check) (p := q))
      exact e
    rw [← hsmem, ← hs', storedLine]
    split
    · next hcap =>
      rw [captureLine_closed]
      rw [hf, hfeeds]
      rw [capturesLine, ← hl] at hcap
      rcases hno with h | h | h | h | h
      · simp [h] at hcap
      · simp [h] at hcap
      · simp [h] at hcap
      · exact .inl h
      · exact .inr h
    · rfl

/-! ### Completion -/

section Completion
variable {n : Ix} {active : Bool} {samples : List LinkSample} {check : BitVec 16} {p : Part} {e : Entry} {k : SlotIx} {a : Int}
  {errors : Nat}

/-- Behind its link and the cells of the memory, the part before a completion is as it was. -/
theorem storedLine_frame (n : Ix) (active : Bool) (samples : List LinkSample) (check : BitVec 16) (p : Part) :
    { storedLine n active samples check p with links := p.links, store := p.store } = p
      ∧ (storedLine n active samples check p).store = { p.store with
          mem := (storedLine n active samples check p).store.mem, ecc := (storedLine n active samples check p).store.ecc } := by
  have hc := checkedLine_frame (n := n) (active := active) (samples := samples) (check := check) (p := p)
  have hs : (checkedLine n active samples check p).store = p.store := by
    have e := congrArg Part.store hc
    exact e
  unfold storedLine
  dsimp only
  split
  · obtain ⟨h1, h2⟩ := captureLine_frame n (((p.links.get n).cur.map Current.active).getD 0 - 1) (activeSamples active samples)
      (checkedLine n active samples check p)
    generalize captureLine n _ _ (checkedLine n active samples check p) = r at *
    generalize checkedLine n active samples check p = c at *
    rw [hs] at h2
    refine ⟨?_, h2⟩
    calc { r with links := p.links, store := p.store }
      _ = { ({ r with store := c.store } : Part) with links := p.links } := by rw [hs]
      _ = { c with links := p.links } := congrArg (fun x : Part => { x with links := p.links }) h1
      _ = p := hc
  · generalize checkedLine n active samples check p = c at *
    rw [hs]
    refine ⟨?_, rfl⟩
    rw [← hs]
    exact hc

theorem handCompletion_picture (hon : (p.feeds.get n).captureOn = true) (he : newest (p.feeds.get n) = some e)
    (hk : e.kind = .picture k a) (hc : e.complete = false) : handCompletion n errors p = completePicture n k e.seq errors p := by
  rw [handCompletion]
  simp only [hon, he, hk, hc, if_true, if_false, Bool.false_eq_true]

/-- A picture discarded under CONTAIN, its slot FREE (R34, R50). -/
theorem completePicture_discarded (hpol : (p.links.get n).settings.policy = .contain ∧ (p.links.get n).settings.threshold ≤ errors)
    (hr : canReturn n (slotOf p k) = true) (hpins : (slotOf p k).pins = 0) (hpois : (slotOf p k).poisoned = false) (seq : Nat) :
    completePicture n k seq errors p =
      bumpFeed n (fun c => { c with holesDiscarded := bump c.holesDiscarded })
        (report (.fl n) .discarded (.sequence seq)
          (slotToFree k (modNewest n (fun e => { toHole .discarded e with lineErrors := errors }) p))) := by
  have hslot : slotOf (modNewest n (fun e => { toHole .discarded e with lineErrors := errors }) p) k = slotOf p k := rfl
  rw [completePicture, if_pos hpol]
  rw [← hslot] at hr hpins hpois
  dsimp only
  rw [returnSlot_free hr hpins hpois]

/-- A picture kept: complete, its slot HISTORY (R34, R50). -/
theorem completePicture_kept (hpol : ¬((p.links.get n).settings.policy = .contain ∧ (p.links.get n).settings.threshold ≤ errors))
    (hi : (slotOf p k).intact = true) (hs : (slotOf p k).state = .filling) (seq : Nat) : completePicture n k seq errors p =
      bumpFeed n (fun c => { c with picturesCompleted := bump c.picturesCompleted })
        (if 0 < errors then report (.fl n) .lineErrors (.sequence seq)
            (modSlot k (fun r => { r with state := .history })
              (modNewest n (fun e => { e with complete := true, lineErrors := errors }) p))
          else modSlot k (fun r => { r with state := .history })
            (modNewest n (fun e => { e with complete := true, lineErrors := errors }) p)) := by
  have hslot : slotOf (modNewest n (fun e => { e with complete := true, lineErrors := errors }) p) k = slotOf p k := rfl
  have hcomplete : completeSlot k (modNewest n (fun e => { e with complete := true, lineErrors := errors }) p) =
      modSlot k (fun r => { r with state := .history })
        (modNewest n (fun e => { e with complete := true, lineErrors := errors }) p) :=
    if_pos (by rw [hslot, hi, hs]; rfl)
  rw [completePicture, if_neg hpol]
  dsimp only
  rw [hcomplete]

theorem newest_mapNewest {h : List Entry} (g : Entry → Entry) (he : h.getLast? = some e) :
    (mapNewest g h).getLast? = some (g e) ∧ (mapNewest g h).length = h.length := by
  rw [PacketPaths.mapNewest_last g he]
  have hne : h ≠ [] := by
    rintro rfl
    cases he
  refine ⟨by simp, ?_⟩
  have := List.length_pos_iff.2 hne
  simp
  omega

/-- The feed once its newest entry is settled and counted. -/
theorem settledFeed {q : Part} {g : Entry → Entry} (h : FeedCounters → FeedCounters) (hq : q.feeds = (modNewest n g p).feeds) :
    (bumpFeed n h q).feeds.get n =
      { p.feeds.get n with history := mapNewest g (p.feeds.get n).history, ctr := h (p.feeds.get n).ctr } := by
  rw [bumpFeed_eq, modFeed_feeds, Four.get_modify_same, hq, modNewest, modFeed_feeds, Four.get_modify_same]

end Completion

/-- Settles O28. -/
theorem completionSettlesThePicture : Obligations.CompletionSettlesThePicture := by
  intro env n samples check s code c est f e k a count hq hs hline hcur hhand hest hact hf hon he hk hc hi hst ho hp hz hcount
  have hx : exec (.lineEnd env n samples check) s = .next { s with part := settle (takeLineEnd n samples check (foundBy env s)) } :=
    happens_quiet _ _ hq
  have hlinks := found_links env s
  have hfeeds : (foundBy env s).feeds = s.part.feeds := found_feeds ..
  have houts : (foundBy env s).outs = s.part.outs := found_outs ..
  have hmgmt : (foundBy env s).mgmt = s.part.mgmt := found_mgmt ..
  have hfree : (foundBy env s).store.freeList = s.part.store.freeList := found_store_freeList ..
  have hlog : (foundBy env s).fault = s.part.fault := found_fault ..
  have hslot : slotOf (foundBy env s) k = slotOf s.part k := TimedEvents.slot_same_of_intact hi
  have hdue : (foundBy env s).fault.fatalDue = false := by simp [hq.1]
  rw [← hslot] at hst ho hp hz
  rw [← hlinks] at hs hline hcur hest hcount ⊢
  rw [← hfeeds] at hf
  generalize foundBy env s = q at *
  have hcap : capturesLine (q.links.get n) true = true := by simp [capturesLine, hs, hcur, hhand, isLocked]
  have hcomp : completesPicture (q.links.get n) true = true := by simp [completesPicture, hcap, hcur, hest, hact]
  obtain ⟨hframe, hstore⟩ := storedLine_frame n true samples check q
  have hlink : (storedLine n true samples check q).links.get n = _ := (congrArg (fun v => Four.get v n) storedLine_links).trans
    checkedLine_link
  have herr : ((storedLine n true samples check q).links.get n).lineErrors = count := by
    rw [hlink, hcount]
    have hx' : extracts (q.links.get n).state = true := by rw [hs]; rfl
    simp only [hx', hcap, activeSamples, if_true, true_and, and_true, ne_eq, ite_not]
  have hset : ((storedLine n true samples check q).links.get n).settings = (q.links.get n).settings := by rw [hlink]
  rw [takeLineEnd_eq hline, if_pos hcomp, herr] at hx
  generalize storedLine n true samples check q = r at *
  have rfeeds : r.feeds = q.feeds := by have e := congrArg Part.feeds hframe; exact e
  have rfault : r.fault = q.fault := by have e := congrArg Part.fault hframe; exact e
  have rlanes : r.lanes = q.lanes := by have e := congrArg Part.lanes hframe; exact e
  have routs : r.outs = q.outs := by have e := congrArg Part.outs hframe; exact e
  have rmgmt : r.mgmt = q.mgmt := by have e := congrArg Part.mgmt hframe; exact e
  have rslot (j : SlotIx) : slotOf r j = slotOf q j := by
    have e := congrArg (fun st => st.slots[j.val]) hstore
    exact e
  have rfree : r.store.freeList = q.store.freeList := by have e := congrArg Store.freeList hstore; exact e
  have rdue : r.fault.fatalDue = false := by rw [rfault, hdue]
  have hnew : newest (r.feeds.get n) = some e := by rw [rfeeds, ← hf, he]
  rw [handCompletion_picture (by rw [rfeeds, ← hf, hon]) hnew hk hc] at hx
  rw [← rslot] at hi hst ho hp hz
  rw [← rfeeds] at hf
  rw [← hset]
  have hfl : (s.part.fault.feedLogs.get n) = r.fault.feedLogs.get n := by rw [rfault, hlog]
  have hlast : (r.feeds.get n).history.getLast? = some e := hnew
  obtain ⟨hgold, hglen⟩ := newest_mapNewest (fun e => { toHole .discarded e with lineErrors := count }) hlast
  obtain ⟨hdone, hdlen⟩ := newest_mapNewest (fun e => { e with complete := true, lineErrors := count }) hlast
  by_cases hpol : (r.links.get n).settings.policy = .contain ∧ (r.links.get n).settings.threshold ≤ count
  · rw [completePicture_discarded hpol (canReturn_filling hi ho (.inl hst)) hp hz] at hx
    have hfeed : (bumpFeed n (fun c => { c with holesDiscarded := bump c.holesDiscarded })
        (report (.fl n) .discarded (.sequence e.seq)
          (slotToFree k (modNewest n (fun e => { toHole .discarded e with lineErrors := count }) r)))).feeds.get n =
        { f with
          history := mapNewest (fun e => { toHole .discarded e with lineErrors := count }) f.history
          ctr := { f.ctr with holesDiscarded := bump f.ctr.holesDiscarded } } := by
      rw [hf]
      exact settledFeed (p := r) _ rfl
    have hslots (j : SlotIx) : slotOf (bumpFeed n (fun c => { c with holesDiscarded := bump c.holesDiscarded })
        (report (.fl n) .discarded (.sequence e.seq)
          (slotToFree k (modNewest n (fun e => { toHole .discarded e with lineErrors := count }) r)))) j =
        if j = k then { slotOf r k with state := .free, owner := none, intact := true } else slotOf r j :=
      slotOf_set (p := r) (k := k) rfl j
    have hlogs : getLog (.fl n) (bumpFeed n (fun c => { c with holesDiscarded := bump c.holesDiscarded })
        (report (.fl n) .discarded (.sequence e.seq)
          (slotToFree k (modNewest n (fun e => { toHole .discarded e with lineErrors := count }) r)))) =
        logReport .discarded r.timebase (.sequence e.seq) (r.fault.feedLogs.get n) := Four.get_modify_same ..
    rw [settle_quiet (by exact rdue)] at hx
    refine ⟨_, hx, ?_⟩
    rw [if_pos hpol, hfeed, hslots, if_pos rfl, hlogs]
    rw [hf] at *
    refine ⟨⟨hgold, rfl, rfl, ?_, rfl, ?_⟩, hglen, rfl, rfl, fun j hj => ?_, rlanes, routs.trans houts, rmgmt.trans hmgmt⟩
    · rw [← hfree, ← rfree]
      rfl
    · rw [getLog, hfl]
      rfl
    · rw [hslots, if_neg hj, rslot]
  · rw [completePicture_kept hpol hi hst] at hx
    have hset : ∃ x : Part, (if 0 < count then report (.fl n) .lineErrors (.sequence e.seq)
            (modSlot k (fun r => { r with state := .history })
              (modNewest n (fun e => { e with complete := true, lineErrors := count }) r))
          else modSlot k (fun r => { r with state := .history })
            (modNewest n (fun e => { e with complete := true, lineErrors := count }) r)) = x
        ∧ x.feeds = (modNewest n (fun e => { e with complete := true, lineErrors := count }) r).feeds
        ∧ x.store = (modSlot k (fun r => { r with state := .history }) r).store
        ∧ x.fault.fatalDue = false ∧ x.lanes = r.lanes ∧ x.outs = r.outs ∧ x.mgmt = r.mgmt ∧ x.timebase = r.timebase
        ∧ x.fault.feedLogs.get n = if 0 < count then logReport .lineErrors r.timebase (.sequence e.seq) (r.fault.feedLogs.get n)
            else r.fault.feedLogs.get n := by
      refine ⟨_, rfl, ?_⟩
      split
      · exact ⟨rfl, rfl, rdue, rfl, rfl, rfl, rfl, Four.get_modify_same ..⟩
      · exact ⟨rfl, rfl, rdue, rfl, rfl, rfl, rfl, rfl⟩
    obtain ⟨x, hxeq, xfeeds, xstore, xdue, xlanes, xouts, xmgmt, xtime, xlog⟩ := hset
    rw [hxeq] at hx
    have hfeed := settledFeed (n := n) (p := r) (q := x) (fun c => { c with picturesCompleted := bump c.picturesCompleted }) xfeeds
    have hslots (j : SlotIx) : slotOf x j = if j = k then { slotOf r k with state := .history, intact := true } else slotOf r j :=
      (slotOf_congr j _ xstore).trans (slotOf_modSlot ..)
    have hquiet : settle (bumpFeed n (fun c => { c with picturesCompleted := bump c.picturesCompleted }) x) = _ := settle_quiet xdue
    rw [hquiet] at hx
    refine ⟨_, hx, ?_⟩
    rw [if_neg hpol]
    dsimp only
    rw [hfeed, hf]
    refine ⟨⟨hdone, ?_, ?_, ?_, rfl, ?_⟩, hdlen, rfl, rfl, fun j hj => ?_, xlanes.trans rlanes, xouts.trans (routs.trans houts),
      xmgmt.trans (rmgmt.trans hmgmt)⟩
    · show (slotOf x k).state = _
      rw [hslots, if_pos rfl]
    · show (slotOf x k).owner = _
      rw [hslots, if_pos rfl]
      exact ho
    · show x.store.freeList = _
      rw [xstore, ← hfree, ← rfree]
      rfl
    · show x.fault.feedLogs.get n = _
      rw [xlog, getLog, hfl, ← xtime]
      rfl
    · show slotOf x j = _
      rw [hslots, if_neg hj, rslot]

end Sys2Proof.Machine.LineEnds
end

section
/-! SUPPORT. The reference inputs (R101 to R104) and the outputs that are locked to them (R109, R111). -/

namespace Sys2Proof.Machine.References

open Frames Keeping LaneValues LaneEnds LockLoss

/-- `q` is `p` after outputs have been told of a reference (R104, R109, R111): the references stand, latches are only set, and
a log of the device that holds a record holds one. -/
structure RefActs (p q : Part) : Prop where
  refA : q.refA = p.refA
  refB : q.refB = p.refB
  timebase : q.timebase = p.timebase
  due : q.fault.fatalDue = p.fault.fatalDue
  latches : ∀ c ∈ p.fault.latches, c ∈ q.fault.latches
  logged : p.fault.deviceLog.isSome = true → q.fault.deviceLog.isSome = true

/-- An output but for its notices. -/
def outView (n : Ix) (p : Part) : OutUnit := { p.outs.get n with notices := [] }

section Outputs
variable {p q r : Part} {n m : Ix} {ref : RefId} {al : Machine.Alignment}

theorem RefActs.refl (p : Part) : RefActs p p := ⟨rfl, rfl, rfl, rfl, fun _ h => h, id⟩

theorem RefActs.trans (h : RefActs p q) (g : RefActs q r) : RefActs p r :=
  ⟨g.refA.trans h.refA, g.refB.trans h.refB, g.timebase.trans h.timebase, g.due.trans h.due,
   fun c hc => g.latches c (h.latches c hc), fun hl => g.logged (h.logged hl)⟩

theorem RefActs.getRef (h : RefActs p q) (ref : RefId) : getRef q ref = getRef p ref := by
  cases ref
  · exact h.refA
  · exact h.refB

theorem logReport_isSome (c : ErrCode) (t : Nat) (d : Detail) (r : Option LogRec) : (logReport c t d r).isSome = true := by
  unfold logReport
  split
  · rfl
  · split <;> rfl

theorem refActs_modOut (n : Ix) (f : OutUnit → OutUnit) (p : Part) : RefActs p (modOut n f p) := ⟨rfl, rfl, rfl, rfl, fun _ h => h, id⟩

theorem refActs_latchSet (c : Cond) (p : Part) : RefActs p (latchSet c p) :=
  ⟨by simp, by simp, by simp, by simp, (mild_latchSet c p).latches, by simp⟩

theorem refActs_report (c : ErrCode) (d : Detail) (p : Part) : RefActs p (report .dl c d p) :=
  ⟨rfl, rfl, rfl, rfl, fun _ h => h, fun _ => logReport_isSome ..⟩

theorem refActs_enterHoldover (n : Ix) (pm : Nat) (p : Part) : RefActs p (enterHoldover n pm p) :=
  (((refActs_modOut n _ p).trans (refActs_latchSet _ _)).trans (refActs_report _ _ _)).trans (refActs_modOut n _ _)

theorem outView_latchSet (c : Cond) (m : Ix) (p : Part) : outView m (latchSet c p) = outView m p :=
  latchSet_out p (fun o => { o with notices := [] }) c m (fun _ _ => rfl)

theorem outView_modOut_other (f : OutUnit → OutUnit) (h : m ≠ n) (p : Part) : outView m (modOut n f p) = outView m p := by
  rw [outView, modOut_outs, Four.get_modify_other _ _ h]
  rfl

/-- What entry to HOLDOVER makes of its output (R111). -/
def heldOut (pm : Nat) (o : OutUnit) : OutUnit :=
  { o with
    lock := .holdover (holdoverPeriod (outPeriod o) pm)
    ctr := { o.ctr with holdoverEntries := bump o.ctr.holdoverEntries } }

theorem outView_enterHoldover (pm : Nat) (p : Part) : outView m (enterHoldover n pm p) =
    if m = n then heldOut pm (outView m p) else outView m p := by
  have h1 := outView_latchSet (.refLost n) m (modOut n (fun o => { o with lock := .holdover (holdoverPeriod (outPeriod o) pm) }) p)
  have h2 : outView m (enterHoldover n pm p) = outView m (bumpOut n (fun c => { c with holdoverEntries := bump c.holdoverEntries })
      (latchSet (.refLost n) (modOut n (fun o => { o with lock := .holdover (holdoverPeriod (outPeriod o) pm) }) p))) := rfl
  rw [h2]
  generalize latchSet (.refLost n) (modOut n _ p) = a at *
  by_cases hm : m = n
  · subst hm
    rw [if_pos rfl]
    have hb : outView m (bumpOut m (fun c => { c with holdoverEntries := bump c.holdoverEntries }) a) =
        { outView m a with ctr := { (outView m a).ctr with holdoverEntries := bump (outView m a).ctr.holdoverEntries } } := by
      rw [outView, bumpOut_eq, modOut_outs, Four.get_modify_same]
      rfl
    have hp : outView m (modOut m (fun o => { o with lock := .holdover (holdoverPeriod (outPeriod o) pm) }) p) =
        { outView m p with lock := .holdover (holdoverPeriod (outPeriod (p.outs.get m)) pm) } := by
      rw [outView, modOut_outs, Four.get_modify_same]
      rfl
    rw [hb, h1, hp]
    rfl
  · rw [if_neg hm, bumpOut_eq, outView_modOut_other _ hm, h1, outView_modOut_other _ hm]

/-- An output that enters HOLDOVER, and what follows it in the step. -/
theorem heldOver_of (hq : outView n q = outView n p) (hr : RefActs (enterHoldover n al.pm q) r)
    (hv : outView n r = outView n (enterHoldover n al.pm q)) : heldOver p r n al := by
  rw [outView_enterHoldover, if_pos rfl, hq] at hv
  have hlock := congrArg OutUnit.lock hv
  have hsel := congrArg OutUnit.select hv
  have hoff := congrArg OutUnit.offset hv
  have hpol := congrArg OutUnit.policy hv
  have hnext := congrArg OutUnit.next hv
  have hctr := congrArg (fun o => o.ctr.holdoverEntries) hv
  refine ⟨hlock, hsel, hoff, hpol, hnext, hctr, hr.latches _ ?_, hr.logged (logReport_isSome ..)⟩
  exact (mem_latchSet _ _ _).2 (.inr rfl)

/-! ### The outputs told of a loss, or of a marker -/

theorem loseReference_locked (hl : (p.outs.get n).lock = .locked al) (hs : (p.outs.get n).select = some ref) :
    loseReference ref n p = enterHoldover n al.pm p := by
  rw [loseReference, hl]
  exact if_pos hs

theorem loseReference_other (h : ∀ al, (p.outs.get n).lock = .locked al → (p.outs.get n).select ≠ some ref) :
    loseReference ref n p = p := by
  cases hl : (p.outs.get n).lock with
  | free => rw [loseReference, hl]
  | holdover ph => rw [loseReference, hl]
  | locked al =>
    rw [loseReference, hl]
    exact if_neg (h al hl)

theorem followMarker_held {t pr : Nat} (hl : (p.outs.get n).lock = .locked al) (hs : (p.outs.get n).select = some ref)
    (hr : relationHolds al.faster al.k (periodOf (p.outs.get n).standard) pr = false) :
    followMarker ref t pr n p = enterHoldover n al.pm p := by
  rw [followMarker, hl]
  exact (if_pos hs).trans (if_neg (by rw [outPeriod, hr]; exact Bool.false_ne_true))

theorem followMarker_follows {t pr : Nat} (hl : (p.outs.get n).lock = .locked al) (hs : (p.outs.get n).select = some ref)
    (hr : relationHolds al.faster al.k (periodOf (p.outs.get n).standard) pr = true) :
    followMarker ref t pr n p = modOut n (fun o => { o with lock := .locked (alignMarker t pr al) }) p := by
  rw [followMarker, hl]
  exact (if_pos hs).trans (if_pos hr)

theorem followMarker_other {t pr : Nat} (h : ∀ al, (p.outs.get n).lock = .locked al → (p.outs.get n).select ≠ some ref) :
    followMarker ref t pr n p = p := by
  cases hl : (p.outs.get n).lock with
  | free => rw [followMarker, hl]
  | holdover ph => rw [followMarker, hl]
  | locked al =>
    rw [followMarker, hl]
    exact if_neg (h al hl)

/-- An operation that an output is told of: it does nothing, enters HOLDOVER, or sets its lock (R104, R109). -/
theorem told_spec {f : Ix → Part → Part}
    (h : ∀ n q, f n q = q ∨ (∃ pm, f n q = enterHoldover n pm q) ∨ ∃ al, f n q = modOut n (fun o => { o with lock := .locked al }) q) :
    (∀ n q, RefActs q (f n q)) ∧ ∀ n m q, m ≠ n → outView m (f n q) = outView m q := by
  refine ⟨fun n q => ?_, fun n m q hm => ?_⟩
  · rcases h n q with e | ⟨pm, e⟩ | ⟨al, e⟩ <;> rw [e]
    · exact .refl q
    · exact refActs_enterHoldover n pm q
    · exact refActs_modOut n _ q
  · rcases h n q with e | ⟨pm, e⟩ | ⟨al, e⟩ <;> rw [e]
    · rw [outView_enterHoldover, if_neg hm]
    · exact outView_modOut_other _ hm q

theorem loseReference_told (n : Ix) (q : Part) : loseReference ref n q = q ∨ (∃ pm, loseReference ref n q = enterHoldover n pm q)
    ∨ ∃ al, loseReference ref n q = modOut n (fun o => { o with lock := .locked al }) q := by
  by_cases h : ∀ al, (q.outs.get n).lock = .locked al → (q.outs.get n).select ≠ some ref
  · exact .inl (loseReference_other h)
  · push Not at h
    obtain ⟨al, hl, hs⟩ := h
    exact .inr (.inl ⟨_, loseReference_locked hl hs⟩)

theorem followMarker_told {t pr : Nat} (n : Ix) (q : Part) : followMarker ref t pr n q = q
    ∨ (∃ pm, followMarker ref t pr n q = enterHoldover n pm q)
    ∨ ∃ al, followMarker ref t pr n q = modOut n (fun o => { o with lock := .locked al }) q := by
  by_cases h : ∀ al, (q.outs.get n).lock = .locked al → (q.outs.get n).select ≠ some ref
  · exact .inl (followMarker_other h)
  · push Not at h
    obtain ⟨al, hl, hs⟩ := h
    cases hr : relationHolds al.faster al.k (periodOf (q.outs.get n).standard) pr
    · exact .inr (.inl ⟨_, followMarker_held hl hs hr⟩)
    · exact .inr (.inr ⟨_, followMarker_follows hl hs hr⟩)

theorem heldOver_congr {p' q' : Part} (h1 : p'.outs = p.outs) (h2 : q'.outs = q.outs) (h3 : q'.fault = q.fault)
    (h : heldOver p q n al) : heldOver p' q' n al := by
  unfold heldOver at h ⊢
  rw [getLog, h1, h2, h3]
  exact h

theorem outView_lock (h : outView n q = outView n p) : (q.outs.get n).lock = (p.outs.get n).lock
    ∧ (q.outs.get n).select = (p.outs.get n).select ∧ (q.outs.get n).next = (p.outs.get n).next
    ∧ (q.outs.get n).standard = (p.outs.get n).standard := by
  have h1 := congrArg OutUnit.lock h
  have h2 := congrArg OutUnit.select h
  have h3 := congrArg OutUnit.next h
  have h4 := congrArg OutUnit.standard h
  exact ⟨h1, h2, h3, h4⟩

/-- The outputs after a reference has gone ABSENT (R104, R111). -/
theorem lost_outputs (ref : RefId) (p : Part) : RefActs p (forEach (loseReference ref) p)
    ∧ ∀ n, (∀ al, (p.outs.get n).lock = .locked al → (p.outs.get n).select = some ref →
          heldOver p (forEach (loseReference ref) p) n al)
        ∧ ((∀ al, (p.outs.get n).lock = .locked al → (p.outs.get n).select ≠ some ref) →
          outView n (forEach (loseReference ref) p) = outView n p) := by
  obtain ⟨hacts, hother⟩ := told_spec (f := loseReference ref) loseReference_told
  refine ⟨((((hacts 0 p).trans (hacts 1 _)).trans (hacts 2 _)).trans (hacts 3 _)), fun n => ?_⟩
  obtain ⟨q, hpq, hview, hrest, hafter⟩ := forEach_at (R := RefActs) (view := outView n) .refl (fun _ _ _ => .trans) hacts n
    (fun k q hk => hother k n q (Ne.symm hk)) p
  obtain ⟨hl, hs, -, -⟩ := outView_lock hview
  refine ⟨fun al hlock hsel => ?_, fun hno => ?_⟩
  · rw [loseReference_locked (hl.trans hlock) (hs.trans hsel)] at hrest hafter
    exact heldOver_of hview hrest hafter
  · rw [hafter, loseReference_other (by rw [hl, hs]; exact hno), hview]

/-- The outputs after a marker of the reference that they are locked to (R103, R109, R111). -/
theorem followed_outputs (ref : RefId) (t pr : Nat) (p : Part) : RefActs p (forEach (followMarker ref t pr) p)
    ∧ ∀ n, (∀ al, (p.outs.get n).lock = .locked al → (p.outs.get n).select = some ref →
          relationHolds al.faster al.k (periodOf (p.outs.get n).standard) pr = true →
          outView n (forEach (followMarker ref t pr) p) = { outView n p with lock := .locked (alignMarker t pr al) })
        ∧ (∀ al, (p.outs.get n).lock = .locked al → (p.outs.get n).select = some ref →
          relationHolds al.faster al.k (periodOf (p.outs.get n).standard) pr = false →
          heldOver p (forEach (followMarker ref t pr) p) n al)
        ∧ ((∀ al, (p.outs.get n).lock = .locked al → (p.outs.get n).select ≠ some ref) →
          outView n (forEach (followMarker ref t pr) p) = outView n p) := by
  obtain ⟨hacts, hother⟩ := told_spec (f := followMarker ref t pr) followMarker_told
  refine ⟨((((hacts 0 p).trans (hacts 1 _)).trans (hacts 2 _)).trans (hacts 3 _)), fun n => ?_⟩
  obtain ⟨q, hpq, hview, hrest, hafter⟩ := forEach_at (R := RefActs) (view := outView n) .refl (fun _ _ _ => .trans) hacts n
    (fun k q hk => hother k n q (Ne.symm hk)) p
  obtain ⟨hl, hs, -, hstd⟩ := outView_lock hview
  refine ⟨fun al hlock hsel hrel => ?_, fun al hlock hsel hrel => ?_, fun hno => ?_⟩
  · rw [hafter, followMarker_follows (hl.trans hlock) (hs.trans hsel) (by rw [hstd]; exact hrel), ← hview, outView, modOut_outs,
      Four.get_modify_same]
    rfl
  · rw [followMarker_held (hl.trans hlock) (hs.trans hsel) (by rw [hstd]; exact hrel)] at hrest hafter
    exact heldOver_of hview hrest hafter
  · rw [hafter, followMarker_other (by rw [hl, hs]; exact hno), hview]

end Outputs

/-! ### The references -/

section Markers
variable {p : Part} {ref : RefId} {v : RefInput}

theorem getRef_setRef (v : RefInput) (p : Part) : getRef (setRef ref v p) ref = v := by cases ref <;> rfl

theorem takeRefMarker_absent (h : (getRef p ref).present = false) :
    takeRefMarker ref p = setRef ref (qualify p.timebase (getRef p ref)) p := by
  rw [takeRefMarker]
  dsimp only
  split
  · rw [if_neg (by rw [h]; exact Bool.false_ne_true)]
  · rfl

theorem takeRefMarker_agrees {pr prev : Nat} (h : (getRef p ref).present = true) (hpr : (getRef p ref).pr = some pr)
    (hl : (getRef p ref).last = some prev) (ha : agrees (p.timebase - prev) pr = true) : takeRefMarker ref p =
      forEach (followMarker ref p.timebase (meanPeriod (joinInterval (getRef p ref).intervals (p.timebase - prev))))
        (setRef ref { getRef p ref with
          last := some p.timebase, intervals := joinInterval (getRef p ref).intervals (p.timebase - prev)
          pr := some (meanPeriod (joinInterval (getRef p ref).intervals (p.timebase - prev))) } p) := by
  rw [takeRefMarker]
  simp only [hpr, hl, h, if_true, ha]

theorem takeRefMarker_disagrees {pr prev : Nat} (h : (getRef p ref).present = true) (hpr : (getRef p ref).pr = some pr)
    (hl : (getRef p ref).last = some prev) (ha : agrees (p.timebase - prev) pr = false) : takeRefMarker ref p =
      setRef ref { getRef (refAbsent ref p) ref with last := some p.timebase, intervals := freshList (p.timebase - prev) }
        (refAbsent ref p) := by
  rw [takeRefMarker]
  simp only [hpr, hl, h, if_true, ha, Bool.false_eq_true, if_false]

/-- A reference gone ABSENT: its record, and the outputs told (R104). -/
theorem refAbsent_ref (ref : RefId) (p : Part) :
    getRef (refAbsent ref p) ref = { getRef p ref with present := false, intervals := [], pr := none } := by
  rw [refAbsent, (lost_outputs ref _).1.getRef, getRef_setRef]

theorem qualify_first {t : Nat} (h : v.last = none) : qualify t v = { v with last := some t } := by rw [qualify, h]

/-- A second marker of an ABSENT reference: PRESENT where its interval is in range and agrees with the one before (R102). -/
theorem qualify_second {t prev q : Nat} (hl : v.last = some prev) (hi : v.intervals = [q]) : qualify t v =
    if 200000 ≤ t - prev ∧ t - prev ≤ 5000000 ∧ (((t - prev : Nat) : Int) - (q : Int)).natAbs ≤ q * 300 / 1000000 then
      ⟨true, some t, [q, t - prev], some ((q + (t - prev)) / 2)⟩
    else { v with last := some t, intervals := freshList (t - prev) } := by
  rw [qualify, hl, hi]
  refine (if_congr ?_ ?_ rfl)
  · simp [inRange, agrees, and_assoc]
  · simp [meanPeriod]

theorem qualify_fresh {t prev : Nat} (hl : v.last = some prev) (hi : ∀ q, v.intervals ≠ [q]) :
    qualify t v = { v with last := some t, intervals := freshList (t - prev) } := by
  rw [qualify, hl]
  dsimp only
  split
  · next q h => exact absurd h (hi q)
  · rfl

/-- An ABSENT reference with no period keeps at most the last interval (R102). -/
theorem fresh_record {t i : Nat} (hp : v.present = false) (hpr : v.pr = none) :
    { v with last := some t, intervals := freshList i } =
      if 200000 ≤ i ∧ i ≤ 5000000 then (⟨false, some t, [i], none⟩ : RefInput) else ⟨false, some t, [], none⟩ := by
  rw [hp, hpr, freshList]
  by_cases h : 200000 ≤ i ∧ i ≤ 5000000
  · rw [if_pos h, if_pos (by simpa [inRange] using h)]
  · rw [if_neg h, if_neg (by simpa [inRange] using h)]

theorem getRef_found (env : Env) (s : State) (r : RefId) : getRef (foundBy env s) r = getRef s.part r := by
  cases r
  · exact found_refA ..
  · exact found_refB ..

end Markers

/-- An alignment after a marker, field by field (R109). -/
theorem alignMarker_eq (t pr : Nat) (al : Machine.Alignment) : alignMarker t pr al = { al with
    pm := measuredPeriod al.faster al.k pr
    m := if al.faster = true ∧ al.count + 1 ≠ 2 then al.m else (t : Int)
    count := if al.faster then (if al.count + 1 = 2 then 0 else al.count + 1) else al.count } := by
  unfold alignMarker
  cases hf : al.faster with
  | false => simp
  | true =>
    by_cases h : al.count + 1 = 2
    · simp [h]
    · simp [h]

/-- Settles O32. -/
theorem referenceMarkersQualify : Obligations.ReferenceMarkersQualify := by
  have hx (env : Env) (r : RefId) (s : State) (hq : quiet s) : exec (.refMarker env r) s =
      .next { s with part := settle (takeRefMarker r (foundBy env s)) } := happens_quiet _ _ hq
  refine ⟨fun env r s v hq hv hp hl => ?_, fun env r s v prev now hq hv hp hpr hl hnow => ?_,
    fun env r s v prev now pr xs hq hv hp hpr hl hnow hagree hxs => ?_,
    fun env r s v prev now pr hq hv hp hpr hl hnow hdis => ?_⟩
  · have hf : (foundBy env s).fault.fatalDue = false := by simp [hq.1]
    rw [hx env r s hq, takeRefMarker_absent (by rw [getRef_found, ← hv, hp]), settle_quiet (by simpa using hf), getRef_found, ← hv,
      qualify_first hl, found_timebase]
  · have hf : (foundBy env s).fault.fatalDue = false := by simp [hq.1]
    rw [hx env r s hq, takeRefMarker_absent (by rw [getRef_found, ← hv, hp]), settle_quiet (by simpa using hf), getRef_found, ← hv,
      found_timebase, ← hnow]
    have hfresh := fresh_record (v := v) (t := now) (i := now - prev) hp hpr
    refine congrArg (fun x => Host.Outcome.next { s with part := setRef r x (foundBy env s) }) ?_
    cases hi : v.intervals with
    | nil =>
      rw [qualify_fresh hl (by rw [hi]; intro q h; cases h)]
      exact hfresh
    | cons q rest =>
      cases rest with
      | cons q' rest =>
        rw [qualify_fresh hl (by rw [hi]; intro q h; cases h)]
        exact hfresh
      | nil =>
        rw [qualify_second hl hi, hfresh]
  · have hf : (foundBy env s).fault.fatalDue = false := by simp [hq.1]
    have houts : (foundBy env s).outs = s.part.outs := found_outs ..
    have hv' : getRef (foundBy env s) r = v := (getRef_found env s r).trans hv.symm
    have htime : (foundBy env s).timebase = now := by rw [found_timebase, hnow]
    have hx' := hx env r s hq
    have hjoin : joinInterval v.intervals (now - prev) = xs := by
      rw [hxs, joinInterval]
      by_cases h8 : v.intervals.length < 8
      · rw [if_pos h8, if_neg (by omega)]
      · rw [if_neg h8, if_pos (by omega)]
    generalize foundBy env s = q at *
    rw [takeRefMarker_agrees (by rw [hv', hp]) (by rw [hv', hpr]) (by rw [hv', hl]) (by rw [htime]; simpa [agrees] using hagree),
      htime, hv', hjoin] at hx'
    obtain ⟨hacts, hout⟩ := followed_outputs r now (meanPeriod xs)
      (setRef r { v with last := some now, intervals := xs, pr := some (meanPeriod xs) } q)
    have hso : (setRef r { v with last := some now, intervals := xs, pr := some (meanPeriod xs) } q).outs = s.part.outs := by
      rw [setRef_outs, houts]
    have hget := hacts.getRef r
    rw [getRef_setRef] at hget
    have hdue := hacts.due
    rw [setRef_fault, hf] at hdue
    rw [settle_quiet hdue] at hx'
    generalize forEach (followMarker r now (meanPeriod xs)) _ = t at *
    generalize setRef r { v with last := some now, intervals := xs, pr := some (meanPeriod xs) } q = b at *
    refine ⟨_, hx', ?_, fun n al hlock hsel hrel => ?_, fun n al hlock hsel hrel => ?_, fun n hno => ?_⟩
    · exact hget.trans (by rw [hp]; rfl)
    · rw [← hso] at hlock hsel hrel ⊢
      have e := (hout n).1 al hlock hsel hrel
      have e1 := congrArg OutUnit.lock e
      have e2 := congrArg OutUnit.next e
      refine ⟨e1.trans ?_, e2⟩
      exact congrArg Lock.locked (alignMarker_eq now (meanPeriod xs) al)
    · rw [← hso] at hlock hsel hrel
      exact heldOver_congr hso.symm rfl rfl ((hout n).2.1 al hlock hsel hrel)
    · rw [← hso] at hno ⊢
      exact (outView_lock ((hout n).2.2 hno)).1
  · have hf : (foundBy env s).fault.fatalDue = false := by simp [hq.1]
    have houts : (foundBy env s).outs = s.part.outs := found_outs ..
    have hv' : getRef (foundBy env s) r = v := (getRef_found env s r).trans hv.symm
    have htime : (foundBy env s).timebase = now := by rw [found_timebase, hnow]
    have hx' := hx env r s hq
    generalize foundBy env s = q at *
    rw [takeRefMarker_disagrees (by rw [hv', hp]) (by rw [hv', hpr]) (by rw [hv', hl])
      (by rw [htime]; simpa [agrees] using hdis), refAbsent_ref, htime, hv'] at hx'
    obtain ⟨hacts, hout⟩ := lost_outputs r (setRef r { v with present := false, intervals := [], pr := none } q)
    have habs : refAbsent r q = forEach (loseReference r) (setRef r { v with present := false, intervals := [], pr := none } q) := by
      rw [refAbsent, hv']
    rw [habs] at hx'
    have hso : (setRef r { v with present := false, intervals := [], pr := none } q).outs = s.part.outs := by
      rw [setRef_outs, houts]
    have hdue := hacts.due
    rw [setRef_fault, hf] at hdue
    generalize forEach (loseReference r) _ = t at *
    generalize setRef r { v with present := false, intervals := [], pr := none } q = b at *
    rw [settle_quiet (by rw [setRef_fault]; exact hdue)] at hx'
    refine ⟨_, hx', ?_, fun n al hlock hsel => ?_, fun n hno => ?_⟩
    · rw [getRef_setRef, freshList]
      by_cases h : 200000 ≤ now - prev ∧ now - prev ≤ 5000000
      · rw [if_pos h, if_pos (by simpa [inRange] using h)]
      · rw [if_neg h, if_neg (by simpa [inRange] using h)]
    · rw [← hso] at hlock hsel
      exact heldOver_congr hso.symm (setRef_outs ..) (setRef_fault ..) ((hout n).1 al hlock hsel)
    · rw [← hso] at hno ⊢
      dsimp only
      rw [setRef_outs]
      exact (outView_lock ((hout n).2 hno)).1

/-- Settles O33. -/
theorem referenceExpires : Obligations.ReferenceExpires := by
  refine ⟨fun upsets r s v last pr hq hv hp hl hpr => ?_, fun upsets r s hq he => ?_⟩
  · have hexp : expiryOf (getRef s.part r) = some (last + 3 * pr / 2) := by rw [← hv, expiryOf, hp, hl, hpr]
    have hx : exec (.refExpiry upsets r) s =
        .next { s with part := settle (refAbsent r (foundBy ⟨last + 3 * pr / 2, upsets⟩ s)) } := by
      have e := fallsDue_quiet (fun p => expiryOf (getRef p r)) upsets (refAbsent r) hq
      rw [hexp] at e
      exact e
    have hf : (foundBy ⟨last + 3 * pr / 2, upsets⟩ s).fault.fatalDue = false := by simp [hq.1]
    have houts : (foundBy ⟨last + 3 * pr / 2, upsets⟩ s).outs = s.part.outs := found_outs ..
    have hv' : getRef (foundBy ⟨last + 3 * pr / 2, upsets⟩ s) r = v := (getRef_found _ s r).trans hv.symm
    have htime : (foundBy ⟨last + 3 * pr / 2, upsets⟩ s).timebase = max s.part.timebase (last + 3 * pr / 2) := found_timebase ..
    generalize foundBy ⟨last + 3 * pr / 2, upsets⟩ s = q at *
    have hrec := refAbsent_ref r q
    rw [hv'] at hrec
    rw [refAbsent, hv'] at hx hrec
    obtain ⟨hacts, hout⟩ := lost_outputs r (setRef r { v with present := false, intervals := [], pr := none } q)
    have hso : (setRef r { v with present := false, intervals := [], pr := none } q).outs = s.part.outs := by
      rw [setRef_outs, houts]
    have hdue := hacts.due
    rw [setRef_fault, hf] at hdue
    have ht := hacts.timebase
    rw [setRef_timebase, htime] at ht
    generalize forEach (loseReference r) _ = t at *
    generalize setRef r { v with present := false, intervals := [], pr := none } q = b at *
    rw [settle_quiet hdue] at hx
    refine ⟨_, hx, ht, hrec.trans (by rw [← hl]), fun n o ho => ⟨?_, fun al hlock hsel => ?_, fun hno => ?_⟩⟩
    · have hno (h : ∀ al, (b.outs.get n).lock = .locked al → (b.outs.get n).select ≠ some r) := (outView_lock ((hout n).2 h)).2.2.1
      rw [ho, ← hso]
      by_cases h : ∀ al, (b.outs.get n).lock = .locked al → (b.outs.get n).select ≠ some r
      · exact hno h
      · push Not at h
        obtain ⟨al, hlock, hsel⟩ := h
        obtain ⟨-, -, -, -, hnext, -⟩ := (hout n).1 al hlock hsel
        exact hnext
    · rw [ho, ← hso] at hlock hsel
      exact heldOver_congr hso.symm rfl rfl ((hout n).1 al hlock hsel)
    · rw [ho, ← hso] at hno ⊢
      exact (outView_lock ((hout n).2 hno)).1
  · have e := fallsDue_quiet (fun p => expiryOf (getRef p r)) upsets (refAbsent r) hq
    rw [he] at e
    have hf : (foundBy ⟨s.part.timebase, upsets⟩ s).fault.fatalDue = false := by simp [hq.1]
    exact e.trans (congrArg (fun p => Host.Outcome.next { s with part := p }) (settle_quiet (p := foundBy ⟨s.part.timebase, upsets⟩ s) hf))

end Sys2Proof.Machine.References
end

section
/-! SUPPORT. The end of a job: what the release of its pins makes of the picture store (R53, R56, R81). -/

namespace Sys2Proof.Machine.JobEnds

open Frames Keeping LaneValues HistoryLaw LaneEnds StoreValues SlotsLaw

/-! ### One unpin -/

section Unpin
variable {p : Part} {k j : SlotIx}

/-- A record that loses its last pin while it is RETIRING moves on (R53). -/
def lastPin (r : SlotRec) : Bool := decide (r.state = .retiring ∧ r.pins = 1)

/-- A record that can be unpinned (R53). -/
def canUnpin (r : SlotRec) : Bool := r.intact && decide (0 < r.pins)

/-- A record after an unpin (R53). -/
def unpinned (r : SlotRec) : SlotRec :=
  if lastPin r then
    { r with pins := 0, state := if r.poisoned then .quarantined else .free, owner := none, intact := true }
  else { r with pins := r.pins - 1, intact := true }

theorem unpinSlot_off (h : canUnpin (slotOf p k) = false) : unpinSlot k p = integrityError k p :=
  if_neg (by rw [show ((slotOf p k).intact && decide (0 < (slotOf p k).pins)) = false from h]; exact Bool.false_ne_true)

/-- An unpin of an intact record that is pinned (R53). -/
theorem unpinSlot_on (h : canUnpin (slotOf p k) = true) : unpinSlot k p =
    if lastPin (slotOf p k) then releaseSlot k (modSlot k (fun r => { r with pins := r.pins - 1 }) p)
    else modSlot k (fun r => { r with pins := r.pins - 1 }) p := by
  refine (if_pos h).trans ?_
  have hb : ((slotOf p k).pins = 1 && (slotOf p k).state == .retiring) = lastPin (slotOf p k) := by
    unfold lastPin
    cases (slotOf p k).state <;> simp
  simp only [hb]

theorem slotOf_unpinSlot (p : Part) (k j : SlotIx) : slotOf (unpinSlot k p) j =
    if j = k ∧ canUnpin (slotOf p k) = true then unpinned (slotOf p k) else slotOf p j := by
  by_cases h : canUnpin (slotOf p k) = true
  · have hmod := slotOf_modSlot (p := p) (k := k) (fun r => { r with pins := r.pins - 1 })
    rw [unpinSlot_on h]
    by_cases hl : lastPin (slotOf p k) = true
    · have hp : (slotOf p k).pins = 1 := by
        unfold lastPin at hl
        simpa using (of_decide_eq_true hl).2
      rw [if_pos hl, slotOf_releaseSlot, hmod k, hmod j, if_pos rfl]
      by_cases hj : j = k
      · rw [if_pos hj, if_pos ⟨hj, h⟩, unpinned, if_pos hl, released, hp]
      · rw [if_neg hj, if_neg hj, if_neg (fun e => hj e.1)]
    · rw [if_neg hl, hmod j]
      by_cases hj : j = k
      · rw [if_pos hj, if_pos ⟨hj, h⟩, unpinned, if_neg hl]
      · rw [if_neg hj, if_neg (fun e => hj e.1)]
  · rw [unpinSlot_off (Bool.eq_false_iff.2 h), if_neg (fun e => h e.2)]
    exact slotOf_congr j p (integrityError_store k p)

/-- What an unpin does to the free list, the quarantine count and the counters (R53, R56). -/
theorem unpinSlot_store (h : canUnpin (slotOf p k) = true) :
    (unpinSlot k p).store.freeList = p.store.freeList
        ++ (if lastPin (slotOf p k) = true ∧ (slotOf p k).poisoned = false then [k] else [])
      ∧ (unpinSlot k p).store.quarantine = p.store.quarantine
        + (if lastPin (slotOf p k) = true ∧ (slotOf p k).poisoned = true then 1 else 0)
      ∧ (unpinSlot k p).store.ctr = (if lastPin (slotOf p k) = true ∧ (slotOf p k).poisoned = true then
          { p.store.ctr with quarantineEntries := bump p.store.ctr.quarantineEntries } else p.store.ctr) := by
  have hpois : (slotOf (modSlot k (fun r => { r with pins := r.pins - 1 }) p) k).poisoned = (slotOf p k).poisoned := by
    rw [slotOf_modSlot, if_pos rfl]
  rw [unpinSlot_on h]
  by_cases hl : lastPin (slotOf p k) = true
  · rw [if_pos hl, releaseSlot, hpois]
    cases hz : (slotOf p k).poisoned with
    | true =>
      simp only [hl, if_true, slotToQuarantine_store]
      exact ⟨(List.append_nil _).symm, rfl, rfl⟩
    | false =>
      simp only [hl, Bool.false_eq_true, and_false, if_false, and_self, if_true, slotToFree_store]
      exact ⟨rfl, rfl, rfl⟩
  · rw [if_neg hl]
    simp only [hl, false_and, if_false, Bool.false_eq_true]
    exact ⟨(List.append_nil _).symm, rfl, rfl⟩

end Unpin

/-! ### The pins of a job -/

section Unpins
variable {p : Part} {ks : List SlotIx} {k : SlotIx}

/-- A slot that is not among those unpinned stands as it was. -/
theorem slotOf_unpins_other (h : k ∉ ks) (p : Part) : slotOf (forAll ks unpinSlot p) k = slotOf p k := by
  induction ks generalizing p with
  | nil => rfl
  | cons a ks ih =>
    obtain ⟨ha, hks⟩ := List.ne_and_not_mem_of_not_mem_cons h
    have e : forAll (a :: ks) unpinSlot p = forAll ks unpinSlot (unpinSlot a p) := rfl
    rw [e, ih hks, slotOf_unpinSlot, if_neg (fun e => ha e.1)]

/-- A slot that is unpinned once (R53). -/
theorem slotOf_unpins_once (h : ks.count k = 1) (p : Part) : slotOf (forAll ks unpinSlot p) k = slotOf (unpinSlot k p) k := by
  induction ks generalizing p with
  | nil => cases h
  | cons a ks ih =>
    have e : forAll (a :: ks) unpinSlot p = forAll ks unpinSlot (unpinSlot a p) := rfl
    rw [e]
    by_cases ha : a = k
    · subst ha
      rw [List.count_cons_self] at h
      exact slotOf_unpins_other (List.count_eq_zero.1 (by omega)) _
    · rw [List.count_cons_of_ne ha] at h
      have hk : slotOf (unpinSlot a p) k = slotOf p k := by rw [slotOf_unpinSlot, if_neg (fun e => ha e.1.symm)]
      rw [ih h, slotOf_unpinSlot (unpinSlot a p) k k, slotOf_unpinSlot p k k, hk]

/-- The slots that pass on their last pin, those of them that are poisoned or not. -/
def lastOnes (p : Part) (ks : List SlotIx) (bad : Bool) : List SlotIx :=
  ks.filter (fun k => lastPin (slotOf p k) && ((slotOf p k).poisoned == bad))

/-- What the release of distinct pins does to the free list, the count and the counters (R53, R56). -/
theorem unpins_store (hnd : ks.Nodup) (h : ∀ k ∈ ks, canUnpin (slotOf p k) = true) :
    (forAll ks unpinSlot p).store.freeList = p.store.freeList ++ lastOnes p ks false
      ∧ (forAll ks unpinSlot p).store.quarantine = p.store.quarantine + (lastOnes p ks true).length
      ∧ (forAll ks unpinSlot p).store.ctr = { p.store.ctr with
          quarantineEntries := bump^[(lastOnes p ks true).length] p.store.ctr.quarantineEntries } := by
  induction ks generalizing p with
  | nil => exact ⟨(List.append_nil _).symm, rfl, rfl⟩
  | cons a ks ih =>
    obtain ⟨ha, hks⟩ := List.nodup_cons.1 hnd
    have e : forAll (a :: ks) unpinSlot p = forAll ks unpinSlot (unpinSlot a p) := rfl
    have hother (k : SlotIx) (hk : k ∈ ks) : slotOf (unpinSlot a p) k = slotOf p k := by
      have hne : ¬(k = a ∧ canUnpin (slotOf p a) = true) := fun hka => ha (hka.1 ▸ hk)
      rw [slotOf_unpinSlot, if_neg hne]
    obtain ⟨h1, h2, h3⟩ := ih (p := unpinSlot a p) hks (fun k hk => by
      rw [hother k hk]
      exact h k (List.mem_cons_of_mem _ hk))
    have hsame (bad : Bool) : lastOnes (unpinSlot a p) ks bad = lastOnes p ks bad :=
      List.filter_congr (fun k hk => by rw [hother k hk])
    have hcons (bad : Bool) : lastOnes p (a :: ks) bad =
        (if lastPin (slotOf p a) = true ∧ (slotOf p a).poisoned = bad then [a] else []) ++ lastOnes p ks bad := by
      unfold lastOnes
      rw [List.filter_cons]
      by_cases hc : lastPin (slotOf p a) = true ∧ (slotOf p a).poisoned = bad
      · rw [if_pos hc, if_pos (by simp [hc])]
        rfl
      · rw [if_neg hc, if_neg (by simpa using hc)]
        rfl
    obtain ⟨g1, g2, g3⟩ := unpinSlot_store (h a List.mem_cons_self)
    rw [e, h1, h2, h3, hsame, hsame, hcons, hcons, g1, g2, g3]
    refine ⟨List.append_assoc .., ?_, ?_⟩
    · split <;> simp <;> omega
    · split
      · simp
      · simp

/-- POOL_DEGRADED is latched and the device log holds a record. -/
def degraded (p : Part) : Prop := Cond.poolDegraded ∈ p.fault.latches ∧ p.fault.deviceLog.isSome = true

theorem unpinSlot_logged (h : p.fault.deviceLog.isSome = true) : (unpinSlot k p).fault.deviceLog.isSome = true := by
  have hpool (q : Part) (hq : q.fault.deviceLog.isSome = true) : (releaseSlot k q).fault.deviceLog.isSome = true := by
    unfold releaseSlot
    split
    · rw [slotToQuarantine_eq]
      split
      · exact References.logReport_isSome ..
      · exact hq
    · exact hq
  unfold unpinSlot
  dsimp only
  split
  · split
    · exact hpool _ h
    · exact h
  · exact References.logReport_isSome ..

theorem unpinSlot_degraded (h : degraded p) : degraded (unpinSlot k p) :=
  ⟨(mild_unpinSlot k p).latches _ h.1, unpinSlot_logged h.2⟩

/-- The unpin that takes the count to 16 latches and reports (R56). -/
theorem unpinSlot_degrades (h : p.store.quarantine < 16) : (unpinSlot k p).store.quarantine < 16 ∨ degraded (unpinSlot k p) := by
  by_cases hc : canUnpin (slotOf p k) = true
  · rw [unpinSlot_on hc]
    by_cases hl : lastPin (slotOf p k) = true
    · rw [if_pos hl, releaseSlot]
      split
      · rw [slotToQuarantine_eq]
        split
        · exact .inr ⟨(mem_latchSet _ _ _).2 (.inr rfl), References.logReport_isSome ..⟩
        · next hne => exact .inl (by
            have hq : (quarantineSet k (modSlot k (fun r => { r with pins := r.pins - 1 }) p)).store.quarantine =
                p.store.quarantine + 1 := rfl
            have hm : (modSlot k (fun r => { r with pins := r.pins - 1 }) p).store.quarantine = p.store.quarantine := rfl
            rw [hq]
            rw [hm] at hne
            omega)
      · exact .inl h
    · rw [if_neg hl]
      exact .inl h
  · rw [unpinSlot_off (Bool.eq_false_iff.2 hc), integrityError_store]
    exact .inl h

/-- A pool that reaches 16 quarantined slots in the release of pins is latched and reported (R56). -/
theorem unpins_degrade (ks : List SlotIx) (p : Part) (h : p.store.quarantine < 16 ∨ degraded p) :
    (forAll ks unpinSlot p).store.quarantine < 16 ∨ degraded (forAll ks unpinSlot p) := by
  induction ks generalizing p with
  | nil => exact h
  | cons a ks ih =>
    exact ih (unpinSlot a p) (h.elim unpinSlot_degrades (fun hd => .inr (unpinSlot_degraded hd)))

end Unpins

/-! ### The end of a job -/

section Ends
variable {p : Part} {n : Ix} {k : SlotIx}

theorem unpinned_intact {r : SlotRec} (h : r.intact = true) : unpinned r =
    if lastPin r then { r with pins := 0, state := if r.poisoned then .quarantined else .free, owner := none }
    else { r with pins := r.pins - 1 } := by
  obtain ⟨state, owner, pins, poisoned, corrected, intact⟩ := r
  subst h
  rfl

/-- A lane whose job in flight has ended. -/
theorem jobEnded_flight {l : Lane} (h : l.job.inFlight = true) :
    jobEnded l = { l with job := { l.job with inFlight := false, pinned := [], kept := none } } := by
  rw [jobEnded, if_pos h]
  rfl

/-- The lane and the record of a job that ends, before its pins are released. -/
def closedJob (n : Ix) (p : Part) : Part :=
  modLane n (fun l => { l with job := { l.job with pinned := [] } }) (modLane n (fun l => { l with job := closeJob l.job }) p)

theorem endJob_flight (h : (p.lanes.get n).job.inFlight = true) :
    endJob n p = forAll (p.lanes.get n).job.pinned unpinSlot (closedJob n p) := by
  rw [endJob, if_pos h]
  have hheld : ((modLane n (fun l => { l with job := closeJob l.job }) p).lanes.get n).job.pinned = (p.lanes.get n).job.pinned := by
    rw [modLane_lanes, Four.get_modify_same]
    rfl
  rw [unpinJob, hheld]
  rfl

theorem takeJobEnd_flight (h : (p.lanes.get n).job.inFlight = true) : takeJobEnd n p =
    modOut n (fun o => { o with lineNext := linesPerPicture o.standard })
      (forAll (p.lanes.get n).job.pinned unpinSlot (closedJob n p)) := by
  rw [takeJobEnd, if_pos h, endJob_flight h]

theorem takeJobEnd_lanes (h : (p.lanes.get n).job.inFlight = true) : (takeJobEnd n p).lanes = p.lanes.modify n jobEnded := by
  rw [takeJobEnd, if_pos h, modOut_lanes, endJob_lanes]

/-- Device fatal leaves the record of a job that has ended (R135). -/
theorem deviceFatalled_job {l : Lane} (h : l.job.inFlight = false) : (deviceFatalled l).job = l.job := by
  unfold deviceFatalled
  split
  · rfl
  · rfl
  · have e : (abandoned l).job = l.job := by
      rw [StopAnswers.abandoned_job, if_neg (by rw [h]; exact Bool.false_ne_true)]
    exact e

theorem settle_job (h : (p.lanes.get n).job.inFlight = false) : ((settle p).lanes.get n).job = (p.lanes.get n).job := by
  rw [settle_lanes]
  split
  · rw [Four.get_make, deviceFatalled_job h]
  · rfl

end Ends

/-- The end of a job in flight: its record, and what the release of its pins makes of the picture store (R53, R56, R81). -/
theorem jobEnd_releases (env : Env) (n : Ix) (s : State) (l : Lane) (hq : quiet s) (hl : l = (foundBy env s).lanes.get n)
    (hfl : l.job.inFlight = true) : ∃ t : State, exec (.jobEnd env n) s = .next t
      ∧ (t.part.lanes.get n).job = { l.job with inFlight := false, pinned := [], kept := none }
      ∧ (t.part.fault.deviceFatal = s.part.fault.deviceFatal →
        t.part.lanes.get n = { l with job := { l.job with inFlight := false, pinned := [], kept := none } }
        ∧ t.part.store = (forAll l.job.pinned unpinSlot (closedJob n (foundBy env s))).store
        ∧ (degraded (forAll l.job.pinned unpinSlot (closedJob n (foundBy env s))) → degraded t.part)) := by
  have hx : exec (.jobEnd env n) s = .next { s with part := settle (takeJobEnd n (foundBy env s)) } := happens_quiet _ _ hq
  have hfatal : (foundBy env s).fault.deviceFatal = s.part.fault.deviceFatal := by rw [found_fault]
  generalize foundBy env s = q at *
  have hfl' : (q.lanes.get n).job.inFlight = true := by rw [← hl, hfl]
  have hlane : (takeJobEnd n q).lanes.get n = { l with job := { l.job with inFlight := false, pinned := [], kept := none } } := by
    rw [takeJobEnd_lanes hfl', Four.get_modify_same, ← hl, jobEnded_flight hfl]
  have hjob := settle_job (p := takeJobEnd n q) (n := n) (by rw [hlane])
  refine ⟨_, hx, hjob.trans (by rw [hlane]), fun hcalm => ?_⟩
  have hdev : (takeJobEnd n q).fault.deviceFatal = q.fault.deviceFatal := by
    rw [takeJobEnd_flight hfl', modOut_fault]
    exact (mild_forAll mild_unpinSlot _ (closedJob n q)).deviceFatal
  have hcalm' : (settle (takeJobEnd n q)).fault.deviceFatal = (takeJobEnd n q).fault.deviceFatal := by rw [hdev, hfatal, ← hcalm]
  rw [settle_calm hcalm']
  refine ⟨hlane, ?_, fun hd => ?_⟩
  · show (takeJobEnd n q).store = _
    rw [takeJobEnd_flight hfl', ← hl]
    rfl
  · rw [hl] at hd
    rw [takeJobEnd_flight hfl']
    exact hd

/-- What JOB_END says of the slots that the job held (R53, R56, R81). -/
theorem jobEnd_slots {env : Env} {n : Ix} {s t : State} {l : Lane}
    (hstore : t.part.store = (forAll l.job.pinned unpinSlot (closedJob n (foundBy env s))).store)
    (hdeg : degraded (forAll l.job.pinned unpinSlot (closedJob n (foundBy env s))) → degraded t.part) :
    (∀ k : SlotIx, l.job.pinned.count k = 1 → (slotOf (foundBy env s) k).intact = true → 0 < (slotOf s.part k).pins →
        slotOf t.part k = if lastPin (slotOf s.part k) then
            { slotOf (foundBy env s) k with
              pins := 0, state := if (slotOf s.part k).poisoned then .quarantined else .free, owner := none }
          else { slotOf (foundBy env s) k with pins := (slotOf s.part k).pins - 1 })
      ∧ (∀ k : SlotIx, k ∉ l.job.pinned → slotOf t.part k = slotOf (foundBy env s) k)
      ∧ (∀ last : List SlotIx, l.job.pinned.Nodup →
          (∀ k ∈ l.job.pinned, (slotOf (foundBy env s) k).intact = true ∧ 0 < (slotOf s.part k).pins) →
          last = l.job.pinned.filter (fun k => lastPin (slotOf s.part k)) →
          t.part.store.freeList = s.part.store.freeList ++ last.filter (fun k => !(slotOf s.part k).poisoned)
            ∧ t.part.store.quarantine =
              s.part.store.quarantine + (last.filter (fun k => (slotOf s.part k).poisoned)).length
            ∧ t.part.store.ctr = { s.part.store.ctr with
              quarantineEntries := bump^[(last.filter (fun k => (slotOf s.part k).poisoned)).length]
                s.part.store.ctr.quarantineEntries }
            ∧ (s.part.store.quarantine < 16 → 16 ≤ t.part.store.quarantine →
              Cond.poolDegraded ∈ t.part.fault.latches ∧ (getLog .dl t.part).isSome = true)) := by
  have hsame (k : SlotIx) (hi : (slotOf (foundBy env s) k).intact = true) : slotOf s.part k = slotOf (foundBy env s) k :=
    (TimedEvents.slot_same_of_intact hi).symm
  have hfree : (foundBy env s).store.freeList = s.part.store.freeList := found_store_freeList ..
  have hquar : (foundBy env s).store.quarantine = s.part.store.quarantine := found_store_quarantine ..
  have hctr : (foundBy env s).store.ctr = s.part.store.ctr := found_store_ctr ..
  generalize foundBy env s = q at *
  have hslot (k : SlotIx) : slotOf (closedJob n q) k = slotOf q k := rfl
  have hcan (k : SlotIx) (hi : (slotOf q k).intact = true) (hp : 0 < (slotOf s.part k).pins) :
      canUnpin (slotOf (closedJob n q) k) = true := by
    rw [hslot, canUnpin, hi, ← hsame k hi, decide_eq_true hp]
    rfl
  refine ⟨fun k hk hi hp => ?_, fun k hk => ?_, fun last hnd hall hlast => ?_⟩
  · rw [slotOf_congr k _ hstore, slotOf_unpins_once hk, slotOf_unpinSlot, if_pos ⟨rfl, hcan k hi hp⟩, hslot, unpinned_intact hi,
      hsame k hi]
  · rw [slotOf_congr k _ hstore, slotOf_unpins_other hk, hslot]
  · obtain ⟨h1, h2, h3⟩ := unpins_store (p := closedJob n q) hnd (fun k hk => hcan k (hall k hk).1 (hall k hk).2)
    have hones (bad : Bool) : lastOnes (closedJob n q) l.job.pinned bad =
        last.filter (fun k => (slotOf s.part k).poisoned == bad) := by
      rw [hlast, List.filter_filter]
      refine List.filter_congr (fun k hk => ?_)
      rw [hslot, ← hsame k (hall k hk).1, Bool.and_comm]
    have hbad : last.filter (fun k => (slotOf s.part k).poisoned == true) = last.filter (fun k => (slotOf s.part k).poisoned) :=
      List.filter_congr (fun k _ => by simp)
    have hgood : last.filter (fun k => (slotOf s.part k).poisoned == false) = last.filter (fun k => !(slotOf s.part k).poisoned) :=
      List.filter_congr (fun k _ => by simp)
    rw [hones, hgood] at h1
    rw [hones, hbad] at h2 h3
    refine ⟨?_, ?_, ?_, fun h0 h16 => ?_⟩
    · rw [hstore, h1, ← hfree]
      rfl
    · rw [hstore, h2, ← hquar]
      rfl
    · rw [hstore, h3, ← hctr]
      rfl
    · rw [hstore] at h16
      refine hdeg ((unpins_degrade l.job.pinned (closedJob n q) (.inl (hquar ▸ h0))).resolve_left ?_)
      omega

end Sys2Proof.Machine.JobEnds
end

section
/-! SUPPORT. Faults: a lane that goes FATAL, the entry to device fatal, and what neither touches (R58, R134, R135, R189). -/

namespace Sys2Proof.Machine.FaultValues

open Frames Keeping LaneValues HistoryLaw LaneEnds LockLoss StoreValues SlotsLaw JobEnds

/-! ### What faults leave of the outputs -/

/-- A view of an output that does not look at its replies, its reserved places and its notices. -/
def PostBlind {β : Type} (g : OutUnit → β) : Prop := ∀ o rs k ns, g { o with replies := rs, reserved := k, notices := ns } = g o

section Outs
variable {β : Type} {g : OutUnit → β} {n m : Ix} {p q : Part}

theorem PostBlind.mild (hg : PostBlind g) (h : Mild p q) : g (q.outs.get m) = g (p.outs.get m) :=
  h.out g (fun o ns => hg o o.replies o.reserved ns)

theorem PostBlind.endLaneOp (hg : PostBlind g) (st : DoneStatus) : g ((endLaneOp n st p).outs.get m) = g (p.outs.get m) := by
  unfold Machine.endLaneOp
  split
  · simp only [postDone, postReply, modOut_outs, modMgmt_outs, Four.get_modify]
    split_ifs
    · exact hg _ _ _ _
    · rfl
  · rfl

theorem PostBlind.laneFatal (hg : PostBlind g) : g ((laneFatal n p).outs.get m) = g (p.outs.get m) := by
  unfold Machine.laneFatal
  show g ((latchSet _ _).outs.get m) = _
  rw [hg.mild (mild_latchSet _ _), hg.mild (mild_leaveRunning _ _ _)]
  show g ((Machine.endLaneOp n .faulted (clearLane n p)).outs.get m) = _
  rw [hg.endLaneOp, hg.mild (mild_clearLane n p)]

theorem PostBlind.deviceFatalLane (hg : PostBlind g) : g ((deviceFatalLane n p).outs.get m) = g (p.outs.get m) := by
  unfold Machine.deviceFatalLane
  split
  · rfl
  · show g ((latchSet _ _).outs.get m) = _
    rw [hg.mild (mild_latchSet _ _)]
    rfl
  all_goals exact hg.laneFatal

theorem PostBlind.settle (hg : PostBlind g) : g ((settle p).outs.get m) = g (p.outs.get m) := by
  unfold Machine.settle
  split
  · dsimp only
    split
    · rfl
    · show g ((enterDeviceFatal p).outs.get m) = _
      rw [enterDeviceFatal]
      have e (a : Part) : g ((forEach Machine.deviceFatalLane a).outs.get m) = g (a.outs.get m) := by
        have h : forEach Machine.deviceFatalLane a = Machine.deviceFatalLane 3 (Machine.deviceFatalLane 2
          (Machine.deviceFatalLane 1 (Machine.deviceFatalLane 0 a))) := rfl
        rw [h, hg.deviceFatalLane, hg.deviceFatalLane, hg.deviceFatalLane, hg.deviceFatalLane]
      rw [e, hg.mild (mild_latchSet _ _)]
      rfl
  · rfl

end Outs

/-! ### A lane that goes FATAL -/

section Fatal
variable {n m : Ix} {p : Part}

/-- A lane that goes FATAL leaves its source feed drained where no other lane runs on it (R21, R37, R134). -/
theorem laneFatal_drains (n : Ix) (p : Part) : drained (p.lanes.get n).profile.source (laneFatal n p) := by
  have hsplit : ∃ q : Part, laneFatal n p = bumpLane n (fun c => { c with faults := bump c.faults })
      (latchSet (.faulted n) (leaveRunning n .faulted q)) ∧ (q.lanes.get n).profile = (p.lanes.get n).profile := by
    refine ⟨_, rfl, ?_⟩
    simp only [modLane_lanes, clearPending, endLaneOp_frame, clearLane_lanes, Four.get_modify_same]
    exact fatalled_source (p.lanes.get n)
  obtain ⟨q, he, hprof⟩ := hsplit
  have hd := leaveRunning_drained n .faulted q
  rw [hprof] at hd
  rw [he]
  refine drained_of (p := leaveRunning n .faulted q) (runningCount_modLane (n := n)
    (g := fun l => { l with laneCtr := { l.laneCtr with faults := bump l.laneCtr.faults } }) ?_ ?_) ?_ hd
  · simp
  · simp [sources]
  · simp

theorem fatalled_eq (l : Lane) : fatalled l = { l with
    job := (abandoned l).job
    jobCtr := (abandoned l).jobCtr
    carry := []
    carryCtr := { l.carryCtr with itemsFlushed := bumpBy l.carry.length l.carryCtr.itemsFlushed }
    commit := none
    acquireAt := none
    holdCount := 0
    state := .faulted
    laneCtr := { l.laneCtr with faults := bump l.laneCtr.faults } } := by
  unfold fatalled carryFlushed abandoned
  split <;> rfl

theorem laneFatal_timebase (n : Ix) (p : Part) : (laneFatal n p).timebase = p.timebase := (endured_laneFatal n p).timebase

/-- A FAULTED lane stands through the end of a step (R135). -/
theorem settle_faulted (h : (p.lanes.get n).state = .faulted) : (settle p).lanes.get n = p.lanes.get n := by
  rw [settle_lanes]
  split
  · rw [Four.get_make, deviceFatalled, h]
  · rfl

end Fatal

/-! ### The entry to device fatal -/

section Entry
variable {p : Part} {n : Ix}

theorem settle_entered (hd : p.fault.fatalDue = true) (hf : p.fault.deviceFatal = false) :
    settle p = modFault (fun u => { u with fatalDue := false }) (enterDeviceFatal p) := by
  rw [settle, if_pos hd, hf]
  rfl

theorem mem_enterDeviceFatal (p : Part) : Cond.deviceFatal ∈ (enterDeviceFatal p).fault.latches :=
  (mild_forEach mild_deviceFatalLane _).latches _ ((mem_latchSet _ _ _).2 (.inr rfl))

/-- What device fatal does is seen at each lane by itself (R135). -/
theorem enterDeviceFatal_at (n : Ix) (p : Part) : ∃ q : Part, q.lanes.get n = p.lanes.get n
    ∧ MildFault (deviceFatalLane n q).fault (enterDeviceFatal p).fault
    ∧ ((deviceFatalLane n q).mgmt.laneOps.get n = none → (enterDeviceFatal p).mgmt.laneOps.get n = none) := by
  obtain ⟨q, -, hview, ⟨hmild, hops⟩, -⟩ := forEach_at (f := deviceFatalLane) (view := fun q => q.lanes.get n)
    (R := fun a b => MildFault a.fault b.fault ∧ (a.mgmt.laneOps.get n = none → b.mgmt.laneOps.get n = none))
    (fun a => ⟨.refl _, id⟩) (fun a b c h g => ⟨h.1.trans g.1, fun e => g.2 (h.2 e)⟩)
    (fun k q => ⟨mild_deviceFatalLane k q, deviceFatalLane_none k⟩) n
    (fun k q hk => by rw [deviceFatalLane_lanes, Four.get_modify_other _ _ (Ne.symm hk)])
    (latchSet .deviceFatal (modFault (fun u => { u with deviceFatal := true }) p))
  refine ⟨q, hview.trans (by simp), hmild, hops⟩

theorem deviceFatalLane_running {q : Part} (h : isRunning (q.lanes.get n).state = true) : deviceFatalLane n q = laneFatal n q := by
  cases hs : (q.lanes.get n).state with
  | faulted => rw [hs] at h; cases h
  | stopped => rw [hs] at h; cases h
  | acquiring => rw [deviceFatalLane, hs]
  | converting => rw [deviceFatalLane, hs]
  | holding => rw [deviceFatalLane, hs]
  | slate => rw [deviceFatalLane, hs]

theorem enterDeviceFatal_latched (h : (p.lanes.get n).state ≠ .faulted) : Cond.faulted n ∈ (enterDeviceFatal p).fault.latches := by
  obtain ⟨q, hl, hm, -⟩ := enterDeviceFatal_at n p
  rw [← hl] at h
  refine hm.latches _ ?_
  by_cases hr : isRunning (q.lanes.get n).state = true
  · rw [deviceFatalLane_running hr]
    exact laneFatal_latched n q
  · cases hs : (q.lanes.get n).state with
    | faulted => exact absurd hs h
    | stopped =>
      rw [deviceFatalLane, hs]
      exact (mem_latchSet _ _ _).2 (.inr rfl)
    | acquiring => exact absurd (by rw [hs]; rfl) hr
    | converting => exact absurd (by rw [hs]; rfl) hr
    | holding => exact absurd (by rw [hs]; rfl) hr
    | slate => exact absurd (by rw [hs]; rfl) hr

theorem enterDeviceFatal_ops (h : isRunning (p.lanes.get n).state = true) : (enterDeviceFatal p).mgmt.laneOps.get n = none := by
  obtain ⟨q, hl, -, hops⟩ := enterDeviceFatal_at n p
  rw [← hl] at h
  refine hops ?_
  rw [deviceFatalLane_running h, laneFatal_mgmt]
  exact Four.get_set_same ..

theorem deviceFatalled_running {l : Lane} (h : isRunning l.state = true) : deviceFatalled l = fatalled l := by
  cases hs : l.state with
  | faulted => rw [hs] at h; cases h
  | stopped => rw [hs] at h; cases h
  | acquiring => rw [deviceFatalled, hs]
  | converting => rw [deviceFatalled, hs]
  | holding => rw [deviceFatalled, hs]
  | slate => rw [deviceFatalled, hs]

theorem deviceFatalled_state (l : Lane) : (deviceFatalled l).state = .faulted := by
  unfold deviceFatalled
  split
  · next h => exact h
  · rfl
  · rfl

end Entry

/-! ### A record that fails its check, and the log of an integrity error -/

section Frozen
variable {p q r : Part} {k : SlotIx} {n : Ix}

/-- `q` is `p` after work that acts on intact records alone (R58): the record of slot `k`, where it fails its check, stands,
and a device log that holds a FATAL record holds one. -/
structure Frozen (k : SlotIx) (p q : Part) : Prop where
  slot : (slotOf p k).intact = false → slotOf q k = slotOf p k
  logged : (∃ rec, p.fault.deviceLog = some rec ∧ rec.severity = .fatal) →
    ∃ rec, q.fault.deviceLog = some rec ∧ rec.severity = .fatal

theorem Frozen.refl (k : SlotIx) (p : Part) : Frozen k p p := ⟨fun _ => rfl, id⟩

theorem Frozen.trans (h : Frozen k p q) (g : Frozen k q r) : Frozen k p r :=
  ⟨fun hi => (g.slot (by rw [h.slot hi]; exact hi)).trans (h.slot hi), fun hl => g.logged (h.logged hl)⟩

theorem frozen_of (hs : q.store = p.store) (hf : q.fault.deviceLog = p.fault.deviceLog) : Frozen k p q :=
  ⟨fun _ => slotOf_congr k p hs, fun h => hf ▸ h⟩

theorem Frozen.after (h : Frozen k q r) (hs : q.store = p.store) (hf : q.fault.deviceLog = p.fault.deviceLog) : Frozen k p r :=
  (frozen_of hs hf).trans h

theorem Frozen.before (h : Frozen k p q) (hs : r.store = q.store) (hf : r.fault.deviceLog = q.fault.deviceLog) : Frozen k p r :=
  h.trans (frozen_of hs hf)

/-- A FATAL record is not given up to a report (R181). -/
theorem logReport_fatal {c : ErrCode} {t : Nat} {d : Detail} {o : Option LogRec} (h : ∃ rec, o = some rec ∧ rec.severity = .fatal) :
    ∃ rec, logReport c t d o = some rec ∧ rec.severity = .fatal := by
  obtain ⟨rec, ho, hs⟩ := h
  have hrank : ¬severityRank rec.severity < severityRank (errSeverity c) := by
    rw [hs]
    cases errSeverity c <;> decide
  rw [ho, logReport, if_neg hrank]
  exact ⟨_, rfl, hs⟩

theorem releaseSlot_log (a : SlotIx) (p : Part) (h : ∃ rec, p.fault.deviceLog = some rec ∧ rec.severity = .fatal) :
    ∃ rec, (releaseSlot a p).fault.deviceLog = some rec ∧ rec.severity = .fatal := by
  unfold releaseSlot
  split
  · rw [slotToQuarantine_eq]
    split
    · have hq : ∃ rec, (latchSet .poolDegraded (quarantineSet a p)).fault.deviceLog = some rec ∧ rec.severity = .fatal := by
        rw [(latchSet_fault_flags _ _).2.2.2.2.2]
        exact h
      exact logReport_fatal hq
    · exact h
  · exact h

theorem frozen_unpinSlot (a : SlotIx) (p : Part) : Frozen k p (unpinSlot a p) := by
  refine ⟨fun hi => ?_, fun h => ?_⟩
  · rw [slotOf_unpinSlot, if_neg]
    rintro ⟨rfl, hc⟩
    rw [canUnpin, hi] at hc
    cases hc
  · by_cases hc : canUnpin (slotOf p a) = true
    · rw [unpinSlot_on hc]
      split
      · exact releaseSlot_log a _ h
      · exact h
    · rw [unpinSlot_off (Bool.eq_false_iff.2 hc)]
      exact logReport_fatal h

theorem frozen_returnSlot (n : Ix) (a : SlotIx) (p : Part) : Frozen k p (returnSlot n a p) := by
  refine ⟨fun hi => ?_, fun h => ?_⟩
  · rw [slotOf_returnSlot, if_neg]
    rintro ⟨rfl, hc⟩
    rw [canReturn, hi] at hc
    cases hc
  · unfold returnSlot
    dsimp only
    split
    · split
      · exact h
      · exact releaseSlot_log a p h
    · exact logReport_fatal h

theorem frozen_forAll {α : Type} {f : α → Part → Part} (hf : ∀ a q, Frozen k q (f a q)) (xs : List α) (p : Part) :
    Frozen k p (forAll xs f p) := by
  induction xs generalizing p with
  | nil => exact .refl k p
  | cons x xs ih => exact (hf x p).trans (ih (f x p))

theorem frozen_latchSet (c : Cond) (p : Part) : Frozen k p (latchSet c p) := frozen_of (by simp) (by simp)

theorem frozen_flushFeed (n : Ix) (p : Part) : Frozen k p (flushFeed n p) := by
  have hentry (e : Entry) (q : Part) : Frozen k q (returnEntry n e q) := by
    unfold returnEntry
    split
    · exact frozen_returnSlot n _ q
    · exact .refl k q
  have h : Frozen k p (forAll (p.feeds.get n).history (returnEntry n) (modFeed n (fun f => { f with history := [] }) p)) :=
    (frozen_forAll hentry _ _).after rfl rfl
  exact h.before rfl rfl

theorem frozen_leaveRunning (n : Ix) (s : LaneState) (p : Part) : Frozen k p (leaveRunning n s p) := by
  unfold leaveRunning
  dsimp only
  split
  · have h : Frozen k p (flushFeed (p.lanes.get n).profile.source (modLane n (fun l => { l with state := s }) p)) :=
      (frozen_flushFeed (p.lanes.get n).profile.source _).after rfl rfl
    exact h.before rfl rfl
  · exact frozen_of rfl rfl

theorem frozen_clearLane (n : Ix) (p : Part) : Frozen k p (clearLane n p) := by
  have h : Frozen k p (abandonJob n p) := by
    unfold abandonJob unpinJob
    split
    · have h : Frozen k p (forAll (p.lanes.get n).job.pinned unpinSlot
          (modLane n (fun l => { l with job := { l.job with pinned := [] } }) p)) :=
        (frozen_forAll frozen_unpinSlot _ _).after rfl rfl
      exact h.before rfl rfl
    · exact .refl k p
  exact h.before rfl rfl

theorem frozen_laneFatal (n : Ix) (p : Part) : Frozen k p (laneFatal n p) := by
  have h1 : Frozen k p (endLaneOp n .faulted (clearLane n p)) :=
    (frozen_clearLane n p).trans (frozen_of (by simp) (by simp))
  have h2 : Frozen k p (leaveRunning n .faulted (modLane n (fun l => { l with holdCount := 0 })
      (clearPending n (endLaneOp n .faulted (clearLane n p))))) :=
    h1.trans ((frozen_leaveRunning n .faulted _).after rfl rfl)
  exact (h2.trans (frozen_latchSet (.faulted n) _)).before rfl rfl

theorem frozen_deviceFatalLane (n : Ix) (p : Part) : Frozen k p (deviceFatalLane n p) := by
  unfold deviceFatalLane
  split
  · exact .refl k p
  · have h : Frozen k p (latchSet (.faulted n) (modLane n (fun l => { l with state := .faulted }) p)) :=
      (frozen_latchSet _ _).after rfl rfl
    exact h.before rfl rfl
  all_goals exact frozen_laneFatal n p

theorem frozen_settle (p : Part) : Frozen k p (settle p) := by
  unfold settle
  split
  · dsimp only
    split
    · exact frozen_of rfl rfl
    · have h0 : Frozen k p (latchSet .deviceFatal (modFault (fun u => { u with deviceFatal := true }) p)) :=
        (frozen_latchSet _ _).after rfl rfl
      have h : Frozen k p (enterDeviceFatal p) := (((h0.trans (frozen_deviceFatalLane 0 _)).trans
        (frozen_deviceFatalLane 1 _)).trans (frozen_deviceFatalLane 2 _)).trans (frozen_deviceFatalLane 3 _)
      exact h.before rfl rfl
  · exact .refl k p

/-- The release of a pin whose record fails its check is reported FATAL (R58). -/
theorem unpins_logged {ks : List SlotIx} (hk : k ∈ ks) (hi : (slotOf p k).intact = false) :
    (∃ rec, (forAll ks unpinSlot p).fault.deviceLog = some rec ∧ rec.severity = .fatal)
      ∧ (forAll ks unpinSlot p).fault.fatalDue = true := by
  induction ks generalizing p with
  | nil => cases hk
  | cons a ks ih =>
    by_cases hka : k = a
    · subst hka
      have hoff : unpinSlot k p = integrityError k p := unpinSlot_off (by rw [canUnpin, hi]; rfl)
      have hlog : ∃ rec, (unpinSlot k p).fault.deviceLog = some rec ∧ rec.severity = .fatal := by
        rw [hoff]
        show ∃ rec, logReport .slotRecord p.timebase (.slot k.val) p.fault.deviceLog = some rec ∧ rec.severity = .fatal
        unfold logReport
        split
        · exact ⟨_, rfl, rfl⟩
        · next rec _ =>
          split
          · exact ⟨_, rfl, rfl⟩
          · next hr =>
            refine ⟨_, rfl, ?_⟩
            show rec.severity = _
            cases hs : rec.severity
            · rw [hs] at hr; exact absurd (by decide) hr
            · rw [hs] at hr; exact absurd (by decide) hr
            · rfl
      have hdue : (unpinSlot k p).fault.fatalDue = true := by
        rw [hoff]
        rfl
      exact ⟨(frozen_forAll (k := k) frozen_unpinSlot ks _).logged hlog, (mild_forAll mild_unpinSlot ks _).due hdue⟩
    · exact ih (p := unpinSlot a p) (List.mem_of_ne_of_mem hka hk) (by rw [(frozen_unpinSlot a p).slot hi]; exact hi)

end Frozen

end Sys2Proof.Machine.FaultValues
end

section
/-! SUPPORT. The computation of an output line: what a computation that reads slots and rows answers, and the line of
the formulas (R72 to R78, R86 to R97). -/

namespace Sys2Proof.Machine.Readings

/-! ### Rules for computations that read -/

section Rules
variable {α β γ : Type} {I : Trace → Prop} {E : Prop}

/-- Begun under `I`, a computation that answers answers in `P`, and `I` still holds. -/
def Yields (I : Trace → Prop) (m : Rd α) (P : α → Prop) : Prop :=
  ∀ (t : Trace) (a : α) (t' : Trace), I t → m.run t = (.ok a, t') → P a ∧ I t'

/-- A computation answers whatever it is begun with, and under `E` no corrected read is added. -/
def Succeeds (E : Prop) (m : Rd α) : Prop :=
  ∀ t : Trace, ∃ (a : α) (t' : Trace), m.run t = (.ok a, t') ∧ (E → t'.corrected = t.corrected)

theorem run_bind_ok {m : Rd α} {f : α → Rd β} {t u : Trace} {a : α} (h : m.run t = (.ok a, u)) :
    (m >>= f).run t = (f a).run u := by
  have e : ((m >>= f).run : StateM Trace _) = m.run >>= ExceptT.bindCont f := rfl
  rw [e]
  show (match m.run t with | (r, u) => ExceptT.bindCont f r u) = _
  rw [h]
  rfl

theorem run_bind_error {m : Rd α} {f : α → Rd β} {t u : Trace} {e : Halt} (h : m.run t = (.error e, u)) :
    (m >>= f).run t = (.error e, u) := by
  have e' : ((m >>= f).run : StateM Trace _) = m.run >>= ExceptT.bindCont f := rfl
  rw [e']
  show (match m.run t with | (r, u) => ExceptT.bindCont f r u) = _
  rw [h]
  rfl

theorem yields_pure {a : α} {P : α → Prop} (h : P a) : Yields I (pure a) P := by
  intro t b t' hI e
  obtain ⟨rfl, rfl⟩ : b = a ∧ t' = t := by
    cases e; exact ⟨rfl, rfl⟩
  exact ⟨h, hI⟩

theorem yields_throw {e : Halt} {P : α → Prop} : Yields I (throw e : Rd α) P := by
  intro t b t' _ h
  cases h

theorem yields_bind {m : Rd α} {f : α → Rd β} {P : α → Prop} {Q : β → Prop} (hm : Yields I m P)
    (hf : ∀ a, P a → Yields I (f a) Q) : Yields I (m >>= f) Q := by
  intro t b t' hI h
  cases hr : m.run t with
  | mk r u =>
    cases r with
    | ok a =>
      obtain ⟨hP, hu⟩ := hm t a u hI hr
      exact hf a hP u b t' hu ((run_bind_ok hr).symm.trans h)
    | error e => exact nomatch (run_bind_error hr).symm.trans h

/-- The answers of a pass over a list are, one for one, those of the function at its elements. -/
theorem yields_mapM {f : α → Rd β} {g : α → β} : ∀ xs : List α, (∀ x ∈ xs, Yields I (f x) (· = g x)) →
    Yields I (xs.mapM f) (· = xs.map g)
  | [], _ => by rw [List.mapM_nil]; exact yields_pure rfl
  | x :: xs, h => by
    rw [List.mapM_cons]
    refine yields_bind (h x (by simp)) fun b hb => yields_bind (yields_mapM xs fun y hy => h y (by simp [hy])) fun bs hbs => ?_
    exact yields_pure (by rw [hb, hbs, List.map_cons])

/-- The answers of a pass over a list all have a property that each call gives. -/
theorem yields_mapM_all {f : α → Rd β} {P : β → Prop} : ∀ xs : List α, (∀ x ∈ xs, Yields I (f x) P) →
    Yields I (xs.mapM f) (fun bs => ∀ b ∈ bs, P b)
  | [], _ => by rw [List.mapM_nil]; exact yields_pure (by simp)
  | x :: xs, h => by
    rw [List.mapM_cons]
    refine yields_bind (h x (by simp)) fun b hb =>
      yields_bind (yields_mapM_all xs fun y hy => h y (by simp [hy])) fun bs hbs => ?_
    exact yields_pure (by simpa using ⟨hb, hbs⟩)

theorem succeeds_pure (a : α) : Succeeds E (pure a) := fun t => ⟨a, t, rfl, fun _ => rfl⟩

theorem succeeds_bind {m : Rd α} {f : α → Rd β} (hm : Succeeds E m) (hf : ∀ a, Succeeds E (f a)) :
    Succeeds E (m >>= f) := by
  intro t
  obtain ⟨a, u, hmu, hu⟩ := hm t
  obtain ⟨b, v, hfv, hv⟩ := hf a u
  exact ⟨b, v, (run_bind_ok hmu).trans hfv, fun e => (hv e).trans (hu e)⟩

theorem succeeds_mapM {f : α → Rd β} : ∀ xs : List α, (∀ x, Succeeds E (f x)) → Succeeds E (xs.mapM f)
  | [], _ => by rw [List.mapM_nil]; exact succeeds_pure _
  | x :: xs, h => by
    rw [List.mapM_cons]
    exact succeeds_bind (h x) fun b => succeeds_bind (succeeds_mapM xs h) fun bs => succeeds_pure _

end Rules

/-! ### One read -/

section Reads
variable {c : LineCtx} {I : Trace → Prop} {E : Prop}

/-- A property of traces that does not look at the corrected reads. -/
def ReadBlind (I : Trace → Prop) : Prop := ∀ (cs ds : List SlotIx) (bs : List BlockMeasure), I ⟨cs, bs⟩ → I ⟨ds, bs⟩

/-- The active row of a table that a line reads. -/
def bankRow (c : LineCtx) (t : Table) (row : Nat) : TRow :=
  match t with
  | .tt => c.tt.getD row (defaultRow .tt row)
  | .hc => c.hc.getD row (defaultRow .hc row)
  | .vc => c.vc.getD row (defaultRow .vc row)

theorem readRow_eq (t : Table) (row : Nat) :
    readRow c t row = if (bankRow c t row).parityOk then pure (bankRow c t row) else throw (.badRow t row) := by
  cases t <;> rfl

theorem yields_readRow (t : Table) (row : Nat) : Yields I (readRow c t row) (· = bankRow c t row) := by
  rw [readRow_eq]
  split
  · exact yields_pure rfl
  · exact yields_throw

theorem defaultRow_parity (t : Table) (row : Nat) : (defaultRow t row).parityOk = true := by
  cases t with
  | tt =>
    simp only [defaultRow]
    split
    · rfl
    · split <;> rfl
  | hc => rfl
  | vc => rfl

theorem bankRow_parity (h : readsClean c) (t : Table) (row : Nat) : (bankRow c t row).parityOk = true := by
  obtain ⟨_, htt, hhc, hvc⟩ := h
  have row_parity (t : Table) (rows : List TRow) (hr : ∀ r ∈ rows, r.parityOk = true) :
      (rows.getD row (defaultRow t row)).parityOk = true := by
    rw [List.getD_eq_getElem?_getD]
    cases e : rows[row]? with
    | none => exact defaultRow_parity t row
    | some r => exact hr r (List.mem_of_getElem? e)
  cases t with
  | tt => exact row_parity .tt _ htt
  | hc => exact row_parity .hc _ hhc
  | vc => exact row_parity .vc _ hvc

theorem succeeds_readRow (h : readsClean c) (t : Table) (row : Nat) : Succeeds E (readRow c t row) := by
  rw [readRow_eq, if_pos (bankRow_parity h t row)]
  exact succeeds_pure _

/-- The number that a stored sample holds (R95). -/
def storedAt (c : LineCtx) (pic : Picture) (comp : Component) (l i : Nat) : Nat :=
  (memoryRead c.mem (sampleAddress pic.slot comp l i)).toNat

theorem readSample_sound {pic : Picture} {comp : Component} {l i : Nat}
    (h : cellsGet (sampleAddress pic.slot comp l i) c.ecc = none) :
    readSample c pic comp l i = pure (storedAt c pic comp l i) := by
  simp only [readSample, h, storedAt]

theorem readSample_lost {pic : Picture} {comp : Component} {l i : Nat}
    (h : cellsGet (sampleAddress pic.slot comp l i) c.ecc = some .uncorrectable) :
    readSample c pic comp l i = throw (.badSample pic.src pic.slot) := by
  simp only [readSample, h]

theorem readSample_corrected {pic : Picture} {comp : Component} {l i : Nat}
    (h : cellsGet (sampleAddress pic.slot comp l i) c.ecc = some .correctable) (t : Trace) :
    (readSample c pic comp l i).run t =
      (.ok (storedAt c pic comp l i), { t with corrected := t.corrected ++ [pic.slot] }) := by
  simp only [readSample, h, storedAt]
  rfl

theorem yields_readSample (hI : ReadBlind I) (pic : Picture) (comp : Component) (l i : Nat) :
    Yields I (readSample c pic comp l i) (· = storedAt c pic comp l i) := by
  cases h : cellsGet (sampleAddress pic.slot comp l i) c.ecc with
  | none => rw [readSample_sound h]; exact yields_pure rfl
  | some f =>
    cases f with
    | uncorrectable => rw [readSample_lost h]; exact yields_throw
    | correctable =>
      intro t v t' ht e
      cases (readSample_corrected h t).symm.trans e
      exact ⟨rfl, hI _ _ _ ht⟩

theorem succeeds_readSample (h : readsClean c) (hE : E → c.ecc = []) (pic : Picture) (comp : Component) (l i : Nat) :
    Succeeds E (readSample c pic comp l i) := by
  cases e : cellsGet (sampleAddress pic.slot comp l i) c.ecc with
  | none => rw [readSample_sound e]; exact succeeds_pure _
  | some f =>
    cases f with
    | uncorrectable => exact absurd e (h.1 _)
    | correctable =>
      refine fun t => ⟨_, _, readSample_corrected e t, fun he => ?_⟩
      rw [hE he] at e
      cases e

end Reads

/-! ### The spatial value -/

theorem mem_readPositions {ps : List Nat} {ks : List Int} {x : Nat × Int} (hx : x ∈ ps.zip ks) (h : x.2 ≠ 0) :
    x.1 ∈ readPositions ps ks := by
  unfold readPositions
  rw [List.mem_eraseDups]
  exact List.mem_map_of_mem (List.mem_filter.2 ⟨hx, by simpa using h⟩)

theorem valueAt_of_read {f : Nat → Nat → Nat} {l i : Nat} : ∀ xs : List (Nat × Nat), (l, i) ∈ xs →
    valueAt (xs.map (fun x => (x, f x.1 x.2))) l i = (f l i : Int)
  | [], h => nomatch h
  | x :: xs, h => by
    by_cases e : x = (l, i)
    · subst e; simp [valueAt]
    · have hx : (l, i) ∈ xs := (List.mem_cons.1 h).resolve_left fun h => e h.symm
      rw [← valueAt_of_read xs hx]
      simp [valueAt, e]

/-- The positions left unread have coefficient 0, so the sum over those read is the sum over all. -/
theorem filterSum_read (f : Nat → Nat → Nat) (lines cols : List Nat) (vc hc : List Int) :
    filterSum (((readPositions lines vc).flatMap (fun r => (readPositions cols hc).map (fun i => (r, i)))).map
        (fun x => (x, f x.1 x.2))) lines cols vc hc =
      ((lines.zip vc).map (fun lv => lv.2 * ((cols.zip hc).map (fun ch => ch.2 * (f lv.1 ch.1 : Int))).sum)).sum := by
  unfold filterSum
  refine congrArg List.sum (List.map_congr_left fun lv hlv => ?_)
  by_cases hl : lv.2 = 0
  · rw [hl, zero_mul, zero_mul]
  refine congrArg (lv.2 * ·) (congrArg List.sum (List.map_congr_left fun ch hch => ?_))
  by_cases hc0 : ch.2 = 0
  · rw [hc0, zero_mul, zero_mul]
  rw [valueAt_of_read]
  exact List.mem_flatMap.2 ⟨lv.1, mem_readPositions hlv hl, List.mem_map_of_mem (mem_readPositions hch hc0)⟩

/-- The spatial value as the sum over the sixteen positions of R88 to R93. -/
theorem directSpatial_eq (c : LineCtx) (pic : Picture) (comp : Component) (x : Nat) :
    directSpatial c pic comp x = spatialOut
      (((neighbourhood (wholePart (verticalPosition c pic.parity)) (linesPerPicture c.source)).zip
          (rowCoefs (bankRow c .vc (phasePart (verticalPosition c pic.parity))))).map (fun lv => lv.2 *
        (((neighbourhood (wholePart (sixteenths x (componentWidth c.source comp) (componentWidth c.output comp)))
            (componentWidth c.source comp)).zip
          (rowCoefs (bankRow c .hc (phasePart
            (sixteenths x (componentWidth c.source comp) (componentWidth c.output comp)))))).map
          (fun ch => ch.2 * (storedAt c pic comp lv.1 ch.1 : Int))).sum)).sum := by
  have shift (w : Int) : w + 2 - 1 = w + 1 ∧ w + 3 - 1 = w + 2 := by omega
  simp [directSpatial, neighbourhood, rowCoefs, bankRow, List.range_succ, directSample, storedAt, shift]

section Spatial
variable {c : LineCtx} {I : Trace → Prop} {E : Prop}

theorem yields_spatialValue (hI : ReadBlind I) (pic : Picture) (comp : Component) (x : Nat) :
    Yields I (spatialValue c pic comp x) (· = directSpatial c pic comp x) := by
  refine yields_bind (yields_readRow _ _) fun hrow hh => yields_bind (yields_readRow _ _) fun vrow hv => ?_
  refine yields_bind (yields_mapM (g := fun ri => (ri, storedAt c pic comp ri.1 ri.2)) _ fun ri _ =>
    yields_bind (yields_readSample hI pic comp _ _) fun v hs => yields_pure (by rw [hs])) fun vals hvals => ?_
  refine yields_pure ?_
  rw [hvals, hh, hv, filterSum_read (storedAt c pic comp), directSpatial_eq]

theorem succeeds_spatialValue (h : readsClean c) (hE : E → c.ecc = []) (pic : Picture) (comp : Component) (x : Nat) :
    Succeeds E (spatialValue c pic comp x) :=
  succeeds_bind (succeeds_readRow h _ _) fun _ => succeeds_bind (succeeds_readRow h _ _) fun _ =>
    succeeds_bind (succeeds_mapM _ fun _ => succeeds_bind (succeeds_readSample h hE pic comp _ _) fun _ =>
      succeeds_pure _) fun _ => succeeds_pure _

end Spatial

/-! ### The line -/

section Line
variable {c : LineCtx} {E : Prop}

/-- The blocks measured by a trace are right (R75). -/
def MeasuresRight (c : LineCtx) (t : Trace) : Prop := blocksRight c t.blocks

theorem measuresRight_blind : ReadBlind (MeasuresRight c) := fun _ _ _ h => h

theorem yields_measureBlock (a b : Picture) (col row : Nat) :
    Yields (MeasuresRight c) (measureBlock c a b col row) (· = directMeasure c a b col row) := by
  have hI := measuresRight_blind (c := c)
  refine yields_bind (yields_mapM
    (g := fun ri => (directSample c a .y ri.1 ri.2 - directSample c b .y ri.1 ri.2).natAbs) _ fun ri _ =>
      yields_bind (yields_readSample hI a .y _ _) fun x hx => yields_bind (yields_readSample hI b .y _ _) fun y hy =>
        yields_pure (by rw [hx, hy]; rfl)) fun diffs hd => yields_pure ?_
  rw [hd]; rfl

theorem succeeds_measureBlock (h : readsClean c) (hE : E → c.ecc = []) (a b : Picture) (col row : Nat) :
    Succeeds E (measureBlock c a b col row) :=
  succeeds_bind (succeeds_mapM _ fun _ => succeeds_bind (succeeds_readSample h hE a _ _ _) fun _ =>
    succeeds_bind (succeeds_readSample h hE b _ _ _) fun _ => succeeds_pure _) fun _ => succeeds_pure _

theorem blocksRight_append {bs : List BlockMeasure} {a b : Picture} {col row : Nat} (hb : blocksRight c bs)
    (hm : c.motion = some (a, b)) : blocksRight c (bs ++ [⟨col, row, directMeasure c a b col row⟩]) := by
  intro a' b' hm' m hmem
  rcases List.mem_append.1 hmem with h | h
  · exact hb a' b' hm' m h
  · cases hm.symm.trans hm'
    rw [List.mem_singleton.1 h]

theorem yields_classOf (x : Nat) : Yields (MeasuresRight c) (classOf c x) (· = directClass c x) := by
  unfold classOf directClass
  cases hm : c.motion with
  | none => exact yields_pure rfl
  | some ab =>
    obtain ⟨a, b⟩ := ab
    intro t k t' ht hrun
    replace hrun := (run_bind_ok (a := t) (u := t) rfl).symm.trans hrun
    split at hrun
    next m hf =>
      cases hrun
      refine ⟨?_, ht⟩
      have hat := List.find?_some hf
      simp only [Bool.and_eq_true, beq_iff_eq] at hat
      rw [ht a b hm m (List.mem_of_find?_eq_some hf), hat.1, hat.2]
    next =>
      refine yields_bind (Q := (· = motionClass c.theta1 c.theta2 c.theta3 (directMeasure c a b _ _)))
        (yields_measureBlock a b _ _) (fun d hd => ?_) t k t' ht hrun
      refine yields_bind (P := fun _ => True) ?_ fun _ _ => yields_pure (by rw [hd])
      intro u v u' hu h
      cases h
      refine ⟨trivial, ?_⟩
      rw [hd]
      exact blocksRight_append hu hm

theorem succeeds_classOf (h : readsClean c) (hE : E → c.ecc = []) (x : Nat) : Succeeds E (classOf c x) := by
  unfold classOf
  cases c.motion with
  | none => exact succeeds_pure _
  | some ab =>
    refine succeeds_bind (fun t => ⟨t, t, rfl, fun _ => rfl⟩) fun t => ?_
    split
    · exact succeeds_pure _
    · exact succeeds_bind (succeeds_measureBlock h hE _ _ _ _) fun d =>
        succeeds_bind (fun u => ⟨_, _, rfl, fun _ => rfl⟩) fun _ => succeeds_pure _

/-- What one picture with its weight adds to the blend (R78). -/
def blendPart (c : LineCtx) (comp : Component) (x : Nat) (wp : Int × Option Picture) : Int :=
  match wp.2 with
  | some k => wp.1 * directSpatial c k comp x
  | none => 0

theorem directBlend_eq (w : Weights) (comp : Component) (x : Nat) :
    directBlend c w comp x =
      blendOut (([(w.wm1, c.tm1), (w.w0, c.t0), (w.w1, c.t1), (w.w2, c.t2)].map (blendPart c comp x)).sum) := by
  simp only [List.map_cons, List.map_nil, List.sum_cons, List.sum_nil, add_zero, ← add_assoc]
  rfl

theorem yields_blendSample (w : Weights) (comp : Component) (x : Nat) :
    Yields (MeasuresRight c) (blendSample c w comp x) (· = directBlend c w comp x) := by
  refine yields_bind (yields_mapM (g := blendPart c comp x) _ fun wp _ => ?_) fun parts hp =>
    yields_pure (by rw [hp, directBlend_eq])
  obtain ⟨wt, pic⟩ := wp
  cases pic with
  | none => exact yields_pure rfl
  | some k =>
    by_cases h0 : wt = 0
    · subst h0
      exact yields_pure (zero_mul _).symm
    · simp only [h0, if_false]
      exact yields_bind (yields_spatialValue measuresRight_blind k comp x) fun v hv => yields_pure (by rw [hv]; rfl)

theorem yields_blendSamples (comp : Component) (ws : List (Weights × Nat)) :
    Yields (MeasuresRight c) (ws.mapM (fun wx => blendSample c wx.1 comp wx.2))
      (· = ws.map (fun wx => directBlend c wx.1 comp wx.2)) :=
  yields_mapM ws fun wx _ => yields_blendSample wx.1 comp wx.2

theorem succeeds_blendSample (h : readsClean c) (hE : E → c.ecc = []) (w : Weights) (comp : Component) (x : Nat) :
    Succeeds E (blendSample c w comp x) := by
  refine succeeds_bind (succeeds_mapM _ fun wp => ?_) fun _ => succeeds_pure _
  obtain ⟨wt, pic⟩ := wp
  cases pic with
  | none => exact succeeds_pure _
  | some k =>
    dsimp only
    split
    · exact succeeds_pure _
    · exact succeeds_bind (succeeds_spatialValue h hE k comp x) fun _ => succeeds_pure _

theorem yields_fallbackSample (pic : Picture) (comp : Component) (x : Nat) :
    Yields (MeasuresRight c) (fallbackSample c pic comp x) (· = blendOut (1024 * directSpatial c pic comp x)) :=
  yields_bind (yields_spatialValue measuresRight_blind pic comp x) fun v hv => yields_pure (by rw [hv])

theorem succeeds_fallbackSample (h : readsClean c) (hE : E → c.ecc = []) (pic : Picture) (comp : Component) (x : Nat) :
    Succeeds E (fallbackSample c pic comp x) :=
  succeeds_bind (succeeds_spatialValue h hE pic comp x) fun _ => succeeds_pure _

/-- The rows of the chroma samples are those of the even luma samples (R76). -/
theorem evens_eq (f : Nat → Weights) (wo : Nat) :
    (List.range (wo / 2)).filterMap (fun k => (((List.range wo).map f)[2 * k]?).map (fun w => (w, k))) =
      (List.range (wo / 2)).map (fun k => (f (2 * k), k)) := by
  refine Eq.trans (List.filterMap_congr fun k hk => ?_) (congrFun List.filterMap_eq_map _)
  have hk' : 2 * k < wo := by
    have := List.mem_range.1 hk
    omega
  simp [hk']

theorem map_zipIdx_range {α β : Type} (f : Nat → α) (g : α × Nat → β) (k : Nat) :
    (((List.range k).map f).zipIdx).map g = (List.range k).map (fun x => g (f x, x)) := by
  refine List.ext_getElem (by simp) fun i _ _ => ?_
  simp

/-- The substituted row of a sample, read (R77). -/
theorem yields_weights (x : Nat) (k : Nat) (hk : k = directClass c x) :
    Yields (MeasuresRight c) (do
      let r ← readRow c .tt (4 * c.phase + k)
      pure (substitute c.presence (rowWeights r))) (· = directWeights c x) :=
  yields_bind (yields_readRow _ _) fun r hr => yields_pure (by rw [hr, hk]; rfl)

theorem yields_computeOnce : Yields (MeasuresRight c) (computeOnce c) (· = directLine c) := by
  unfold computeOnce directLine
  cases c.fallback with
  | some pic =>
    refine yields_bind (yields_mapM _ fun x _ => yields_fallbackSample pic .y x) fun y hy => ?_
    refine yields_bind (yields_mapM _ fun x _ => yields_fallbackSample pic .cb x) fun cb hcb => ?_
    refine yields_bind (yields_mapM _ fun x _ => yields_fallbackSample pic .cr x) fun cr hcr => ?_
    exact yields_pure (by rw [hy, hcb, hcr])
  | none =>
    refine yields_bind (yields_mapM _ fun x _ => yields_classOf x) fun classes hk => ?_
    subst hk
    refine yields_bind (P := (· = (List.range (stdRow c.output).width).map (directWeights c))) ?_ fun rows hrows => ?_
    · rw [List.mapM_map]
      exact yields_mapM _ fun x _ => yields_weights x _ rfl
    · subst hrows
      rw [evens_eq]
      refine yields_bind (yields_blendSamples .y _) fun y hy => ?_
      refine yields_bind (yields_blendSamples .cb _) fun cb hcb => ?_
      refine yields_bind (yields_blendSamples .cr _) fun cr hcr => ?_
      refine yields_pure ?_
      rw [hy, hcb, hcr, map_zipIdx_range]
      simp only [List.map_map, Function.comp_def]

theorem succeeds_computeOnce (h : readsClean c) (hE : E → c.ecc = []) : Succeeds E (computeOnce c) := by
  unfold computeOnce
  cases c.fallback with
  | some pic =>
    exact succeeds_bind (succeeds_mapM _ fun x => succeeds_fallbackSample h hE pic .y x) fun _ =>
      succeeds_bind (succeeds_mapM _ fun x => succeeds_fallbackSample h hE pic .cb x) fun _ =>
      succeeds_bind (succeeds_mapM _ fun x => succeeds_fallbackSample h hE pic .cr x) fun _ => succeeds_pure _
  | none =>
    exact succeeds_bind (succeeds_mapM _ fun x => succeeds_classOf h hE x) fun _ =>
      succeeds_bind (succeeds_mapM _ fun _ => succeeds_bind (succeeds_readRow h _ _) fun _ => succeeds_pure _) fun _ =>
      succeeds_bind (succeeds_mapM _ fun _ => succeeds_blendSample h hE _ .y _) fun _ =>
      succeeds_bind (succeeds_mapM _ fun _ => succeeds_blendSample h hE _ .cb _) fun _ =>
      succeeds_bind (succeeds_mapM _ fun _ => succeeds_blendSample h hE _ .cr _) fun _ => succeeds_pure _

/-- The computation of a line none of whose reads fails (R72 to R78, R86 to R97). -/
theorem computeOnce_direct {cs : List SlotIx} {bs : List BlockMeasure} {line : EmittedLine} {tr : Trace}
    (hb : blocksRight c bs) (h : (computeOnce c).run ⟨cs, bs⟩ = (.ok line, tr)) :
    line = directLine c ∧ blocksRight c tr.blocks :=
  yields_computeOnce ⟨cs, bs⟩ line tr hb h

theorem computeOnce_clean (h : readsClean c) (cs : List SlotIx) {bs : List BlockMeasure} (hb : blocksRight c bs) :
    ∃ tr : Trace, (computeOnce c).run ⟨cs, bs⟩ = (.ok (directLine c), tr) ∧ (c.ecc = [] → tr.corrected = cs) := by
  obtain ⟨line, tr, hrun, hcs⟩ := succeeds_computeOnce (E := c.ecc = []) h id ⟨cs, bs⟩
  obtain ⟨rfl, _⟩ := computeOnce_direct hb hrun
  exact ⟨tr, hrun, hcs⟩

end Line

/-! ### The range of the samples -/

section Range
variable {c : LineCtx}

theorem yields_any {α : Type} (m : Rd α) : Yields (fun _ => True) m (fun _ => True) := fun _ _ _ _ _ => ⟨trivial, trivial⟩

theorem blendOut_inRange (sum : Int) : inEmittedRange (blendOut sum) := by
  unfold blendOut clampInt inEmittedRange
  split
  · decide
  · split
    · decide
    · omega

/-- The samples of one component, each a blend, lie in the range. -/
theorem yields_samples {α : Type} {f : α → Rd Nat} (hf : ∀ x, Yields (fun _ => True) (f x) inEmittedRange)
    (xs : List α) : Yields (fun _ => True) (xs.mapM f) (fun vs => ∀ v ∈ vs, inEmittedRange v) :=
  yields_mapM_all xs fun x _ => hf x

theorem yields_blend_range (w : Weights) (comp : Component) (x : Nat) :
    Yields (fun _ => True) (blendSample c w comp x) inEmittedRange :=
  yields_bind (yields_any _) fun _ _ => yields_pure (blendOut_inRange _)

theorem yields_blends_range (comp : Component) (ws : List (Weights × Nat)) :
    Yields (fun _ => True) (ws.mapM (fun wx => blendSample c wx.1 comp wx.2)) (fun vs => ∀ v ∈ vs, inEmittedRange v) :=
  yields_mapM_all ws fun wx _ => yields_blend_range wx.1 comp wx.2

theorem yields_fallback_range (pic : Picture) (comp : Component) (x : Nat) :
    Yields (fun _ => True) (fallbackSample c pic comp x) inEmittedRange :=
  yields_bind (yields_any _) fun _ _ => yields_pure (blendOut_inRange _)

/-- Whatever the reads, a line that is computed is the line asked for and in range (R78). -/
theorem yields_line_range : Yields (fun _ => True) (computeOnce c) (fun l => l.number = c.line ∧ lineInRange l) := by
  unfold computeOnce
  cases c.fallback with
  | some pic =>
    exact yields_bind (yields_samples (yields_fallback_range pic .y) _) fun y hy =>
      yields_bind (yields_samples (yields_fallback_range pic .cb) _) fun cb hcb =>
      yields_bind (yields_samples (yields_fallback_range pic .cr) _) fun cr hcr => yields_pure ⟨rfl, hy, hcb, hcr⟩
  | none =>
    exact yields_bind (yields_any _) fun _ _ => yields_bind (yields_any _) fun _ _ =>
      yields_bind (yields_blends_range .y _) fun y hy =>
      yields_bind (yields_blends_range .cb _) fun cb hcb =>
      yields_bind (yields_blends_range .cr _) fun cr hcr =>
        yields_pure ⟨rfl, hy, hcb, hcr⟩

end Range

/-! ### The numbers of the formulas -/

theorem blendOut_floor (sum : Int) :
    ∃ r : Int, 1024 * r ≤ sum + 512 ∧ sum + 512 < 1024 * (r + 1) ∧ (blendOut sum : Int) = max 4 (min r 1019) := by
  refine ⟨(sum + 512) / 1024, by omega, by omega, ?_⟩
  unfold blendOut clampInt
  split
  · omega
  · split <;> omega

theorem spatialOut_floor (sum : Int) :
    ∃ r : Int, 65536 * r ≤ sum + 32768 ∧ sum + 32768 < 65536 * (r + 1) ∧ spatialOut sum = max 0 (min r 1023) := by
  refine ⟨(sum + 32768) / 65536, by omega, by omega, ?_⟩
  unfold spatialOut clampInt
  split
  · omega
  · split <;> omega

theorem motionClass_cases {th1 th2 th3 d : Nat} (h12 : th1 ≤ th2) (h23 : th2 ≤ th3) :
    (d < th1 → motionClass th1 th2 th3 d = 0) ∧ (th1 ≤ d → d < th2 → motionClass th1 th2 th3 d = 1)
      ∧ (th2 ≤ d → d < th3 → motionClass th1 th2 th3 d = 2) ∧ (th3 ≤ d → motionClass th1 th2 th3 d = 3) := by
  unfold motionClass
  split
  · omega
  · split
    · omega
    · split <;> omega

/-- The sixteen positions of one block in one direction that lie within the raster. -/
theorem mem_blockRun {k size x : Nat} :
    x ∈ ((List.range 16).map (fun i => 16 * k + i)).filter (fun r => decide (r < size)) ↔
      16 * k ≤ x ∧ x < 16 * k + 16 ∧ x < size := by
  simp only [List.mem_filter, List.mem_map, List.mem_range, decide_eq_true_eq]
  constructor
  · rintro ⟨⟨i, hi, rfl⟩, hx⟩; omega
  · rintro ⟨h1, h2, h3⟩; exact ⟨⟨x - 16 * k, by omega, by omega⟩, h3⟩

theorem blockRun_nodup (k size : Nat) :
    (((List.range 16).map (fun i => 16 * k + i)).filter (fun r => decide (r < size))).Nodup :=
  (List.nodup_range.map fun _ _ h => by simpa using h).filter _

theorem blockSamples_eq (d : Std) (col row : Nat) : blockSamples d col row =
    (((List.range 16).map (fun k => 16 * row + k)).filter (fun r => decide (r < linesPerPicture d))) ×ˢ
      (((List.range 16).map (fun k => 16 * col + k)).filter (fun i => decide (i < (stdRow d).width))) := rfl

theorem blockSamples_spec (d : Std) (col row : Nat) : (blockSamples d col row).Nodup
    ∧ ∀ r i : Nat, (r, i) ∈ blockSamples d col row ↔
      16 * row ≤ r ∧ r < 16 * row + 16 ∧ r < linesPerPicture d
        ∧ 16 * col ≤ i ∧ i < 16 * col + 16 ∧ i < (stdRow d).width := by
  rw [blockSamples_eq]
  refine ⟨(blockRun_nodup _ _).product (blockRun_nodup _ _), fun r i => ?_⟩
  rw [List.mem_product, mem_blockRun, mem_blockRun]
  tauto

theorem sixteenths_floor {x ws wo : Nat} (h : 0 < wo) :
    2 * (wo : Int) * sixteenths x ws wo ≤ 16 * (2 * (x : Int) + 1) * (ws : Int) - 16 * (wo : Int)
      ∧ 16 * (2 * (x : Int) + 1) * (ws : Int) - 16 * (wo : Int) < 2 * (wo : Int) * (sixteenths x ws wo + 1) := by
  have hpos : (0 : Int) < 2 * wo := by omega
  refine ⟨Int.mul_ediv_self_le hpos.ne', ?_⟩
  calc _ < 2 * (wo : Int) * sixteenths x ws wo + 2 * (wo : Int) := Int.lt_mul_ediv_self_add hpos
    _ = _ := (mul_add_one _ _).symm

theorem fieldSixteenths_floor (v : Int) (p : Parity) :
    2 * fieldSixteenths v p ≤ v - 16 * parityNumber p ∧ v - 16 * parityNumber p < 2 * (fieldSixteenths v p + 1) := by
  unfold fieldSixteenths
  omega

theorem part_phase (u : Int) : 16 * wholePart u + (phasePart u : Int) = u ∧ phasePart u < 16 := by
  unfold phasePart wholePart
  omega

theorem clampInt_position {w : Nat} (i : Int) (h : 0 < w) : clampInt 0 ((w : Int) - 1) i = max 0 (min i ((w : Int) - 1)) := by
  unfold clampInt
  split
  · omega
  · split <;> omega

end Sys2Proof.Machine.Readings
end

section
/-! SUPPORT. The emission of a line: which reads can fail, that the computation ends, and what it leaves in the part
(R54, R55, R79, R80, R97). -/

namespace Sys2Proof.Machine.Emission

open Frames Keeping LaneEnds FaultValues Readings

/-! ### Which reads can fail -/

section Rules
variable {α β : Type} {P : Halt → Prop}

/-- Where a computation is cut short, it is for a reason in `P`. -/
def FailsBy (P : Halt → Prop) (m : Rd α) : Prop := ∀ (t : Trace) (e : Halt) (t' : Trace), m.run t = (.error e, t') → P e

theorem failsBy_pure (a : α) : FailsBy P (pure a) := fun _ _ _ h => nomatch h

theorem failsBy_bind {m : Rd α} {f : α → Rd β} (hm : FailsBy P m) (hf : ∀ a, FailsBy P (f a)) : FailsBy P (m >>= f) := by
  intro t e t' h
  cases hr : m.run t with
  | mk r u =>
    cases r with
    | ok a => exact hf a u e t' ((run_bind_ok hr).symm.trans h)
    | error e' =>
      cases (run_bind_error (f := f) hr).symm.trans h
      exact hm t e _ hr

theorem failsBy_mapM {f : α → Rd β} : ∀ xs : List α, (∀ x ∈ xs, FailsBy P (f x)) → FailsBy P (xs.mapM f)
  | [], _ => by rw [List.mapM_nil]; exact failsBy_pure _
  | x :: xs, h => by
    rw [List.mapM_cons]
    exact failsBy_bind (h x (by simp)) fun _ => failsBy_bind (failsBy_mapM xs fun y hy => h y (by simp [hy])) fun _ =>
      failsBy_pure _

end Rules

section Line
variable {c : LineCtx}

/-- The pictures that the computation of a line may read. -/
def Reads (c : LineCtx) (pic : Picture) : Prop :=
  c.fallback = some pic ∨ c.tm1 = some pic ∨ c.t0 = some pic ∨ c.t1 = some pic ∨ c.t2 = some pic
    ∨ ∃ a b, c.motion = some (a, b) ∧ (pic = a ∨ pic = b)

/-- A sample that could not be corrected belongs to a picture of the line. -/
def OwnRead (c : LineCtx) (e : Halt) : Prop := ∀ s k, e = .badSample s k → ∃ pic, Reads c pic ∧ pic.src = s ∧ pic.slot = k

theorem failsBy_readSample {pic : Picture} (h : Reads c pic) (comp : Component) (l i : Nat) :
    FailsBy (OwnRead c) (readSample c pic comp l i) := by
  intro t e t' hrun s k he
  subst he
  cases hcell : cellsGet (sampleAddress pic.slot comp l i) c.ecc with
  | none => rw [readSample_sound hcell] at hrun; exact nomatch hrun
  | some f =>
    cases f with
    | uncorrectable => rw [readSample_lost hcell] at hrun; cases hrun; exact ⟨pic, h, rfl, rfl⟩
    | correctable => exact nomatch (readSample_corrected hcell t).symm.trans hrun

theorem failsBy_readRow (t : Table) (row : Nat) : FailsBy (OwnRead c) (readRow c t row) := by
  rw [readRow_eq]
  split
  · exact failsBy_pure _
  · intro u e u' h
    cases h
    exact fun _ _ he => nomatch he

theorem failsBy_spatialValue {pic : Picture} (h : Reads c pic) (comp : Component) (x : Nat) :
    FailsBy (OwnRead c) (spatialValue c pic comp x) :=
  failsBy_bind (failsBy_readRow _ _) fun _ => failsBy_bind (failsBy_readRow _ _) fun _ =>
    failsBy_bind (failsBy_mapM _ fun _ _ => failsBy_bind (failsBy_readSample h comp _ _) fun _ => failsBy_pure _) fun _ =>
      failsBy_pure _

theorem failsBy_classOf (x : Nat) : FailsBy (OwnRead c) (classOf c x) := by
  unfold classOf
  cases hm : c.motion with
  | none => exact failsBy_pure _
  | some ab =>
    have ha : Reads c ab.1 := .inr (.inr (.inr (.inr (.inr ⟨ab.1, ab.2, hm, .inl rfl⟩))))
    have hb : Reads c ab.2 := .inr (.inr (.inr (.inr (.inr ⟨ab.1, ab.2, hm, .inr rfl⟩))))
    refine failsBy_bind (fun _ _ _ h => nomatch h) fun t => ?_
    split
    · exact failsBy_pure _
    · refine failsBy_bind ?_ fun d => failsBy_bind (fun _ _ _ h => nomatch h) fun _ => failsBy_pure _
      exact failsBy_bind (failsBy_mapM _ fun _ _ => failsBy_bind (failsBy_readSample ha _ _ _) fun _ =>
        failsBy_bind (failsBy_readSample hb _ _ _) fun _ => failsBy_pure _) fun _ => failsBy_pure _

theorem failsBy_blendSample (w : Weights) (comp : Component) (x : Nat) :
    FailsBy (OwnRead c) (blendSample c w comp x) := by
  refine failsBy_bind (failsBy_mapM _ fun wp hwp => ?_) fun _ => failsBy_pure _
  obtain ⟨wt, pic⟩ := wp
  cases pic with
  | none => exact failsBy_pure _
  | some k =>
    have hk : Reads c k := by
      simp only [List.mem_cons, Prod.mk.injEq, List.not_mem_nil, or_false] at hwp
      unfold Reads
      tauto
    dsimp only
    split
    · exact failsBy_pure _
    · exact failsBy_bind (failsBy_spatialValue hk comp x) fun _ => failsBy_pure _

theorem failsBy_blends (comp : Component) (ws : List (Weights × Nat)) :
    FailsBy (OwnRead c) (ws.mapM (fun wx => blendSample c wx.1 comp wx.2)) :=
  failsBy_mapM ws fun wx _ => failsBy_blendSample wx.1 comp wx.2

theorem failsBy_fallbacks {pic : Picture} (h : Reads c pic) (comp : Component) (xs : List Nat) :
    FailsBy (OwnRead c) (xs.mapM (fallbackSample c pic comp)) :=
  failsBy_mapM xs fun x _ => failsBy_bind (failsBy_spatialValue h comp x) fun _ => failsBy_pure _

theorem failsBy_computeOnce : FailsBy (OwnRead c) (computeOnce c) := by
  unfold computeOnce
  cases h : c.fallback with
  | some pic =>
    have hr : Reads c pic := .inl h
    exact failsBy_bind (failsBy_fallbacks hr .y _) fun _ => failsBy_bind (failsBy_fallbacks hr .cb _) fun _ =>
      failsBy_bind (failsBy_fallbacks hr .cr _) fun _ => failsBy_pure _
  | none =>
    exact failsBy_bind (failsBy_mapM _ fun x _ => failsBy_classOf x) fun _ =>
      failsBy_bind (failsBy_mapM _ fun _ _ => failsBy_bind (failsBy_readRow _ _) fun _ => failsBy_pure _) fun _ =>
      failsBy_bind (failsBy_blends .y _) fun _ => failsBy_bind (failsBy_blends .cb _) fun _ =>
      failsBy_bind (failsBy_blends .cr _) fun _ => failsBy_pure _

end Line

/-! ### What the report of a read leaves -/

section Reports
variable {p : Part} {n m : Ix} {l : Nat}

/-- The lane with the blocks that a trace has measured. -/
def measured (bs : List BlockMeasure) (x : Lane) : Lane := { x with job := { x.job with blocks := bs } }

/-- The lane with a source marked POISONED from a line, and counted (R80). -/
def poisoned (s : Src) (l : Nat) (x : Lane) : Lane :=
  { x with job := poisonJob x.profile.input s l x.job, jobCtr := { x.jobCtr with poisonedTaps := bump x.jobCtr.poisonedTaps } }

theorem StoreBlind.applyTrace {β : Type} {g : Part → β} (h : StoreBlind g) (hl : ∀ f p, g (modLane n f p) = g p) (t : Trace) :
    g (applyTrace n t p) = g p := by
  unfold Machine.applyTrace
  rw [hl]
  exact forAll_keeps g _ (fun k q => h.correctedRead k) _ _

theorem applyTrace_lanes (t : Trace) : (applyTrace n t p).lanes = p.lanes.modify n (measured t.blocks) := by
  unfold Machine.applyTrace
  rw [modLane_lanes, forAll_keeps (fun q => q.lanes) _ (fun k q => storeBlind_lanes.correctedRead k)]
  rfl

theorem markPoisoned_lanes (s : Src) : (markPoisoned n s l p).lanes = p.lanes.modify n (poisoned s l) := by
  unfold Machine.markPoisoned bumpJob
  rw [modLane_lanes, modLane_lanes, Four.modify_modify]
  rfl

/-- The part after a read that failed: reported, and its tap or fallback lost (R55, R80). -/
def lostRead (n : Ix) (l : Nat) (s : Src) (k : SlotIx) (t : Trace) (p : Part) : Part :=
  p |> applyTrace n t |> uncorrectableRead k |> markPoisoned n s l

theorem lostRead_lanes (s : Src) (k : SlotIx) (t : Trace) :
    (lostRead n l s k t p).lanes = p.lanes.modify n (fun x => poisoned s l (measured t.blocks x)) := by
  unfold lostRead
  rw [markPoisoned_lanes, storeBlind_lanes.uncorrectableRead, applyTrace_lanes, Four.modify_modify]

theorem computeLine_hidden {fuel : Nat} (h : jobShows (p.lanes.get n).job = false) : computeLine n l (fuel + 1) p = (p, none) := by
  rw [computeLine, if_neg (by rw [h]; decide)]

theorem computeLine_ok {fuel : Nat} {line : EmittedLine} {t : Trace} (h : jobShows (p.lanes.get n).job = true)
    (hrun : (computeOnce (lineCtx p n l)).run ⟨[], (p.lanes.get n).job.blocks⟩ = (.ok line, t)) :
    computeLine n l (fuel + 1) p = (applyTrace n t p, some line) := by
  rw [computeLine, if_pos h, hrun]

theorem computeLine_badSample {fuel : Nat} {s : Src} {k : SlotIx} {t : Trace} (h : jobShows (p.lanes.get n).job = true)
    (hrun : (computeOnce (lineCtx p n l)).run ⟨[], (p.lanes.get n).job.blocks⟩ = (.error (.badSample s k), t)) :
    computeLine n l (fuel + 1) p = computeLine n l fuel (lostRead n l s k t p) := by
  rw [computeLine, if_pos h, hrun]
  rfl

theorem computeLine_badRow {fuel : Nat} {tab : Table} {row : Nat} {t : Trace} (h : jobShows (p.lanes.get n).job = true)
    (hrun : (computeOnce (lineCtx p n l)).run ⟨[], (p.lanes.get n).job.blocks⟩ = (.error (.badRow tab row), t)) :
    computeLine n l (fuel + 1) p =
      (laneFatal n (report (.ll n) (parityCode tab) (.row row) (applyTrace n t p)), none) := by
  rw [computeLine, if_pos h, hrun]

/-- What holds of the part and the line of each way in which the computation ends holds of the computation. -/
theorem computeLine_ends {Q : Part → Part × Option EmittedLine → Prop} (hstop : ∀ p, Q p (p, none))
    (hok : ∀ (p : Part) (line : EmittedLine) (t : Trace),
      (computeOnce (lineCtx p n l)).run ⟨[], (p.lanes.get n).job.blocks⟩ = (.ok line, t) → Q p (applyTrace n t p, some line))
    (hsample : ∀ (p : Part) (s : Src) (k : SlotIx) (t : Trace) (r : Part × Option EmittedLine),
      Q (lostRead n l s k t p) r → Q p r)
    (hrow : ∀ (p : Part) (tab : Table) (row : Nat) (t : Trace),
      Q p (laneFatal n (report (.ll n) (parityCode tab) (.row row) (applyTrace n t p)), none)) (fuel : Nat) (p : Part) :
    Q p (computeLine n l fuel p) := by
  induction fuel generalizing p with
  | zero => exact hstop p
  | succ fuel ih =>
    cases hs : jobShows (p.lanes.get n).job with
    | false => rw [computeLine_hidden hs]; exact hstop p
    | true =>
      cases hrun : (computeOnce (lineCtx p n l)).run ⟨[], (p.lanes.get n).job.blocks⟩ with
      | mk r t =>
        cases r with
        | ok line => rw [computeLine_ok hs hrun]; exact hok p line t hrun
        | error e =>
          cases e with
          | badSample s k => rw [computeLine_badSample hs hrun]; exact hsample p s k t _ (ih _)
          | badRow tab row => rw [computeLine_badRow hs hrun]; exact hrow p tab row t

end Reports

/-! ### The computation ends -/

section Fuel
variable {p : Part} {n : Ix} {l : Nat}

/-- A source of the job still gives a picture. -/
def srcShown (j : JobRec) : Src → Bool
  | .tm1 => (tapPicture .tm1 j.tm1).isSome
  | .t0 => (tapPicture .t0 j.t0).isSome
  | .t1 => (tapPicture .t1 j.t1).isSome
  | .t2 => (tapPicture .t2 j.t2).isSome
  | .fallback => (fallbackPicture j.fallback).isSome

/-- How many of a job's five sources still give a picture. -/
def shownCount (j : JobRec) : Nat := [Src.tm1, .t0, .t1, .t2, .fallback].countP (srcShown j)

theorem shownCount_le (j : JobRec) : shownCount j ≤ 5 := List.countP_le_length

theorem tapPicture_src {s : Src} {t : Tap} {pic : Picture} (h : tapPicture s t = some pic) : pic.src = s := by
  unfold tapPicture at h
  split at h
  · obtain ⟨e, _, h⟩ := Option.bind_eq_some_iff.1 h
    obtain ⟨k, _, rfl⟩ := Option.map_eq_some_iff.1 h
    rfl
  · exact nomatch h

theorem fallbackPicture_src {f : Option Fallback} {pic : Picture} (h : fallbackPicture f = some pic) : pic.src = .fallback := by
  obtain ⟨f, _, h⟩ := Option.bind_eq_some_iff.1 h
  split at h
  · exact nomatch h
  · obtain ⟨k, _, rfl⟩ := Option.map_eq_some_iff.1 h
    rfl

theorem compared_shown {input : Std} {j : JobRec} {a b : Picture} (h : comparedPictures input j = some (a, b)) :
    srcShown j a.src = true ∧ srcShown j b.src = true := by
  unfold comparedPictures at h
  split at h
  · split at h
    · split at h
      next ha hb =>
        cases h
        rw [tapPicture_src ha, tapPicture_src hb]
        exact ⟨by simp [srcShown, ha], by simp [srcShown, hb]⟩
      next => exact nomatch h
    · split at h
      next ha hb =>
        cases h
        rw [tapPicture_src ha, tapPicture_src hb]
        exact ⟨by simp [srcShown, ha], by simp [srcShown, hb]⟩
      next => exact nomatch h
  · exact nomatch h

/-- A picture that a line reads is one that its job still gives. -/
theorem reads_shown {pic : Picture} (h : Reads (lineCtx p n l) pic) : srcShown (p.lanes.get n).job pic.src = true := by
  have tap {s : Src} {t : Tap} (h : tapPicture s t = some pic) : pic.src = s ∧ (tapPicture s t).isSome = true :=
    ⟨tapPicture_src h, by rw [h]; rfl⟩
  rcases h with h | h | h | h | h | ⟨a, b, h, hp⟩
  · rw [fallbackPicture_src h]
    exact Option.isSome_iff_exists.2 ⟨_, h⟩
  · rw [(tap h).1]; exact (tap h).2
  · rw [(tap h).1]; exact (tap h).2
  · rw [(tap h).1]; exact (tap h).2
  · rw [(tap h).1]; exact (tap h).2
  · obtain ⟨ha, hb⟩ := compared_shown h
    rcases hp with rfl | rfl
    · exact ha
    · exact hb

theorem tapPicture_poisoned (s : Src) (l : Nat) (t : Tap) : tapPicture s (poisonTap l t) = none := rfl

theorem fallbackPicture_poisoned (l : Nat) (f : Option Fallback) :
    fallbackPicture (f.map (fun f => { f with poisonedFrom := some l })) = none := by
  cases f <;> rfl

theorem srcShown_poisoned (input : Std) (s r : Src) (l : Nat) (j : JobRec) :
    srcShown (poisonJob input s l j) r = (srcShown j r && decide (r ≠ s)) := by
  cases s <;> cases r <;>
    simp [srcShown, poisonJob, tapPicture_poisoned, fallbackPicture_poisoned]

theorem shownCount_poisoned (input : Std) (s : Src) (l : Nat) (j : JobRec) (h : srcShown j s = true) :
    shownCount (poisonJob input s l j) < shownCount j := by
  unfold shownCount
  cases s <;> simp [List.countP_cons, srcShown_poisoned, h]

/-- With fuel for every source still shown the computation ends of itself. -/
theorem computeLine_fuel : ∀ (f g : Nat) (p : Part), shownCount (p.lanes.get n).job < f → shownCount (p.lanes.get n).job < g →
    computeLine n l f p = computeLine n l g p
  | 0, _, _, hf, _ => absurd hf (Nat.not_lt_zero _)
  | _, 0, _, _, hg => absurd hg (Nat.not_lt_zero _)
  | f + 1, g + 1, p, hf, hg => by
    cases hs : jobShows (p.lanes.get n).job with
    | false => rw [computeLine_hidden hs, computeLine_hidden hs]
    | true =>
      cases hrun : (computeOnce (lineCtx p n l)).run ⟨[], (p.lanes.get n).job.blocks⟩ with
      | mk r t =>
        cases r with
        | ok line => rw [computeLine_ok hs hrun, computeLine_ok hs hrun]
        | error e =>
          cases e with
          | badRow tab row => rw [computeLine_badRow hs hrun, computeLine_badRow hs hrun]
          | badSample s k =>
            rw [computeLine_badSample hs hrun, computeLine_badSample hs hrun]
            obtain ⟨pic, hpic, rfl, _⟩ := failsBy_computeOnce _ _ _ hrun s k rfl
            have hless : shownCount ((lostRead n l pic.src k t p).lanes.get n).job < shownCount (p.lanes.get n).job := by
              rw [lostRead_lanes, Four.get_modify_same]
              exact shownCount_poisoned _ _ _ _ (reads_shown hpic)
            exact computeLine_fuel f g _ (by omega) (by omega)

end Fuel

/-! ### What the computation leaves -/

section Kept
variable {p : Part} {n m : Ix} {l : Nat} {β : Type}

theorem storeBlind_post {g : OutUnit → β} (hg : PostBlind g) : StoreBlind (fun p => g (p.outs.get m)) :=
  ⟨fun _ _ => rfl, fun _ _ => rfl, fun c p => hg.mild (mild_latchSet c p)⟩

theorem lostRead_keeps {g : Part → β} (h : StoreBlind g) (hl : ∀ f p, g (modLane n f p) = g p) (s : Src) (k : SlotIx) (t : Trace) :
    g (lostRead n l s k t p) = g p := by
  unfold lostRead markPoisoned bumpJob
  rw [hl, hl, h.uncorrectableRead, StoreBlind.applyTrace h hl]

/-- What store, logs, latches and lane records do not show, and a lane going FATAL keeps, a computation keeps. -/
theorem computeLine_keeps {g : Part → β} (h : StoreBlind g) (hl : ∀ f p, g (modLane n f p) = g p)
    (hf : ∀ p, g (laneFatal n p) = g p) (fuel : Nat) (p : Part) : g (computeLine n l fuel p).1 = g p :=
  computeLine_ends (Q := fun p r => g r.1 = g p) (fun _ => rfl) (fun p _ t _ => StoreBlind.applyTrace h hl t)
    (fun p s k t r hr => hr.trans (lostRead_keeps h hl s k t))
    (fun p tab row t => by rw [hf, h.report, StoreBlind.applyTrace h hl]) fuel p

theorem computeLine_post {g : OutUnit → β} (hg : PostBlind g) (fuel : Nat) (p : Part) :
    g ((computeLine n l fuel p).1.outs.get m) = g (p.outs.get m) :=
  computeLine_keeps (g := fun p => g (p.outs.get m)) (storeBlind_post hg) (fun _ _ => rfl) (fun _ => hg.laneFatal) fuel p

theorem laneFatal_mute (n : Ix) (p : Part) : (laneFatal n p).mute = p.mute := by simp [laneFatal, clearPending]

theorem computeLine_mute (fuel : Nat) (p : Part) : (computeLine n l fuel p).1.mute = p.mute :=
  computeLine_keeps storeBlind_mute (fun _ _ => rfl) (laneFatal_mute n) fuel p

theorem computeLine_profile (fuel : Nat) (p : Part) :
    ((computeLine n l fuel p).1.lanes.get n).profile = (p.lanes.get n).profile := by
  refine computeLine_ends (Q := fun p r => (r.1.lanes.get n).profile = (p.lanes.get n).profile) (fun _ => rfl)
    (fun p _ t _ => ?_) (fun p s k t r hr => hr.trans ?_) (fun p tab row t => ?_) fuel p
  · rw [applyTrace_lanes, Four.get_modify_same]; rfl
  · rw [lostRead_lanes, Four.get_modify_same]; rfl
  · rw [laneFatal_lanes, Four.get_modify_same, fatalled_source, storeBlind_lanes.report, applyTrace_lanes, Four.get_modify_same]; rfl

/-- A line that is computed is the line asked for, in range (R78, R97). -/
theorem computeLine_line (fuel : Nat) (p : Part) {line : EmittedLine} (h : (computeLine n l fuel p).2 = some line) :
    line.number = l ∧ lineInRange line := by
  refine computeLine_ends (Q := fun _ r => ∀ line, r.2 = some line → line.number = l ∧ lineInRange line)
    (fun _ _ h => nomatch h) (fun p line t hrun line' he => ?_) (fun _ _ _ _ _ h => h) (fun _ _ _ _ _ h => nomatch h) fuel p line h
  cases he
  exact (yields_line_range _ _ _ trivial hrun).1

end Kept

/-! ### The line emitted -/

section Emit
variable {p : Part} {n : Ix}

/-- What the lane gives for the next line: the part after the computation, and the line if there is one (R97). -/
def lineResult (n : Ix) (p : Part) : Part × Option EmittedLine :=
  if (p.lanes.get n).job.inFlight then computeLine n (p.outs.get n).lineNext 6 p else (p, none)

theorem emitLine_eq (h : (p.outs.get n).lineNext < linesPerPicture (p.outs.get n).standard) :
    emitLine n p = modOut n (fun o => { o with
      lineNext := (p.outs.get n).lineNext + 1
      lineOut := some (emitted (lineResult n p).1 n (p.outs.get n).lineNext (lineResult n p).2) }) (lineResult n p).1 := by
  unfold emitLine
  exact if_pos h

theorem lineResult_idle (h : (p.lanes.get n).job.inFlight = false ∨ jobShows (p.lanes.get n).job = false) :
    lineResult n p = (p, none) := by
  unfold lineResult
  split
  next hf => exact computeLine_hidden (h.resolve_left fun e => by rw [e] at hf; exact nomatch hf)
  next => rfl

theorem lineResult_keeps {β : Type} {g : OutUnit → β} (hg : PostBlind g) :
    g ((lineResult n p).1.outs.get n) = g (p.outs.get n) := by
  unfold lineResult
  split
  · exact computeLine_post hg 6 p
  · rfl

theorem lineResult_mute : (lineResult n p).1.mute = p.mute := by
  unfold lineResult
  split
  · exact computeLine_mute 6 p
  · rfl

theorem lineResult_profile : ((lineResult n p).1.lanes.get n).profile = (p.lanes.get n).profile := by
  unfold lineResult
  split
  · exact computeLine_profile 6 p
  · rfl

theorem lineResult_line {line : EmittedLine} (h : (lineResult n p).2 = some line) :
    line.number = (p.outs.get n).lineNext ∧ lineInRange line := by
  unfold lineResult at h
  split at h
  · exact computeLine_line 6 p h
  · exact nomatch h

theorem flatLine_inRange {s : Std} {l y cb cr : Nat} (hy : inEmittedRange y) (hcb : inEmittedRange cb)
    (hcr : inEmittedRange cr) : lineInRange (flatLine s l y cb cr) :=
  ⟨fun _ h => List.eq_of_mem_replicate h ▸ hy, fun _ h => List.eq_of_mem_replicate h ▸ hcb,
   fun _ h => List.eq_of_mem_replicate h ▸ hcr⟩

theorem emitted_muted {l : Nat} {line : Option EmittedLine} (h : p.mute = true) : emitted p n l line = blackLine p n l := by
  rw [emitted, if_pos h]

theorem emitted_shown {l : Nat} {line : Option EmittedLine} (h : p.mute = false) :
    emitted p n l line = line.getD (slateLine p n l) := by
  rw [emitted, if_neg (by rw [h]; decide)]

/-- OUTPUT_LINE in a quiet state: the line leaves, and the step ends (R97). -/
theorem outputLine_next {env : Env} {s : State} (hq : quiet s) :
    exec (.outputLine env n) s = .next { s with part := settle (emitLine n (foundBy env s)) } := happens_quiet _ _ hq

theorem emitted_out {env : Env} {s : State} {q : Part} (hq : q = foundBy env s)
    (h : (s.part.outs.get n).lineNext < linesPerPicture (s.part.outs.get n).standard) :
    ((settle (emitLine n q)).outs.get n).lineNext = (s.part.outs.get n).lineNext + 1
      ∧ ((settle (emitLine n q)).outs.get n).lineOut =
        some (emitted (lineResult n q).1 n (s.part.outs.get n).lineNext (lineResult n q).2) := by
  have ho : q.outs = s.part.outs := by rw [hq, found_outs]
  have he := emitLine_eq (p := q) (n := n) (by rw [ho]; exact h)
  have next : PostBlind OutUnit.lineNext := fun _ _ _ _ => rfl
  have out : PostBlind OutUnit.lineOut := fun _ _ _ _ => rfl
  rw [next.settle, out.settle, he, modOut_outs, Four.get_modify_same, ho]
  exact ⟨rfl, rfl⟩

end Emit

end Sys2Proof.Machine.Emission
end

section
/-! Output lines in range, black and slate (O21): R66, R69, R73, R78 to R80, R97, R137. -/

namespace Sys2Proof.Machine.OutputLines

open Frames Keeping Emission

section Line
variable {s : State} {n : Ix} {env : Env}

theorem slateLine_inRange {p : Part} {l : Nat} (hy : inEmittedRange (p.lanes.get n).profile.slateY)
    (hcb : inEmittedRange (p.lanes.get n).profile.slateCb) (hcr : inEmittedRange (p.lanes.get n).profile.slateCr) :
    lineInRange (slateLine p n l) := flatLine_inRange hy hcb hcr

theorem luma64_inRange : inEmittedRange 64 := ⟨by decide, by decide⟩
theorem chroma512_inRange : inEmittedRange 512 := ⟨by decide, by decide⟩

/-- Black, slate or computed: what is emitted is the line asked for, in range (R78, R79, R137). -/
theorem emitted_inRange {q : Part} (hy : inEmittedRange (q.lanes.get n).profile.slateY)
    (hcb : inEmittedRange (q.lanes.get n).profile.slateCb) (hcr : inEmittedRange (q.lanes.get n).profile.slateCr) :
    (emitted (lineResult n q).1 n (q.outs.get n).lineNext (lineResult n q).2).number = (q.outs.get n).lineNext
      ∧ lineInRange (emitted (lineResult n q).1 n (q.outs.get n).lineNext (lineResult n q).2) := by
  have hslate : lineInRange (slateLine (lineResult n q).1 n (q.outs.get n).lineNext) := by
    refine slateLine_inRange ?_ ?_ ?_ <;> rwa [lineResult_profile]
  cases hm : (lineResult n q).1.mute with
  | true => rw [emitted_muted hm]; exact ⟨rfl, flatLine_inRange luma64_inRange chroma512_inRange chroma512_inRange⟩
  | false =>
    rw [emitted_shown hm]
    cases hl : (lineResult n q).2 with
    | none => exact ⟨rfl, hslate⟩
    | some line => exact lineResult_line hl

theorem found_profile : ((foundBy env s).lanes.get n).profile = (s.part.lanes.get n).profile :=
  found_lane env s (fun l => l.profile) n (fun _ _ => rfl) (fun _ _ => rfl)

theorem found_job : ((foundBy env s).lanes.get n).job = (s.part.lanes.get n).job :=
  found_lane env s (fun l => l.job) n (fun _ _ => rfl) (fun _ _ => rfl)

theorem emits_black (h : s.part.mute = true) (l : Nat) :
    emitted (lineResult n (foundBy env s)).1 n l (lineResult n (foundBy env s)).2 =
      flatLine (s.part.outs.get n).standard l 64 512 512 := by
  rw [emitted_muted (by rw [lineResult_mute, found_mute, h]), blackLine,
    lineResult_keeps (g := OutUnit.standard) (fun _ _ _ _ => rfl), found_outs]

/-- Without a job that shows something the slate line leaves and nothing else happens (R79). -/
theorem emits_slate (hq : quiet s) (hl : (s.part.outs.get n).lineNext < linesPerPicture (s.part.outs.get n).standard)
    (hm : s.part.mute = false) (h : (s.part.lanes.get n).job.inFlight = false ∨ jobShows (s.part.lanes.get n).job = false) :
    exec (.outputLine env n) s = .next { s with part := { foundBy env s with outs := s.part.outs.modify n (fun o =>
      { o with
        lineNext := o.lineNext + 1
        lineOut := some (flatLine o.standard o.lineNext (s.part.lanes.get n).profile.slateY
          (s.part.lanes.get n).profile.slateCb (s.part.lanes.get n).profile.slateCr) }) } } := by
  have hr : lineResult n (foundBy env s) = (foundBy env s, none) := lineResult_idle (by rwa [found_job])
  have ho : (foundBy env s).outs = s.part.outs := found_outs env s
  rw [outputLine_next hq, emitLine_eq (by rw [ho]; exact hl), hr, settle_quiet (by rw [modOut]; exact (found_fault env s) ▸ hq.1)]
  rw [emitted_shown (by rw [found_mute, hm])]
  have he : modOut n (fun o => { o with
      lineNext := ((foundBy env s).outs.get n).lineNext + 1
      lineOut := some (slateLine (foundBy env s) n ((foundBy env s).outs.get n).lineNext) }) (foundBy env s) =
      { foundBy env s with outs := s.part.outs.modify n (fun o =>
        { o with
          lineNext := o.lineNext + 1
          lineOut := some (flatLine o.standard o.lineNext (s.part.lanes.get n).profile.slateY
            (s.part.lanes.get n).profile.slateCb (s.part.lanes.get n).profile.slateCr) }) } := by
    rw [modOut, ho, slateLine, found_profile, ho]
    rfl
  exact congrArg (fun p => Host.Outcome.next { s with part := p }) he

end Line

/-- A job shows something where a tap is PRESENT, or a fallback picture is not POISONED (R79, R80). -/
theorem jobShows_iff (j : JobRec) : jobShows j = true ↔
    (j.tm1.state = .present ∨ j.t0.state = .present ∨ j.t1.state = .present ∨ j.t2.state = .present
      ∨ ∃ (f : Fallback) (k : SlotIx) (a : Int),
        j.fallback = some f ∧ f.poisonedFrom = none ∧ f.entry.kind = .picture k a) := by
  have htap (t : Tap) : t.isPresent = true ↔ t.state = .present := by
    unfold Tap.isPresent; cases t.state <;> simp
  have hfall : (fallbackPicture j.fallback).isSome = true ↔ ∃ (f : Fallback) (k : SlotIx) (a : Int),
      j.fallback = some f ∧ f.poisonedFrom = none ∧ f.entry.kind = .picture k a := by
    cases hj : j.fallback with
    | none => simp [fallbackPicture]
    | some f =>
      cases hp : f.poisonedFrom <;> cases hk : f.entry.kind <;> simp [fallbackPicture, entrySlot, hp, hk]
  simp only [jobShows, jobPresence, Presence.some, Bool.or_eq_true, htap, hfall, or_assoc]

/-- Settles O21. -/
theorem emittedSamplesInRange : Obligations.EmittedSamplesInRange := by
  unfold Obligations.EmittedSamplesInRange
  refine ⟨?_, ?_, jobShows_iff⟩
  · intro env n s hq hl hy hcb hcr
    obtain ⟨hnext, hout⟩ := emitted_out (env := env) rfl hl
    have hr := emitted_inRange (n := n) (q := foundBy env s) (by rwa [found_profile]) (by rwa [found_profile])
      (by rwa [found_profile])
    rw [found_outs] at hr
    exact ⟨_, _, outputLine_next hq, hout, hr.1, hnext, hr.2⟩
  · rintro env n s o hq rfl hl
    refine ⟨fun hm => ?_, ?_⟩
    · obtain ⟨hnext, hout⟩ := emitted_out (env := env) rfl hl
      exact ⟨_, outputLine_next hq, hnext, by rw [hout, emits_black hm]; rfl⟩
    · rintro pr hm rfl h
      exact emits_slate hq hl hm h

end Sys2Proof.Machine.OutputLines
end

section
/-! Output lines from the taps of their job, corrected reads, and the line computed anew when a tap is lost (O36):
R54, R55, R72 to R80, R87 to R97. -/

namespace Sys2Proof.Machine.LineReads

open Frames Keeping SlotsLaw LaneEnds FaultValues Readings Emission OutputLines

/-! ### Corrected reads -/

section Corrected
variable {p : Part} {k : SlotIx} {m : Ix}

/-- The feed logs after a report about a slot to the log of its owner. -/
def ownerLogged (code : ErrCode) (owner : Option Ix) (t : Nat) (k : SlotIx) (logs : Four (Option LogRec)) : Four (Option LogRec) :=
  match owner with
  | some n => logs.modify n (logReport code t (.slot k.val))
  | none => logs

theorem ownerLogged_get (code : ErrCode) (owner : Option Ix) (t : Nat) (k : SlotIx) (logs : Four (Option LogRec)) :
    (ownerLogged code owner t k logs).get m =
      if owner = some m then logReport code t (.slot k.val) (logs.get m) else logs.get m := by
  cases owner with
  | none => rfl
  | some n =>
    rw [ownerLogged, Four.get_modify]
    by_cases h : m = n
    · rw [if_pos h, if_pos (by rw [h])]
    · rw [if_neg h, if_neg fun e => h (Option.some.inj e).symm]

theorem reportOwner_eq (code : ErrCode) : reportOwner k code p =
    modFault (fun u => { u with feedLogs := ownerLogged code (slotOf p k).owner p.timebase k u.feedLogs }) p := by
  unfold reportOwner
  cases (slotOf p k).owner <;> rfl

/-- A slot record after a read that needed correction. -/
def readCorrected (r : SlotRec) : SlotRec := { r with corrected := saturate 255 r.corrected }

theorem correctedRead_eq (h : (slotOf p k).intact = true) : correctedRead k p =
    { p with
      store := { p.store with
        slots := p.store.slots.set k.val { readCorrected (slotOf p k) with intact := true }
        ctr := { p.store.ctr with correctedReads := bump p.store.ctr.correctedReads } }
      fault := { p.fault with
        feedLogs := ownerLogged .memoryCorrected (slotOf p k).owner p.timebase k p.fault.feedLogs } } := by
  unfold correctedRead
  rw [if_pos h, reportOwner_eq]
  have ho : (slotOf (bumpStore (fun c => { c with correctedReads := bump c.correctedReads })
      (modSlot k (fun r => { r with corrected := saturate 255 r.corrected }) p)) k).owner = (slotOf p k).owner := by
    simp [slotOf, bumpStore, modSlot, modStore]
  rw [ho]
  rfl

theorem slotOf_correctedRead (h : (slotOf p k).intact = true) (j : SlotIx) :
    slotOf (correctedRead k p) j = if j = k then readCorrected (slotOf p k) else slotOf p j := by
  have hr : ({ readCorrected (slotOf p k) with intact := true } : SlotRec) = readCorrected (slotOf p k) := by
    simp [readCorrected, h]
  rw [correctedRead_eq h, hr]
  exact slotOf_set (p := p) rfl j

/-- What corrected reads leave: the counts of their slots, the counter, and the logs of the owners (R54). -/
theorem correctedReads_run : ∀ (ks : List SlotIx) (p : Part), (∀ k ∈ ks, (slotOf p k).intact = true) →
    ∃ (slots : Vector SlotRec 64) (logs : Four (Option LogRec)),
      forAll ks correctedRead p = { p with
        store := { p.store with
          slots := slots, ctr := { p.store.ctr with correctedReads := bump^[ks.length] p.store.ctr.correctedReads } }
        fault := { p.fault with feedLogs := logs } }
      ∧ (∀ k : SlotIx, slots[k.val] = { slotOf p k with corrected := (saturate 255)^[ks.count k] (slotOf p k).corrected })
      ∧ (∀ m : Ix, logs.get m = (ks.filter (fun k => decide ((slotOf p k).owner = some m))).foldl
          (fun r k => logReport .memoryCorrected p.timebase (.slot k.val) r) (p.fault.feedLogs.get m))
  | [], p, _ => ⟨p.store.slots, p.fault.feedLogs, rfl, fun _ => rfl, fun _ => rfl⟩
  | k :: ks, p, h => by
    have hk := h k (by simp)
    have hslot := slotOf_correctedRead hk
    have howner (j : SlotIx) : (slotOf (correctedRead k p) j).owner = (slotOf p j).owner := by
      rw [hslot]
      split_ifs with e
      · rw [e]; rfl
      · rfl
    obtain ⟨slots, logs, hrun, hs, hl⟩ := correctedReads_run ks (correctedRead k p) fun j hj => by
      rw [hslot]
      split_ifs
      · exact hk
      · exact h j (by simp [hj])
    refine ⟨slots, logs, ?_, fun j => ?_, fun m => ?_⟩
    · show forAll ks correctedRead (correctedRead k p) = _
      rw [hrun, correctedRead_eq hk]
      rfl
    · rw [hs, hslot, List.count_cons]
      by_cases e : j = k
      · subst e; simp [readCorrected]
      · simp [e, Ne.symm e]
    · rw [hl]
      simp only [howner]
      rw [correctedRead_eq hk]
      dsimp only
      rw [ownerLogged_get, List.filter_cons]
      by_cases e : (slotOf p k).owner = some m
      · simp [e]
      · simp [e]

end Corrected

/-! ### A read that could not be corrected -/

section Lost
variable {p : Part} {k : SlotIx} {n m : Ix} {l : Nat}

theorem poisoned_same {r : SlotRec} (hp : r.poisoned = true) (hi : r.intact = true) :
    { r with poisoned := true, intact := true } = r := by
  cases r; cases hp; cases hi; rfl

/-- The feed logs after a read that could not be corrected: the first one of its slot is reported (R55). -/
def lostLogged (k : SlotIx) (p : Part) : Four (Option LogRec) :=
  if (slotOf p k).poisoned then p.fault.feedLogs
  else ownerLogged .memoryUncorrectable (slotOf p k).owner p.timebase k p.fault.feedLogs

theorem uncorrectableRead_eq (h : (slotOf p k).intact = true) : uncorrectableRead k p =
    { p with
      store := { p.store with
        slots := p.store.slots.set k.val { slotOf p k with poisoned := true, intact := true }
        ctr := { p.store.ctr with uncorrectableReads := bump p.store.ctr.uncorrectableReads } }
      fault := { p.fault with feedLogs := lostLogged k p } } := by
  unfold uncorrectableRead lostLogged
  rw [if_pos h]
  dsimp only
  split_ifs with hp
  · have same : p.store.slots.set k.val { slotOf p k with poisoned := true, intact := true } = p.store.slots := by
      have e : ({ slotOf p k with poisoned := true, intact := true } : SlotRec) = p.store.slots[k.val] :=
        poisoned_same hp h
      rw [e, Vector.set_getElem_self]
    rw [same]
    rfl
  · rw [reportOwner_eq]
    have ho : (slotOf (modSlot k (fun r => { r with poisoned := true })
        (bumpStore (fun c => { c with uncorrectableReads := bump c.uncorrectableReads }) p)) k).owner = (slotOf p k).owner := by
      simp [slotOf, bumpStore, modSlot, modStore]
    rw [ho]
    rfl

theorem applyTrace_eq (n : Ix) (t : Trace) (p : Part) : applyTrace n t p =
    modLane n (measured t.blocks) (forAll t.corrected correctedRead p) := rfl

/-- What a failed read leaves, every record it needs intact (R55, R80). -/
theorem lostRead_spec {s : Src} {corr : List SlotIx} {bs : List BlockMeasure} (hk : (slotOf p k).intact = true)
    (hc : ∀ c ∈ corr, (slotOf p c).intact = true) :
    (slotOf (lostRead n l s k ⟨corr, bs⟩ p) k).poisoned = true
      ∧ (lostRead n l s k ⟨corr, bs⟩ p).store.ctr.uncorrectableReads = bump p.store.ctr.uncorrectableReads
      ∧ (lostRead n l s k ⟨corr, bs⟩ p).store.ctr.correctedReads = bump^[corr.length] p.store.ctr.correctedReads
      ∧ (lostRead n l s k ⟨corr, bs⟩ p).fault.fatalDue = p.fault.fatalDue
      ∧ (lostRead n l s k ⟨corr, bs⟩ p).outs = p.outs
      ∧ ((slotOf p k).owner = some m → (slotOf p k).poisoned = false → corr = [] →
        getLog (.fl m) (lostRead n l s k ⟨corr, bs⟩ p) =
          logReport .memoryUncorrectable p.timebase (.slot k.val) (getLog (.fl m) p)) := by
  obtain ⟨slots, logs, hrun, hs, hl⟩ := correctedReads_run corr p hc
  have he : lostRead n l s k ⟨corr, bs⟩ p = markPoisoned n s l (uncorrectableRead k (applyTrace n ⟨corr, bs⟩ p)) := rfl
  have hx : applyTrace n ⟨corr, bs⟩ p = modLane n (measured bs) (forAll corr correctedRead p) := applyTrace_eq n _ p
  rw [hrun] at hx
  generalize applyTrace n ⟨corr, bs⟩ p = x at he hx
  have hks : slotOf x k = { slotOf p k with corrected := (saturate 255)^[corr.count k] (slotOf p k).corrected } := by
    rw [hx]; exact hs k
  rw [uncorrectableRead_eq (by rw [hks]; exact hk)] at he
  rw [he]
  refine ⟨?_, ?_, ?_, ?_, ?_, fun ho hp hnil => ?_⟩
  · exact congrArg SlotRec.poisoned (Vector.getElem_set_self (i := k.val) k.isLt)
  · rw [hx]; rfl
  · rw [hx]; rfl
  · rw [hx]; rfl
  · rw [hx]; rfl
  · subst hnil
    have h0 : logs = p.fault.feedLogs := Four.get_ext fun j => by rw [hl]; rfl
    have hlog : (lostLogged k x).get m = logReport .memoryUncorrectable p.timebase (.slot k.val) (logs.get m) := by
      have hp' : (slotOf x k).poisoned = false := by rw [hks]; exact hp
      have ho' : (slotOf x k).owner = some m := by rw [hks]; exact ho
      rw [lostLogged, hp', if_neg (by decide), ownerLogged_get, if_pos ho', hx]
      rfl
    rw [h0] at hlog
    exact hlog

end Lost

/-! ### The line of a job that shows -/

section Shows
variable {s : State} {n : Ix} {env : Env}

theorem lineResult_shows (hf : (s.part.lanes.get n).job.inFlight = true) :
    lineResult n (foundBy env s) = computeLine n (s.part.outs.get n).lineNext 6 (foundBy env s) := by
  unfold lineResult
  rw [found_job, if_pos hf, found_outs]

/-- A line none of whose reads fails is emitted, its blocks kept and its corrected reads counted and reported (R54, R97). -/
theorem emits_line {line : EmittedLine} {corr : List SlotIx} {bs : List BlockMeasure} (hq : quiet s) (hm : s.part.mute = false)
    (hl : (s.part.outs.get n).lineNext < linesPerPicture (s.part.outs.get n).standard)
    (hf : (s.part.lanes.get n).job.inFlight = true) (hs : jobShows (s.part.lanes.get n).job = true)
    (hc : ∀ k ∈ corr, (slotOf (foundBy env s) k).intact = true)
    (hrun : (computeOnce (lineCtx (foundBy env s) n (s.part.outs.get n).lineNext)).run ⟨[], (s.part.lanes.get n).job.blocks⟩ =
      (.ok line, ⟨corr, bs⟩)) :
    exec (.outputLine env n) s = .next { s with
      part := modOut n (fun o => { o with lineNext := o.lineNext + 1, lineOut := some line })
        (applyTrace n ⟨corr, bs⟩ (foundBy env s)) } := by
  have hr : lineResult n (foundBy env s) = (applyTrace n ⟨corr, bs⟩ (foundBy env s), some line) := by
    rw [lineResult_shows hf]
    exact computeLine_ok (by rwa [found_job]) (by rwa [found_job])
  obtain ⟨slots, logs, hx, -, -⟩ := correctedReads_run corr (foundBy env s) hc
  have ho : (applyTrace n ⟨corr, bs⟩ (foundBy env s)).outs = s.part.outs := by
    rw [applyTrace_eq, hx]; exact found_outs env s
  have hdue : (applyTrace n ⟨corr, bs⟩ (foundBy env s)).fault.fatalDue = false := by
    rw [applyTrace_eq, hx]; exact (congrArg FaultUnit.fatalDue (found_fault env s)).trans hq.1
  have hmute : (applyTrace n ⟨corr, bs⟩ (foundBy env s)).mute = false := by
    rw [applyTrace_eq, hx]; exact (found_mute env s).trans hm
  rw [outputLine_next hq, emitLine_eq (by rw [found_outs]; exact hl), hr, settle_quiet (by exact hdue), emitted_shown hmute]
  refine congrArg (fun p => Host.Outcome.next { s with part := p }) ?_
  rw [found_outs, modOut, modOut, ho]
  rfl

theorem poisonJob_blocks (input : Std) (src : Src) (l : Nat) (j : JobRec) : (poisonJob input src l j).blocks = j.blocks := by
  cases src <;> rfl

/-- What a job's record holds after an uncorrectable read (R80). -/
theorem poisonJob_spec (input : Std) (src : Src) (y : Nat) (j : JobRec) :
    (poisonJob input src y j).tm1 = (if src = .tm1 then { j.tm1 with state := .poisoned, poisonedFrom := some y } else j.tm1)
      ∧ (poisonJob input src y j).t0 = (if src = .t0 then { j.t0 with state := .poisoned, poisonedFrom := some y } else j.t0)
      ∧ (poisonJob input src y j).t1 = (if src = .t1 then { j.t1 with state := .poisoned, poisonedFrom := some y } else j.t1)
      ∧ (poisonJob input src y j).t2 = (if src = .t2 then { j.t2 with state := .poisoned, poisonedFrom := some y } else j.t2)
      ∧ (poisonJob input src y j).fallback =
        (if src = .fallback then j.fallback.map (fun f => { f with poisonedFrom := some y }) else j.fallback)
      ∧ ((src = .t1 ∨ (src = .tm1 ∧ (stdRow input).interlaced = true) ∨ (src = .t0 ∧ (stdRow input).interlaced = false)) →
        (poisonJob input src y j).motionValid = false)
      ∧ ((src = .t2 ∨ src = .fallback) → (poisonJob input src y j).motionValid = j.motionValid) := by
  have motion : (poisonJob input src y j).motionValid = (j.motionValid && !(j.motionValid && isCompared input src)) := by
    cases src <;> rfl
  refine ⟨?_, ?_, ?_, ?_, ?_, fun h => ?_, fun h => ?_⟩
  · cases src <;> rfl
  · cases src <;> rfl
  · cases src <;> rfl
  · cases src <;> rfl
  · cases src <;> rfl
  · have hc : isCompared input src = true := by
      rcases h with rfl | ⟨rfl, h⟩ | ⟨rfl, h⟩ <;> simp [isCompared, *]
    rw [motion, hc]
    cases j.motionValid <;> rfl
  · have hc : isCompared input src = false := by rcases h with rfl | rfl <;> rfl
    rw [motion, hc]
    cases j.motionValid <;> rfl

theorem lostRead_next {src : Src} {k : SlotIx} {corr : List SlotIx} {bs : List BlockMeasure} {p : Part} (hq : quiet s)
    (hp : p = lostRead n (s.part.outs.get n).lineNext src k ⟨corr, bs⟩ (foundBy env s))
    (hf : (s.part.lanes.get n).job.inFlight = true) (hs : jobShows (s.part.lanes.get n).job = true)
    (hl : (s.part.outs.get n).lineNext < linesPerPicture (s.part.outs.get n).standard)
    (hk : (slotOf (foundBy env s) k).intact = true) (hc : ∀ c ∈ corr, (slotOf (foundBy env s) c).intact = true)
    (hrun : (computeOnce (lineCtx (foundBy env s) n (s.part.outs.get n).lineNext)).run ⟨[], (s.part.lanes.get n).job.blocks⟩ =
      (.error (.badSample src k), ⟨corr, bs⟩)) :
    exec (.outputLine env n) s = exec (.outputLine ⟨env.time, []⟩ n) { s with part := p } := by
  obtain ⟨-, -, -, hdue, houts, -⟩ := lostRead_spec (m := 0) (n := n) (l := (s.part.outs.get n).lineNext) (s := src) (bs := bs) hk hc
  rw [← hp] at hdue houts
  rw [found_fault] at hdue
  rw [found_outs] at houts
  have hmgmt : p.mgmt = s.part.mgmt := by
    rw [hp, lostRead_keeps storeBlind_mgmt (fun _ _ => rfl), found_mgmt]
  have htime : p.timebase = max s.part.timebase env.time := by
    rw [hp, lostRead_keeps storeBlind_timebase (fun _ _ => rfl), found_timebase]
  have hlane : p.lanes.get n = poisoned src (s.part.outs.get n).lineNext (measured bs ((foundBy env s).lanes.get n)) := by
    rw [hp, lostRead_lanes, Four.get_modify_same]
  have hquiet : quiet { s with part := p } :=
    ⟨hdue.trans hq.1, (JobRowsLaw.arbiter_congr hmgmt houts).trans hq.2⟩
  have hfound : foundBy ⟨env.time, []⟩ { s with part := p } = p := by
    show ({ p with timebase := max p.timebase env.time } : Part) = p
    have : max p.timebase env.time = p.timebase := by rw [htime]; exact max_eq_left (le_max_right _ _)
    rw [this]
  rw [outputLine_next hq, outputLine_next hquiet, hfound]
  have hflight : (p.lanes.get n).job.inFlight = true := by
    rw [hlane]
    exact ((by cases src <;> rfl : (poisonJob _ src _ _).inFlight = _).trans (congrArg JobRec.inFlight found_job)).trans hf
  have hcount : shownCount (p.lanes.get n).job < 5 := by
    obtain ⟨pic, hpic, rfl, _⟩ := failsBy_computeOnce _ _ _ hrun src k rfl
    rw [hlane]
    exact lt_of_lt_of_le (shownCount_poisoned _ _ _ _ (reads_shown hpic)) (shownCount_le _)
  have hres : lineResult n (foundBy env s) = lineResult n p := by
    rw [lineResult_shows hf, computeLine_badSample (by rwa [found_job]) (by rwa [found_job]), ← hp, lineResult, if_pos hflight,
      houts]
    exact computeLine_fuel _ _ _ hcount (by omega)
  have hemit : emitLine n (foundBy env s) = emitLine n p := by
    rw [emitLine_eq (by rw [found_outs]; exact hl), emitLine_eq (by rw [houts]; exact hl), hres, found_outs, houts]
  rw [hemit]

end Shows

/-- Settles O36. -/
theorem linesComeFromTheTaps : Obligations.LinesComeFromTheTaps := by
  unfold Obligations.LinesComeFromTheTaps
  refine ⟨fun c cs bs hb => ⟨fun line tr h => computeOnce_direct hb h, fun h => computeOnce_clean h cs hb⟩,
    fun sum => ⟨blendOut_floor sum, spatialOut_floor sum⟩, fun th1 th2 th3 d h12 h23 => motionClass_cases h12 h23,
    blockSamples_spec, ?_, ?_, part_phase, fun w i h => clampInt_position i h, fun d => ⟨rfl, rfl, rfl, rfl⟩, ?_, ?_,
    poisonJob_spec⟩
  · rintro x ws wo u a hwo rfl rfl
    exact sixteenths_floor hwo
  · rintro c p y v a hy rfl ha
    have hy' : frameRow c.parity c.line = y := by
      rw [hy]
      cases c.parity with
      | none => rfl
      | some q => cases q <;> rfl
    unfold verticalPosition
    rw [hy']
    dsimp only
    by_cases hi : (stdRow c.source).interlaced = true
    · rw [if_pos hi, if_pos hi]
      have := fieldSixteenths_floor (sixteenths y (stdRow c.source).height (stdRow c.output).height) p
      rw [ha]
      cases p with
      | top => simpa [parityNumber] using this
      | bottom => simpa [parityNumber] using this
    · rw [if_neg hi, if_neg hi]
  · rintro env n s q o line corr bs hq rfl rfl hm hl hf hs hc hrun
    obtain ⟨slots, logs, hx, hslots, hlogs⟩ := correctedReads_run corr (foundBy env s) hc
    refine ⟨slots, logs, ?_, hslots, fun m => ?_⟩
    · rw [emits_line hq hm hl hf hs hc hrun, applyTrace_eq, hx, ← found_outs env s, ← found_fault env s]
      rfl
    · rw [hlogs, found_fault]
  · rintro env n s q p o src k corr bs hq rfl rfl hl hf hs hk hc hrun hp
    have hspec (m : Ix) := lostRead_spec (m := m) (n := n) (l := (s.part.outs.get n).lineNext) (s := src) (bs := bs) hk hc
    replace hp : p = lostRead n (s.part.outs.get n).lineNext src k ⟨corr, bs⟩ (foundBy env s) := hp
    rw [← hp] at hspec
    have hlanes : p.lanes = (foundBy env s).lanes.modify n
        (fun x => poisoned src (s.part.outs.get n).lineNext (measured bs x)) := by rw [hp, lostRead_lanes]
    obtain ⟨hpois, hunc, hcorr, -, houts, -⟩ := hspec 0
    refine ⟨lostRead_next hq hp hf hs hl hk hc hrun, hpois, ?_, hunc, hcorr, fun m => (hspec m).2.2.2.2.2, ?_,
      fun m hm => ?_, houts, ?_, ?_⟩
    · rw [hlanes, Four.get_modify_same]
      exact poisonJob_blocks _ _ _ _
    · rw [hlanes, Four.get_modify_same]
      rfl
    · rw [hlanes, Four.get_modify_other _ _ hm]
    · rw [hp, lostRead_keeps storeBlind_mgmt (fun _ _ => rfl)]
    · rw [hp, lostRead_keeps storeBlind_feeds (fun _ _ => rfl)]

end Sys2Proof.Machine.LineReads
end

section
/-! SUPPORT. A lane that goes FATAL within a step, and the integrity errors that end one (R58, R134, R135, R165, R189). -/

namespace Sys2Proof.Machine.LaneFaults

open Frames Keeping LaneValues LaneEnds LockLoss FaultValues JobEnds Emission OutputLines

section Fatal
variable {q r : Part} {n m : Ix} {c : ErrCode} {d : Detail}

/-- The part in which lane Ln has reported an error to its log and gone FATAL (R134). -/
def faultedBy (n : Ix) (c : ErrCode) (d : Detail) (p : Part) : Part := laneFatal n (report (.ll n) c d p)

/-- `r` differs from `p` in outputs, queues and references at most. -/
def SameLanes (p r : Part) : Prop := r.lanes = p.lanes ∧ r.fault = p.fault ∧ r.timebase = p.timebase ∧ r.feeds = p.feeds

theorem faultedBy_lane : (faultedBy n c d q).lanes.get n = fatalled (q.lanes.get n) := by
  rw [faultedBy, laneFatal_lanes, Four.get_modify_same, storeBlind_lanes.report]

theorem faultedBy_other (hm : m ≠ n) : (faultedBy n c d q).lanes.get m = q.lanes.get m := by
  rw [faultedBy, laneFatal_lanes, Four.get_modify_other _ _ hm, storeBlind_lanes.report]

/-- The end of a step in which a lane has gone FATAL: what the lane, its log and its latch hold. -/
theorem faulted_settles (h : SameLanes (faultedBy n c d q) r) :
    (settle r).lanes.get n = fatalled (q.lanes.get n) ∧ Cond.faulted n ∈ (settle r).fault.latches
      ∧ getLog (.ll n) (settle r) = logReport c (settle r).timebase d (getLog (.ll n) q) := by
  obtain ⟨hl, hf, ht, -⟩ := h
  have hlane : r.lanes.get n = fatalled (q.lanes.get n) := by rw [hl, faultedBy_lane]
  have hend := endured_settle r
  have htime : (settle r).timebase = q.timebase := by
    rw [hend.timebase, ht, faultedBy, laneFatal_timebase, storeBlind_timebase.report]
  refine ⟨(settle_faulted (by rw [hlane, fatalled_eq])).trans hlane, hend.latches _ ?_, ?_⟩
  · rw [hf]; exact laneFatal_latched _ _
  · show (settle r).fault.laneLogs.get n = _
    rw [hend.laneLogs, hf, htime, faultedBy, (mild_laneFatal n _).laneLogs]
    exact Four.get_modify_same ..

/-- The source feed of a lane that went FATAL is drained at the end of the step (R37, R134). -/
theorem faulted_drains (h : SameLanes (faultedBy n c d q) r) : drained (q.lanes.get n).profile.source (settle r) := by
  obtain ⟨hl, -, -, hfeeds⟩ := h
  have hd := laneFatal_drains n (report (.ll n) c d q)
  rw [storeBlind_lanes.report] at hd
  refine settle_drained ?_
  unfold drained runningCount sources at hd ⊢
  rw [hl, hfeeds]
  exact hd

theorem faultedBy_calm (h : SameLanes (faultedBy n c d q) r) (hcalm : (settle r).fault.deviceFatal = q.fault.deviceFatal) :
    settle r = { r with fault := { r.fault with fatalDue := false } } := by
  refine settle_calm (hcalm.trans ?_)
  rw [h.2.1, faultedBy, (mild_laneFatal n _).deviceFatal]
  exact (report_fault ..).2.2.2.1.symm

end Fatal

/-! ### A row that fails its parity -/

section Row
variable {s : State} {n : Ix} {env : Env} {tab : Table} {row : Nat} {bs : List BlockMeasure}

/-- The part after the computation of a line that met a row with a parity failure (R165). -/
def rowLost (n : Ix) (tab : Table) (row : Nat) (bs : List BlockMeasure) (q : Part) : Part :=
  faultedBy n (parityCode tab) (.row row) (modLane n (measured bs) q)

theorem lineResult_badRow (hf : (s.part.lanes.get n).job.inFlight = true) (hs : jobShows (s.part.lanes.get n).job = true)
    (hrun : (computeOnce (lineCtx (foundBy env s) n (s.part.outs.get n).lineNext)).run ⟨[], (s.part.lanes.get n).job.blocks⟩ =
      (.error (.badRow tab row), ⟨[], bs⟩)) :
    lineResult n (foundBy env s) = (rowLost n tab row bs (foundBy env s), none) := by
  rw [LineReads.lineResult_shows hf, computeLine_badRow (by rwa [found_job]) (by rwa [found_job])]
  rfl

/-- OUTPUT_LINE that reads a row with a parity failure (R134, R165). -/
theorem rowParity_faults (hq : quiet s) (hm : s.part.mute = false)
    (hl : (s.part.outs.get n).lineNext < linesPerPicture (s.part.outs.get n).standard)
    (hf : (s.part.lanes.get n).job.inFlight = true) (hs : jobShows (s.part.lanes.get n).job = true)
    (hrun : (computeOnce (lineCtx (foundBy env s) n (s.part.outs.get n).lineNext)).run ⟨[], (s.part.lanes.get n).job.blocks⟩ =
      (.error (.badRow tab row), ⟨[], bs⟩)) :
    ∃ r : Part, exec (.outputLine env n) s = .next { s with part := settle r }
      ∧ SameLanes (rowLost n tab row bs (foundBy env s)) r ∧ r.mgmt = (rowLost n tab row bs (foundBy env s)).mgmt
      ∧ (∀ m, (r.outs.get m).replies = ((rowLost n tab row bs (foundBy env s)).outs.get m).replies)
      ∧ ((settle r).outs.get n).lineOut = some (slateLine (foundBy env s) n (s.part.outs.get n).lineNext) := by
  have hres := lineResult_badRow (env := env) (tab := tab) (row := row) (bs := bs) hf hs hrun
  have hout := (emitted_out (env := env) (n := n) rfl hl).2
  have hmute : (lineResult n (foundBy env s)).1.mute = false := by rw [lineResult_mute, found_mute, hm]
  have hstd := lineResult_keeps (p := foundBy env s) (n := n) (g := OutUnit.standard) (fun _ _ _ _ => rfl)
  have hprof := lineResult_profile (p := foundBy env s) (n := n)
  have he := emitLine_eq (p := foundBy env s) (n := n) (by rw [found_outs]; exact hl)
  refine ⟨emitLine n (foundBy env s), outputLine_next hq, ?_, ?_, fun m => ?_, ?_⟩
  · rw [he, hres]; exact ⟨rfl, rfl, rfl, rfl⟩
  · rw [he, hres]; rfl
  · rw [he, hres, modOut_outs, Four.get_modify]
    split_ifs with e
    · rw [e]
    · rfl
  · rw [hout, emitted_shown hmute, slateLine, hstd, hprof, hres]
    rfl

theorem fatalled_flight {l : Lane} (h : l.job.inFlight = true) : fatalled l = { l with
    job := { l.job with inFlight := false, pinned := [], kept := none }
    jobCtr := { l.jobCtr with jobsAbandoned := bump l.jobCtr.jobsAbandoned }
    carry := []
    carryCtr := { l.carryCtr with itemsFlushed := bumpBy l.carry.length l.carryCtr.itemsFlushed }
    commit := none
    acquireAt := none
    holdCount := 0
    state := .faulted
    laneCtr := { l.laneCtr with faults := bump l.laneCtr.faults } } := by
  rw [fatalled_eq, abandoned, if_pos h]
  rfl

/-- What the effects that a row with a parity failure has on its lane and feed come to (R82, R134, R146, R165). -/
theorem rowParity_lane {l : Lane} (hq : quiet s) (hl' : l = (foundBy env s).lanes.get n) (hm : s.part.mute = false)
    (hl : (s.part.outs.get n).lineNext < linesPerPicture (s.part.outs.get n).standard)
    (hf : l.job.inFlight = true) (hs : jobShows l.job = true)
    (hrun : (computeOnce (lineCtx (foundBy env s) n (s.part.outs.get n).lineNext)).run ⟨[], l.job.blocks⟩ =
      (.error (.badRow tab row), ⟨[], bs⟩)) :
    ∃ t : State, exec (.outputLine env n) s = .next t
      ∧ t.part.lanes.get n = fatalled (measured bs l)
      ∧ t.part.mgmt.laneOps.get n = none ∧ Cond.faulted n ∈ t.part.fault.latches
      ∧ getLog (.ll n) t.part = logReport (parityCode tab) t.part.timebase (.row row) (getLog (.ll n) s.part)
      ∧ (t.part.outs.get n).lineOut = some (flatLine (s.part.outs.get n).standard (s.part.outs.get n).lineNext
          l.profile.slateY l.profile.slateCb l.profile.slateCr)
      ∧ drained l.profile.source t.part
      ∧ (t.part.fault.deviceFatal = s.part.fault.deviceFatal →
        (∀ m, m ≠ n → t.part.lanes.get m = (foundBy env s).lanes.get m)
          ∧ (∀ op, s.part.mgmt.laneOps.get n = some op →
            (t.part.outs.get op.origin).replies =
              (s.part.outs.get op.origin).replies ++ [⟨op.tag, op.code, .done, 3, op.restart, []⟩])) := by
  have hjob : l.job = (s.part.lanes.get n).job := by rw [hl', found_job]
  rw [hjob] at hf hs hrun
  obtain ⟨r, hx, hsame, hmgmt, hrep, hline⟩ := rowParity_faults hq hm hl hf hs hrun
  obtain ⟨hlane, hlatch, hlog⟩ := faulted_settles hsame
  have hbase : (modLane n (measured bs) (foundBy env s)).fault = s.part.fault := found_fault env s
  have hmeas : (modLane n (measured bs) (foundBy env s)).lanes.get n = measured bs l := by
    rw [modLane_lanes, Four.get_modify_same, hl']
  refine ⟨_, hx, ?_, settle_none ?_, hlatch, ?_, ?_, ?_, fun hcalm => ?_⟩
  · rw [hlane, hmeas]
  · rw [hmgmt, rowLost, faultedBy, laneFatal_mgmt]
    exact Four.get_set_same ..
  · rw [hlog]
    exact congrArg _ (congrArg (fun u : FaultUnit => u.laneLogs.get n) hbase)
  · rw [hline, slateLine, ← hl', found_outs]
  · have hd := faulted_drains hsame
    rw [hmeas] at hd
    exact hd
  · have hsettle := faultedBy_calm hsame (hcalm.trans (congrArg FaultUnit.deviceFatal hbase).symm)
    dsimp only
    rw [hsettle]
    refine ⟨fun m hm' => ?_, fun op hop => ?_⟩
    · show r.lanes.get m = _
      rw [hsame.1, rowLost, faultedBy_other hm', modLane_lanes, Four.get_modify_other _ _ hm']
    · show (r.outs.get op.origin).replies = _
      rw [hrep, rowLost, faultedBy, laneFatal_replies]
      have ho : (report (.ll n) (parityCode tab) (.row row) (modLane n (measured bs) (foundBy env s))).outs = s.part.outs :=
        found_outs env s
      have hg : (report (.ll n) (parityCode tab) (.row row) (modLane n (measured bs) (foundBy env s))).mgmt = s.part.mgmt :=
        found_mgmt env s
      rw [ho, hg, hop, endReplies, if_pos rfl]
      rfl

end Row

/-! ### The entry to device fatal at the end of a step -/

section Entry
variable {p : Part} {n : Ix}

theorem settled_latches (hd : p.fault.fatalDue = true) (hf : p.fault.deviceFatal = false) :
    (settle p).fault.latches = (enterDeviceFatal p).fault.latches := by
  rw [settle_entered hd hf]; rfl

theorem fatalled_emptied (l : Lane) : (fatalled l).job.inFlight = false ∧ (fatalled l).carry = []
    ∧ (fatalled l).commit = none ∧ (fatalled l).acquireAt = none ∧ (fatalled l).laneCtr.faults = bump l.laneCtr.faults := by
  rw [fatalled_eq]
  exact ⟨abandoned_inFlight l, rfl, rfl, rfl, rfl⟩

/-- An integrity error takes the part to device fatal at the end of the step (R58, R135, R189). -/
theorem integrity_entersFatal (hd : p.fault.fatalDue = true) (hf : p.fault.deviceFatal = false) :
    (settle p).fault.deviceFatal = true ∧ (settle p).fault.fatalDue = false
      ∧ Cond.deviceFatal ∈ (settle p).fault.latches
      ∧ (∀ n,
        ((settle p).lanes.get n).state = .faulted ∧ getLog (.ll n) (settle p) = getLog (.ll n) p
          ∧ ((p.lanes.get n).state = .faulted → (settle p).lanes.get n = p.lanes.get n)
          ∧ ((p.lanes.get n).state = .stopped → (settle p).lanes.get n =
            { p.lanes.get n with
              state := .faulted
              laneCtr := { (p.lanes.get n).laneCtr with faults := bump (p.lanes.get n).laneCtr.faults } })
          ∧ (isRunning (p.lanes.get n).state = true →
            ((settle p).lanes.get n).job.inFlight = false ∧ ((settle p).lanes.get n).carry = []
              ∧ ((settle p).lanes.get n).commit = none ∧ ((settle p).lanes.get n).acquireAt = none
              ∧ (settle p).mgmt.laneOps.get n = none
              ∧ ((settle p).lanes.get n).laneCtr.faults = bump (p.lanes.get n).laneCtr.faults)
          ∧ ((p.lanes.get n).state ≠ .faulted → Cond.faulted n ∈ (settle p).fault.latches)) := by
  have hlanes (n : Ix) : (settle p).lanes.get n = deviceFatalled (p.lanes.get n) := by
    rw [settle_lanes, if_pos ⟨hd, hf⟩, Four.get_make]
  refine ⟨?_, ?_, ?_, fun n => ⟨?_, ?_, fun h => ?_, fun h => ?_, fun h => ?_, fun h => ?_⟩⟩
  · rw [settle_entered hd hf]; exact enterDeviceFatal_flag p
  · rw [settle_entered hd hf]; rfl
  · rw [settled_latches hd hf]; exact mem_enterDeviceFatal p
  · rw [hlanes]; exact deviceFatalled_state _
  · exact congrArg (fun logs => logs.get n) (endured_settle p).laneLogs
  · exact settle_faulted h
  · rw [hlanes, deviceFatalled, h]
  · obtain ⟨hj, hc, hcm, ha, hctr⟩ := fatalled_emptied (p.lanes.get n)
    rw [hlanes, deviceFatalled_running h]
    refine ⟨hj, hc, hcm, ha, ?_, hctr⟩
    rw [settle_entered hd hf]
    exact enterDeviceFatal_ops h
  · rw [settled_latches hd hf]; exact enterDeviceFatal_latched h

/-- JOB_END that meets a record that fails its check takes the part to device fatal, and the record stands (R58). -/
theorem jobEnd_integrity {env : Env} {s : State} {k : SlotIx} (hq : quiet s) (hf : s.part.fault.deviceFatal = false)
    (hfl : (s.part.lanes.get n).job.inFlight = true) (hk : k ∈ (s.part.lanes.get n).job.pinned)
    (hi : (slotOf (foundBy env s) k).intact = false) :
    ∃ t : State, exec (.jobEnd env n) s = .next t ∧ t.part.fault.deviceFatal = true
      ∧ Cond.deviceFatal ∈ t.part.fault.latches ∧ (∀ m, (t.part.lanes.get m).state = .faulted)
      ∧ slotOf t.part k = slotOf (foundBy env s) k
      ∧ (∃ r : LogRec, getLog .dl t.part = some r ∧ r.severity = .fatal) := by
  have hx : exec (.jobEnd env n) s = .next { s with part := settle (takeJobEnd n (foundBy env s)) } := happens_quiet _ _ hq
  have hjob : ((foundBy env s).lanes.get n).job = (s.part.lanes.get n).job := found_job
  have hfatal : (foundBy env s).fault.deviceFatal = false := (congrArg FaultUnit.deviceFatal (found_fault env s)).trans hf
  generalize foundBy env s = q at *
  rw [← hjob] at hfl hk
  have he := takeJobEnd_flight hfl
  have hslot : slotOf (closedJob n q) k = slotOf q k := rfl
  obtain ⟨hlog, hdue⟩ := unpins_logged (p := closedJob n q) hk (by rw [hslot, hi])
  have hfrozen : Frozen k (closedJob n q) (settle (takeJobEnd n q)) := by
    rw [he]
    exact (frozen_forAll frozen_unpinSlot _ _).trans ((frozen_settle _).after rfl rfl)
  have hdue' : (takeJobEnd n q).fault.fatalDue = true := by rw [he]; exact hdue
  have hcalm : (takeJobEnd n q).fault.deviceFatal = false := by
    rw [he]
    exact (mild_forAll mild_unpinSlot _ (closedJob n q)).deviceFatal.trans hfatal
  obtain ⟨hdev, -, hlatch, hlanes⟩ := integrity_entersFatal hdue' hcalm
  refine ⟨_, hx, hdev, hlatch, fun m => (hlanes m).1, (hfrozen.slot (by rw [hslot, hi])).trans hslot, ?_⟩
  refine (frozen_settle (k := k) (takeJobEnd n q)).logged ?_
  rw [he]
  exact hlog

end Entry

end Sys2Proof.Machine.LaneFaults
end

section
/-! SUPPORT. The parts of a boundary that concern the output: its packets, its schedule and its record (R107 to R117). -/

namespace Sys2Proof.Machine.BoundaryParts

open Frames Keeping LaneValues LaneEnds FaultValues LockLoss

/-! ### The packets of the picture -/

section Packets
variable {p : Part} {n m : Ix}

/-- An output whose head reply has been placed (R117). -/
def replyPlaced (k : SentPacket) (rest : List Reply) (o : OutUnit) : OutUnit :=
  { o with replies := rest, packets := o.packets ++ [k], ctr := { o.ctr with repliesSent := bump o.ctr.repliesSent } }

theorem placeReply_nil (h : (p.outs.get n).replies = []) : placeReply n p = p := by rw [placeReply, h]

theorem placeReply_cons {r : Reply} {rest : List Reply} (h : (p.outs.get n).replies = r :: rest) : placeReply n p =
    { p with
      outs := p.outs.modify n (replyPlaced (sendPacket (replyPacket p n r)) rest)
      mgmt := { p.mgmt with lost := p.mgmt.lost.set n 0 } } := by
  rw [placeReply, h]
  simp only [bumpOut, modOut, modMgmt, Four.modify_modify]
  rfl

/-- The notice of a picture in which so many replies are waiting (R116, R117). -/
def noticePlaced (p : Part) (o : OutUnit) : List SentPacket :=
  if o.replies.length < 2 ∧ o.notices ≠ [] then [sendPacket (noticePacket p o.notices)] else []

/-- The output with the packets of a new picture (R116). -/
def placedOut (p : Part) (n : Ix) (h : Handover) (o : OutUnit) : OutUnit :=
  { o with
    replies := o.replies.drop 2
    notices := if o.replies.length < 2 then [] else o.notices
    packets := placedReplies p n (o.replies.take 2) ++ noticePlaced p o
      ++ (h.timecode.toList ++ h.carried).map sendPacket
    ctr := { o.ctr with
      repliesSent := bump^[min 2 o.replies.length] o.ctr.repliesSent
      noticesSent := if o.replies.length < 2 ∧ o.notices ≠ [] then bump o.ctr.noticesSent else o.ctr.noticesSent } }

/-- The management unit after the replies of a picture: the first took the lost count with it (R172). -/
def placedMgmt (n : Ix) (o : OutUnit) (m : Mgmt) : Mgmt :=
  { m with lost := if o.replies = [] then m.lost else m.lost.set n 0 }

/-- Two replies placed one after the other: the second finds the lost count at 0 (R172). -/
theorem placedReplies_two (r₁ r₂ : Reply) : placedReplies p n [r₁, r₂] =
    [sendPacket (replyPacket p n r₁),
      sendPacket (replyPacket { p with mgmt := { p.mgmt with lost := p.mgmt.lost.set n 0 } } n r₂)] := by
  simp only [placedReplies, List.zipIdx_cons, List.zipIdx_nil, List.map_cons, List.map_nil, replyPacket, Four.get_set_same]
  cases r₁.kind <;> cases r₂.kind <;> rfl

theorem placedReplies_one (r : Reply) : placedReplies p n [r] = [sendPacket (replyPacket p n r)] := by
  simp only [placedReplies, List.zipIdx_cons, List.zipIdx_nil, List.map_cons, List.map_nil, replyPacket]
  cases r.kind <;> rfl

theorem placeNotice_eq (k : Nat) : placeNotice n k p =
    if k < 2 ∧ (p.outs.get n).notices ≠ [] then
      modOut n (fun o => { o with
        notices := []
        packets := o.packets ++ [sendPacket (noticePacket p (p.outs.get n).notices)]
        ctr := { o.ctr with noticesSent := bump o.ctr.noticesSent } }) p
    else p := by
  unfold placeNotice
  dsimp only
  refine ite_congr rfl (fun _ => ?_) (fun _ => rfl)
  simp only [bumpOut, modOut, Four.modify_modify]

theorem placePackets_eq (h : Handover) : placePackets n h p =
    { p with
      outs := p.outs.modify n (placedOut p n h)
      mgmt := placedMgmt n (p.outs.get n) p.mgmt } := by
  unfold placePackets
  dsimp only
  have hx : ((modOut n (fun o => { o with packets := [] }) p).outs.get n).replies = (p.outs.get n).replies := by simp
  rcases hr : (p.outs.get n).replies with _ | ⟨r₁, rest⟩
  · have h1 := placeReply_nil (hx.trans hr)
    rw [h1, h1, placeNotice_eq]
    by_cases hn : (p.outs.get n).notices = []
    · simp [hn, hr, modOut, Four.modify, placedOut, placedMgmt, noticePlaced, placedReplies]
    · simp [hn, hr, modOut, Four.modify, placedOut, placedMgmt, noticePlaced, placedReplies, noticePacket, Config.repliesPerPicture]
  · rw [placeReply_cons (hx.trans hr)]
    rcases rest with _ | ⟨r₂, rest⟩
    · rw [placeReply_nil (by simp [replyPlaced]), placeNotice_eq]
      by_cases hn : (p.outs.get n).notices = []
      · simp [hn, hr, modOut, Four.modify, placedOut, placedMgmt, noticePlaced, placedReplies_one, replyPlaced, replyPacket]
      · simp [hn, hr, modOut, Four.modify, placedOut, placedMgmt, noticePlaced, placedReplies_one, replyPlaced, replyPacket,
          noticePacket, Config.repliesPerPicture]
    · rw [placeReply_cons (r := r₂) (rest := rest) (by simp [replyPlaced]), placeNotice_eq]
      simp [hr, modOut, Four.modify, placedOut, placedMgmt, noticePlaced, placedReplies_two, replyPlaced, replyPacket,
        Config.repliesPerPicture]

end Packets

/-! ### The schedule -/

section Schedule
variable {p : Part} {n m : Ix} {i : Int} {o : OutUnit}

/-- What a reference allows an output: relation, k, Pr and the marker that counts. -/
abbrev Lockable := Option (Bool × Nat × Nat × Nat)

/-- The output with its next boundary fixed on the timebase alone (R108, R112). -/
def freeOut (next : Int) (o : OutUnit) : OutUnit := { o with next := next, nextParity := none }

/-- The output with its next boundary at an aligned instant (R109, R110). -/
def alignedOut (al : Alignment) (x : Nat) (o : OutUnit) : OutUnit :=
  { o with
    next := alignedInstant (al.m + (o.offset : Int)) (outPeriod o) x
    nextParity := placedParity (stdRow o.standard).interlaced al.faster al.k x }

/-- The output locked at a boundary at `i` (R108). -/
def lockedOut (i : Int) (al : Alignment) (o : OutUnit) : OutUnit :=
  { alignedOut al (firstIndex (al.m + (o.offset : Int)) (outPeriod o) (i + (outPeriod o : Nat))) o with
    lock := .locked al, ctr := { o.ctr with alignments := bump o.ctr.alignments } }

/-- The output after step 5 of a boundary in LOCKED (R109). -/
def trackedOut (i : Int) (al : Alignment) (o : OutUnit) : OutUnit :=
  let base := al.m + (o.offset : Int)
  let x := nearestIndex base (outPeriod o) (i + (outPeriod o : Int))
  if (alignedInstant base (outPeriod o) x - (i + (outPeriod o : Int))).natAbs ≤ outPeriod o / 1024 then alignedOut al x o
  else { alignedOut al (firstIndex base (outPeriod o) (i + (outPeriod o : Int))) o with
    ctr := { o.ctr with phaseSteps := bump o.ctr.phaseSteps } }

/-- The alignment that a lockable reference gives (R108). -/
def alignmentOf (x : Bool × Nat × Nat × Nat) : Alignment := ⟨x.1, x.2.1, measuredPeriod x.1 x.2.1 x.2.2.1, (x.2.2.2 : Int), 0⟩

/-- The output takes the reference: from FREE, or from HOLDOVER under AUTO or with a RELOCK pending (R108, R113). -/
def takesLock (o : OutUnit) : Bool :=
  match o.lock with
  | .free => true
  | .locked _ => false
  | .holdover _ => decide (o.policy = .auto ∨ o.relockPending = true)

/-- The output keeps to its own period (R108, R112): Po later in FREE, Ph later in HOLDOVER. -/
def ownPeriod (o : OutUnit) : Int :=
  match o.lock with
  | .holdover ph => ph
  | _ => (outPeriod o : Int)

/-- The output after step 5 of a boundary at `i` (R108, R109, R112). -/
def scheduledOut (lk : Lockable) (i : Int) (o : OutUnit) : OutUnit :=
  match o.lock with
  | .locked al => trackedOut i al o
  | _ => match lk with
    | some x => if takesLock o then lockedOut i (alignmentOf x) o else freeOut (i + ownPeriod o) o
    | none => freeOut (i + ownPeriod o) o

/-- A RELOCK ends at this boundary: the output leaves HOLDOVER (R113). -/
def relockEnds (lk : Lockable) (o : OutUnit) : Bool :=
  match o.lock with
  | .holdover _ => lk.isSome && takesLock o
  | _ => false

/-- The aligned instant nearest to one period later lies within floor(Po/1024) of it (R109). -/
def PullsIn (i : Int) (al : Alignment) (o : OutUnit) : Prop :=
  (alignedInstant (al.m + (o.offset : Int)) (outPeriod o)
    (nearestIndex (al.m + (o.offset : Int)) (outPeriod o) (i + (outPeriod o : Int))) - (i + (outPeriod o : Int))).natAbs
      ≤ outPeriod o / 1024

theorem trackedOut_pull {al : Alignment} (h : PullsIn i al o) : trackedOut i al o =
    alignedOut al (nearestIndex (al.m + (o.offset : Int)) (outPeriod o) (i + (outPeriod o : Int))) o := if_pos h

theorem trackedOut_step {al : Alignment} (h : ¬ PullsIn i al o) : trackedOut i al o =
    { alignedOut al (firstIndex (al.m + (o.offset : Int)) (outPeriod o) (i + (outPeriod o : Int))) o with
      ctr := { o.ctr with phaseSteps := bump o.ctr.phaseSteps } } := if_neg h

theorem alignAt_eq (i : Int) (faster : Bool) (k pr t : Nat) : alignAt n i faster k pr t p =
    modOut n (lockedOut i (alignmentOf (faster, k, pr, t))) p := by
  unfold alignAt placeAligned
  simp only [bumpOut, modOut, Four.modify_modify]
  refine congrArg (fun outs => { p with outs := outs }) ?_
  simp only [Four.modify]
  rfl

theorem scheduleLocked_eq (i : Int) (al : Alignment) : scheduleLocked n i al p = modOut n (trackedOut i al) p := by
  unfold scheduleLocked trackedOut placeAligned
  dsimp only
  split_ifs with h
  · simp only [modOut, Four.modify, h, if_true]
    rfl
  · simp only [bumpOut, modOut, Four.modify_modify]
    simp only [Four.modify, h, if_false]
    rfl

theorem scheduledOut_locked {lk : Lockable} {al : Alignment} (h : o.lock = .locked al) : scheduledOut lk i o = trackedOut i al o := by
  unfold scheduledOut
  split
  next al' hl => cases h.symm.trans hl; rfl
  next hl => exact absurd h (hl al)

theorem scheduledOut_own {lk : Lockable} (h : ∀ al, o.lock ≠ .locked al) (hk : lk = none ∨ takesLock o = false) :
    scheduledOut lk i o = freeOut (i + ownPeriod o) o := by
  unfold scheduledOut
  split
  next al hl => exact absurd hl (h al)
  next =>
    split
    next x => rw [if_neg (by rw [hk.resolve_left (by simp)]; decide)]
    next => rfl

theorem scheduledOut_taken {x : Bool × Nat × Nat × Nat} (h : takesLock o = true) :
    scheduledOut (some x) i o = lockedOut i (alignmentOf x) o := by
  unfold scheduledOut
  split
  next al hl => rw [takesLock, hl] at h; exact nomatch h
  next => exact if_pos h

theorem relockEnds_iff {lk : Lockable} : relockEnds lk o = true ↔
    (∃ ph, o.lock = .holdover ph) ∧ lk.isSome = true ∧ takesLock o = true := by
  unfold relockEnds
  cases o.lock <;> simp

theorem schedule_eq (n : Ix) (i : Int) (p : Part) : schedule n i p =
    if relockEnds (lockable p (p.outs.get n)) (p.outs.get n) then
      endRelock n .complete (modOut n (scheduledOut (lockable p (p.outs.get n)) i) p)
    else modOut n (scheduledOut (lockable p (p.outs.get n)) i) p := by
  have hset {f g : OutUnit → OutUnit} (h : f (p.outs.get n) = g (p.outs.get n)) : modOut n f p = modOut n g p := by
    simp only [modOut, Four.modify, h]
  have own (next : Int) (hn : next = i + ownPeriod (p.outs.get n)) : placeFree n next p = modOut n (freeOut (i + ownPeriod (p.outs.get n))) p := by
    rw [hn]; rfl
  unfold schedule
  dsimp only
  cases hl : (p.outs.get n).lock with
  | locked al =>
    rw [if_neg (by rw [relockEnds_iff, hl]; simp)]
    dsimp only
    rw [scheduleLocked_eq]
    exact hset (scheduledOut_locked hl).symm
  | free =>
    have ht : takesLock (p.outs.get n) = true := by rw [takesLock, hl]
    have ho : ownPeriod (p.outs.get n) = (outPeriod (p.outs.get n) : Int) := by rw [ownPeriod, hl]
    rw [if_neg (by rw [relockEnds_iff, hl]; simp)]
    cases hk : lockable p (p.outs.get n) with
    | none =>
      dsimp only
      rw [own _ (by rw [ho])]
      exact hset (scheduledOut_own (by rw [hl]; simp) (.inl rfl)).symm
    | some x =>
      obtain ⟨faster, k, pr, t⟩ := x
      dsimp only
      rw [alignAt_eq]
      exact hset (scheduledOut_taken ht).symm
  | holdover ph =>
    have ht : takesLock (p.outs.get n) = decide ((p.outs.get n).policy = .auto ∨ (p.outs.get n).relockPending = true) := by
      rw [takesLock, hl]
    have ho : ownPeriod (p.outs.get n) = ph := by rw [ownPeriod, hl]
    cases hk : lockable p (p.outs.get n) with
    | none =>
      dsimp only
      rw [if_neg (by rw [relockEnds_iff]; simp), own _ (by rw [ho])]
      exact hset (scheduledOut_own (by rw [hl]; simp) (.inl rfl)).symm
    | some x =>
      obtain ⟨faster, k, pr, t⟩ := x
      dsimp only
      by_cases hp : (p.outs.get n).policy = .auto ∨ (p.outs.get n).relockPending = true
      · have ht' : takesLock (p.outs.get n) = true := by rw [ht]; exact decide_eq_true hp
        rw [if_pos hp, if_pos (relockEnds_iff.2 ⟨⟨ph, hl⟩, rfl, ht'⟩), alignAt_eq]
        exact congrArg _ (hset (scheduledOut_taken ht').symm)
      · have ht' : takesLock (p.outs.get n) = false := by rw [ht]; exact decide_eq_false hp
        rw [if_neg hp, if_neg (by rw [relockEnds_iff, ht']; simp), own _ (by rw [ho])]
        exact hset (scheduledOut_own (by rw [hl]; simp) (.inr ht')).symm

/-! ### The whole of steps 3 to 6 -/

/-- A boundary once its lane has been reached: packets, schedule, record (R107). -/
def finishBoundary (n : Ix) (i : Int) (parity : Option Parity) (h : Handover) (p : Part) : Part :=
  p |> placePackets n h |> schedule n i |> recordBoundary n i parity

/-- The output after them, a RELOCK that ends apart. -/
def finishedOut (lk : Lockable) (n : Ix) (i : Int) (parity : Option Parity) (h : Handover) (p : Part) (o : OutUnit) : OutUnit :=
  { scheduledOut lk i (placedOut p n h o) with
    last := ⟨i, parity⟩
    lineNext := 0
    ctr := { (scheduledOut lk i (placedOut p n h o)).ctr with
      boundaries := bump (scheduledOut lk i (placedOut p n h o)).ctr.boundaries } }

theorem lockable_congr {q : Part} {o' : OutUnit} (ha : q.refA = p.refA) (hb : q.refB = p.refB) (hs : o'.select = o.select)
    (hstd : o'.standard = o.standard) : lockable q o' = lockable p o := by
  have href (r : RefId) : getRef q r = getRef p r := by cases r <;> assumption
  have hper : outPeriod o' = outPeriod o := by rw [outPeriod, hstd, outPeriod]
  unfold lockable
  rw [hs]
  cases o.select with
  | none => rfl
  | some r => simp only [href, hper]

theorem relockEnds_congr {lk : Lockable} {o' : OutUnit} (hl : o'.lock = o.lock) (hp : o'.policy = o.policy)
    (hr : o'.relockPending = o.relockPending) : relockEnds lk o' = relockEnds lk o := by
  unfold relockEnds takesLock
  rw [hl, hp, hr]

end Schedule

section Finish
variable {p : Part} {n m : Ix} {i : Int} {parity : Option Parity} {h : Handover}

/-- An output whose reply queue takes the DONE of an operation that ends, if it is its own (R170, R174). -/
def posted (m : Ix) (st : DoneStatus) (op : Option PendingOp) (o : OutUnit) : OutUnit :=
  { o with replies := o.replies ++ endReplies m st op, reserved := o.reserved - (endReplies m st op).length }

theorem posted_none (st : DoneStatus) (o : OutUnit) : posted m st none o = o := by
  simp [posted, endReplies]

theorem endReplies_own {op : PendingOp} {st : DoneStatus} (hm : op.origin = m) :
    endReplies m st (some op) = [⟨op.tag, op.code, .done, doneWord st, op.restart, []⟩] := if_pos hm

theorem endReplies_other {op : PendingOp} {st : DoneStatus} (hm : op.origin ≠ m) : endReplies m st (some op) = [] := if_neg hm

theorem postDone_out (op : PendingOp) (st : DoneStatus) :
    (postDone op st p).outs.get m = posted m st (some op) (p.outs.get m) := by
  unfold postDone postReply
  rw [modOut_outs, Four.get_modify]
  by_cases hm : m = op.origin
  · rw [if_pos hm, posted, endReplies_own hm.symm]; rfl
  · rw [if_neg hm, posted, endReplies_other (Ne.symm hm), List.append_nil]; rfl

theorem endOutOp_out (st : DoneStatus) :
    (endOutOp n st p).outs.get m = posted m st (p.mgmt.outOps.get n) (p.outs.get m) := by
  unfold endOutOp
  cases hop : p.mgmt.outOps.get n with
  | none => exact (posted_none _ _).symm
  | some op => exact postDone_out op st

theorem endLaneOp_out (st : DoneStatus) :
    (endLaneOp n st p).outs.get m = posted m st (p.mgmt.laneOps.get n) (p.outs.get m) := by
  unfold endLaneOp
  cases hop : p.mgmt.laneOps.get n with
  | none => exact (posted_none _ _).symm
  | some op => exact postDone_out op st

/-- The RELOCK that ends at this boundary, if one does (R113). -/
def endedRelock (p : Part) (n : Ix) : Option PendingOp :=
  if relockEnds (lockable p (p.outs.get n)) (p.outs.get n) then p.mgmt.outOps.get n else none

/-- The output that a boundary is of, after its own steps and before the DONE of a RELOCK that ends is posted. -/
def boundaryOut (p : Part) (n : Ix) (i : Int) (parity : Option Parity) (h : Handover) : OutUnit :=
  { finishedOut (lockable p (p.outs.get n)) n i parity h p (p.outs.get n) with
    relockPending := if relockEnds (lockable p (p.outs.get n)) (p.outs.get n) then false else (p.outs.get n).relockPending }

theorem scheduledOut_relockPending (lk : Lockable) (i : Int) (o : OutUnit) : (scheduledOut lk i o).relockPending = o.relockPending := by
  unfold scheduledOut
  split
  · unfold trackedOut
    dsimp only
    split_ifs <;> rfl
  · split
    · split_ifs <;> rfl
    · rfl

theorem scheduled_placed (h : Handover) : schedule n i (placePackets n h p) =
    (if relockEnds (lockable p (p.outs.get n)) (p.outs.get n) then endRelock n .complete else id)
      { p with
        outs := p.outs.modify n (fun o => scheduledOut (lockable p (p.outs.get n)) i (placedOut p n h o))
        mgmt := placedMgmt n (p.outs.get n) p.mgmt } := by
  rw [placePackets_eq, schedule_eq]
  dsimp only
  rw [Four.get_modify_same]
  have hk := lockable_congr (p := p) (o := p.outs.get n) (o' := placedOut p n h (p.outs.get n))
    (q := { p with outs := p.outs.modify n (placedOut p n h), mgmt := placedMgmt n (p.outs.get n) p.mgmt }) rfl rfl rfl rfl
  have hr := relockEnds_congr (lk := lockable p (p.outs.get n)) (o := p.outs.get n) (o' := placedOut p n h (p.outs.get n)) rfl rfl rfl
  rw [hk, hr]
  simp only [modOut, Four.modify_modify]
  split_ifs <;> rfl

/-- What the steps of a boundary after its lane's leave of every block but the outputs (R107, R113). -/
theorem finishBoundary_frame : finishBoundary n i parity h p =
    { p with
      outs := (finishBoundary n i parity h p).outs
      mgmt := { placedMgmt n (p.outs.get n) p.mgmt with
        outOps := if relockEnds (lockable p (p.outs.get n)) (p.outs.get n) then p.mgmt.outOps.set n none else p.mgmt.outOps } } := by
  unfold finishBoundary
  rw [scheduled_placed]
  split_ifs
  · unfold endRelock endOutOp
    split
    · rfl
    · next hop =>
      have hop' : p.mgmt.outOps.get n = none := hop
      rw [← hop', Four.set_get]
      rfl
  · rfl

theorem finishBoundary_out : (finishBoundary n i parity h p).outs.get m =
    posted m .complete (endedRelock p n) (if m = n then boundaryOut p n i parity h else p.outs.get m) := by
  have hrec (q : Part) : (recordBoundary n i parity q).outs.get m = if m = n then
      { q.outs.get n with
        last := ⟨i, parity⟩, lineNext := 0
        ctr := { (q.outs.get n).ctr with boundaries := bump (q.outs.get n).ctr.boundaries } } else q.outs.get m := by
    unfold recordBoundary bumpOut
    rw [modOut_outs, modOut_outs, Four.modify_modify, Four.get_modify]
    split_ifs with e
    · rw [e]
    · rfl
  unfold finishBoundary endedRelock boundaryOut
  rw [hrec, scheduled_placed]
  by_cases hr : relockEnds (lockable p (p.outs.get n)) (p.outs.get n) = true
  · simp only [hr, if_true]
    unfold endRelock
    by_cases hm : m = n
    · subst hm
      rw [if_pos rfl, if_pos rfl, endOutOp_out]
      simp only [modOut_outs, Four.get_modify_same]
      rfl
    · rw [if_neg hm, if_neg hm, endOutOp_out]
      simp only [modOut_outs, Four.get_modify_other _ _ hm]
      rfl
  · replace hr : relockEnds (lockable p (p.outs.get n)) (p.outs.get n) = false := by simpa using hr
    simp only [hr, Bool.false_eq_true, if_false, posted_none, id]
    by_cases hm : m = n
    · subst hm
      have hp : (scheduledOut (lockable p (p.outs.get m)) i (placedOut p m h (p.outs.get m))).relockPending =
        (p.outs.get m).relockPending := scheduledOut_relockPending _ _ _
      rw [if_pos rfl, if_pos rfl, Four.get_modify_same, ← hp]
      rfl
    · rw [if_neg hm, if_neg hm]
      exact Four.get_modify_other _ _ hm

end Finish

end Sys2Proof.Machine.BoundaryParts
end

section
/-! SUPPORT. What a boundary's lane leaves of the outputs and the records: at most the DONE of one operation of its own
(R61, R71, R128, R130, R134, R163, R174). -/

namespace Sys2Proof.Machine.LaneWorks

open Frames Keeping LaneValues LaneEnds FaultValues LockLoss BoundaryParts LaneFaults

section Work
variable {f : Bool} {n m : Ix} {p q r : Part}

/-- `q` is `p` after work of lane Ln that ends at most its own pending operation: COMPLETE, or where `f` allows it with
another status. -/
structure LaneWork (f : Bool) (n : Ix) (p q : Part) : Prop where
  rest : { q with
    feeds := p.feeds, store := p.store, lanes := p.lanes, outs := p.outs, mgmt := p.mgmt, fault := p.fault } = p
  mgmt : { q.mgmt with laneOps := p.mgmt.laneOps } = p.mgmt
  others : ∀ m, m ≠ n → q.mgmt.laneOps.get m = p.mgmt.laneOps.get m
  record : q.mgmt.laneOps.get n = p.mgmt.laneOps.get n ∨ q.mgmt.laneOps.get n = none
  fatal : q.fault.deviceFatal = p.fault.deviceFatal
  outs : ∃ st : DoneStatus, (f = false → st = .complete) ∧ ∀ m, q.outs.get m =
    { posted m st (endedIn (p.mgmt.laneOps.get n) (q.mgmt.laneOps.get n)) (p.outs.get m) with
      notices := (q.outs.get m).notices }

theorem endedIn_same (a : Option PendingOp) : endedIn a a = none := by cases a <;> rfl
theorem endedIn_none (a : Option PendingOp) : endedIn a none = a := rfl

/-- Work that touches no reply queue and no record. -/
theorem LaneWork.of_same (ho : ∀ m, q.outs.get m = { p.outs.get m with notices := (q.outs.get m).notices })
    (hm : q.mgmt = p.mgmt) (hd : q.fault.deviceFatal = p.fault.deviceFatal) (hr : { q with
      feeds := p.feeds, store := p.store, lanes := p.lanes, outs := p.outs, mgmt := p.mgmt, fault := p.fault } = p) :
    LaneWork f n p q where
  fatal := hd
  rest := hr
  mgmt := by rw [hm]
  others m _ := by rw [hm]
  record := .inl (by rw [hm])
  outs := ⟨.complete, fun _ => rfl, fun m => by rw [hm, endedIn_same, posted_none]; exact ho m⟩

theorem LaneWork.refl (p : Part) : LaneWork f n p p := .of_same (fun _ => rfl) rfl rfl rfl

theorem LaneWork.trans (h : LaneWork f n p q) (g : LaneWork f n q r) : LaneWork f n p r where
  rest := by
    have h1 := h.rest
    have h2 := g.rest
    rw [← h2] at h1
    exact h1
  mgmt := by
    have h1 := h.mgmt
    have h2 := g.mgmt
    rw [← h2] at h1
    exact h1
  others m hm := (g.others m hm).trans (h.others m hm)
  fatal := g.fatal.trans h.fatal
  record := by
    rcases g.record with e | e
    · rw [e]; exact h.record
    · exact .inr e
  outs := by
    obtain ⟨st, hs, ho⟩ := h.outs
    obtain ⟨st', hs', ho'⟩ := g.outs
    have hsame (e : r.mgmt.laneOps.get n = q.mgmt.laneOps.get n) : ∃ st : DoneStatus, (f = false → st = .complete) ∧
        ∀ m, r.outs.get m = { posted m st (endedIn (p.mgmt.laneOps.get n) (r.mgmt.laneOps.get n)) (p.outs.get m) with
          notices := (r.outs.get m).notices } := by
      refine ⟨st, hs, fun m => ?_⟩
      rw [ho' m, e, endedIn_same, posted_none, ho m]
    rcases g.record with e | e
    · exact hsame e
    rcases h.record with e' | e'
    · refine ⟨st', hs', fun m => ?_⟩
      have hq := ho m
      rw [e', endedIn_same, posted_none] at hq
      rw [ho' m, e']
      generalize (q.outs.get m).notices = ns at hq
      rw [hq]
      rfl
    · exact hsame (e.trans e'.symm)

theorem work_modLane (g : Lane → Lane) (p : Part) : LaneWork f n p (modLane n g p) := .of_same (fun _ => rfl) rfl rfl rfl

theorem work_latchSet (c : Cond) (p : Part) : LaneWork f n p (latchSet c p) :=
  .of_same (mild_latchSet c p).outs (by simp) (by simp) (by simp only [latchSet_frame])

theorem work_report (l : LogId) (c : ErrCode) (d : Detail) (p : Part) : LaneWork f n p (report l c d p) :=
  .of_same (fun _ => rfl) rfl (by simp) rfl

theorem work_pinSlot (k : SlotIx) (p : Part) : LaneWork f n p (pinSlot m k p).1 :=
  .of_same (mild_pinSlot m k p).outs (storeBlind_mgmt.pinSlot m k) (mild_pinSlot m k p).deviceFatal (by
    unfold pinSlot
    dsimp only
    split <;> rfl)

theorem work_endLaneOp (st : DoneStatus) (hst : f = false → st = .complete) (p : Part) : LaneWork f n p (endLaneOp n st p) where
  rest := by simp only [endLaneOp_frame]
  mgmt := by unfold endLaneOp; split <;> rfl
  others m hm := by rw [endLaneOp_laneOps, Four.get_set_other _ _ hm]
  record := .inr (by rw [endLaneOp_laneOps, Four.get_set_same])
  fatal := by simp
  outs := ⟨st, hst, fun m => by rw [endLaneOp_out, endLaneOp_laneOps, Four.get_set_same, endedIn_none]⟩

theorem work_commitSwap (p : Part) : LaneWork f n p (commitSwap n p) := by
  unfold commitSwap
  split
  · exact (work_modLane _ p).trans (work_endLaneOp .complete (fun _ => rfl) _)
  · exact .refl p

theorem work_pinAll (source : Ix) : ∀ (ks : List SlotIx) (p : Part), LaneWork f n p (pinAll n source ks p)
  | [], p => .refl p
  | k :: ks, p => by
    unfold pinAll
    dsimp only
    refine LaneWork.trans ?_ (work_pinAll source ks _)
    split
    · exact (work_pinSlot k p).trans (work_modLane _ _)
    · exact work_pinSlot k p

theorem work_enterSlate (p : Part) : LaneWork f n p (enterSlate n p) :=
  (((work_modLane _ p).trans (work_latchSet _ _)).trans (work_modLane _ _)).trans (work_commitSwap _)

theorem work_acquire (p : Part) : LaneWork f n p (acquire n p) := by
  have h : LaneWork f n p (bumpLane n (fun c => { c with acquisitions := bump c.acquisitions })
      (modLane n (fun l => { l with state := .converting }) p)) := (work_modLane _ p).trans (work_modLane _ _)
  unfold acquire
  dsimp only
  split
  · exact h.trans ((work_endLaneOp .complete (fun _ => rfl) _).trans (work_modLane _ _))
  · exact h

theorem work_holdJob (p : Part) : LaneWork f n p (holdJob n p) := by
  have h : LaneWork f n p (bumpLane n (fun c => { c with heldJobs := bump c.heldJobs })
      (modLane n (fun l => { l with holdCount := l.holdCount + 1 }) p)) := (work_modLane _ p).trans (work_modLane _ _)
  unfold holdJob
  dsimp only
  split
  · exact h.trans (work_enterSlate _)
  · exact h

theorem work_jobStateChange (p : Part) : LaneWork f n p (jobStateChange n p) := by
  unfold jobStateChange
  split
  · split
    · exact work_acquire p
    · exact .refl p
  · exact work_holdJob p
  all_goals exact .refl p

theorem work_timecode (j : Nat) (p : Part) : LaneWork f n p (timecode n j p).1 := by
  unfold timecode
  dsimp only
  split
  · exact .refl p
  · exact (work_modLane _ p).trans (work_modLane _ _)

/-- Work that leaves outputs but for their notices, and the records. -/
theorem work_of_mild (h : Mild p q) (hm : q.mgmt = p.mgmt) (hr : { q with
      feeds := p.feeds, store := p.store, lanes := p.lanes, outs := p.outs, mgmt := p.mgmt, fault := p.fault } = p) :
    LaneWork f n p q := .of_same h.outs hm h.deviceFatal hr

theorem work_clearLane (p : Part) : LaneWork f n p (clearLane n p) :=
  work_of_mild (mild_clearLane n p) (by simp) (by simp only [clearLane_frame])

theorem work_leaveRunning (s : LaneState) (p : Part) : LaneWork f n p (leaveRunning n s p) :=
  work_of_mild (mild_leaveRunning n s p) (by simp) (by simp only [leaveRunning_frame])

theorem storeBlind_rest (p : Part) : StoreBlind (fun q => ({ q with
    feeds := p.feeds, store := p.store, lanes := p.lanes, outs := p.outs, mgmt := p.mgmt, fault := p.fault } : Part)) :=
  ⟨fun _ _ => rfl, fun _ _ => rfl, fun _ _ => by simp only [latchSet_frame]⟩

theorem work_endJob (p : Part) : LaneWork f n p (endJob n p) := by
  by_cases h : (p.lanes.get n).job.inFlight = true
  · refine work_of_mild (mild_endJob n p) ?_ ?_
    · rw [endJob, if_pos h]
      exact unpinJob_keeps _ _ storeBlind_mgmt
    · rw [endJob, if_pos h]
      exact unpinJob_keeps _ _ (storeBlind_rest p)
  · rw [endJob, if_neg h]
    exact .refl p

theorem work_laneFatal (p : Part) : LaneWork true n p (laneFatal n p) :=
  ((((((work_clearLane p).trans (work_endLaneOp .faulted (by simp) _)).trans (work_modLane _ _)).trans (work_modLane _ _)).trans
    (work_leaveRunning _ _)).trans (work_latchSet _ _)).trans (work_modLane _ _)

end Work

/-! ### The lane at a boundary -/

section Boundary
variable {n : Ix} {i : Int} {parity : Option Parity} {p : Part}

/-- A job start up to its carried packets: swap, snapshot, pins, counters and the change of state (R61 to R74, R128, R130). -/
def jobBegun (n : Ix) (i : Int) (parity : Option Parity) (p : Part) : Part :=
  let q := commitSwap n p
  let job := jobAtStart q n i parity
  let l := q.lanes.get n
  q |> modLane n (fun l => { l with job := job, jobNumber := l.jobNumber + 1 })
    |> pinAll n l.profile.source (slotsToPin job)
    |> bumpJob n (countJob l.state job)
    |> jobStateChange n

/-- The item with a parity failure that a job start takes, if there is one (R145, R146). -/
def failedItem (n : Ix) (t : Int) (p : Part) : Option CarryItem :=
  (dueItems t (p.lanes.get n).carry).find? (fun i => !i.parityOk)

/-- The detail of a CARRY_PARITY report (R146). -/
def carryDetail (bad : CarryItem) : Detail :=
  match bad.source with
  | some q => .sequence q
  | none => .none

/-- The lane after the delivery of its due items (R145). -/
def deliveredLane (t : Int) (l : Lane) : Lane :=
  { l with
    carry := l.carry.drop (dueItems t l.carry).length
    carryCtr := { l.carryCtr with packetsDelivered := bumpBy (dueItems t l.carry).length l.carryCtr.packetsDelivered } }

theorem deliver_failed {t : Int} {bad : CarryItem} (h : failedItem n t p = some bad) :
    deliver n t p = (faultedBy n .carryParity (carryDetail bad) p, none) := by
  unfold failedItem at h
  unfold deliver
  dsimp only
  rw [h]
  rfl

theorem deliver_sound {t : Int} (h : failedItem n t p = none) : deliver n t p =
    (modLane n (deliveredLane t) p, some ((dueItems t (p.lanes.get n).carry).map CarryItem.packet)) := by
  unfold failedItem at h
  unfold deliver
  dsimp only
  rw [h]
  simp only [bumpCarry, modLane, Four.modify_modify]
  rfl

/-- The target's latency is the one of the profile that the swap leaves (R63). -/
theorem startJob_failed {bad : CarryItem}
    (h : failedItem n (i - ((commitSwap n p).lanes.get n).profile.latency) (jobBegun n i parity p) = some bad) :
    startJob n i parity p = (faultedBy n .carryParity (carryDetail bad) (jobBegun n i parity p), ⟨none, []⟩) := by
  have hd := deliver_failed h
  unfold startJob
  dsimp only
  unfold jobBegun at hd
  rw [hd]
  rfl

/-- The part after a job start that hands its due items on (R145, R152). -/
def jobStarted (n : Ix) (i : Int) (parity : Option Parity) (p : Part) : Part :=
  (timecode n ((commitSwap n p).lanes.get n).jobNumber
    (modLane n (deliveredLane (i - ((commitSwap n p).lanes.get n).profile.latency)) (jobBegun n i parity p))).1

/-- What a job start hands its output (R116). -/
def jobHandover (n : Ix) (i : Int) (parity : Option Parity) (p : Part) : Handover :=
  ⟨(timecode n ((commitSwap n p).lanes.get n).jobNumber
    (modLane n (deliveredLane (i - ((commitSwap n p).lanes.get n).profile.latency)) (jobBegun n i parity p))).2,
   (dueItems (i - ((commitSwap n p).lanes.get n).profile.latency) ((jobBegun n i parity p).lanes.get n).carry).map CarryItem.packet⟩

theorem startJob_sound
    (h : failedItem n (i - ((commitSwap n p).lanes.get n).profile.latency) (jobBegun n i parity p) = none) :
    startJob n i parity p = (jobStarted n i parity p, jobHandover n i parity p) := by
  have hd := deliver_sound h
  unfold startJob jobStarted jobHandover
  dsimp only
  unfold jobBegun at hd ⊢
  rw [hd]

theorem work_jobBegun {f : Bool} : LaneWork f n p (jobBegun n i parity p) :=
  ((((work_commitSwap p).trans (work_modLane _ _)).trans (work_pinAll _ _ _)).trans (work_modLane _ _)).trans
    (work_jobStateChange _)

theorem work_jobStarted {f : Bool} : LaneWork f n p (jobStarted n i parity p) :=
  (work_jobBegun.trans (work_modLane _ _)).trans (work_timecode _ _)

/-- A boundary's lane ends at most its own pending operation (R61, R163, R174). -/
theorem work_laneBoundary (n : Ix) (i : Int) (parity : Option Parity) (p : Part) :
    LaneWork true n p (laneBoundary n i parity p).1 := by
  unfold laneBoundary
  split
  · cases h : failedItem n (i - ((commitSwap n p).lanes.get n).profile.latency) (jobBegun n i parity p) with
    | some bad =>
      rw [startJob_failed h]
      exact work_jobBegun.trans ((work_report _ _ _ _).trans (work_laneFatal _))
    | none =>
      rw [startJob_sound h]
      exact work_jobStarted
  · exact .refl p

end Boundary

end Sys2Proof.Machine.LaneWorks
end

section
/-! SUPPORT. A boundary as a whole: where it reaches its lane, and the output that it leaves (R107 to R117). -/

namespace Sys2Proof.Machine.Boundaries

open Frames Keeping LaneValues LaneEnds FaultValues LockLoss BoundaryParts LaneFaults LaneWorks

/-! ### The output that a boundary leaves -/

section Bare
variable {β : Type} {g : OutUnit → β} {lk : Lockable} {i : Int} {parity : Option Parity} {o : OutUnit}

/-- A view of an output that shows neither queues and packets nor their counters. -/
def ScheduleView (g : OutUnit → β) : Prop := ∀ (o : OutUnit) (rs : List Reply) (k : Nat) (ns : List Cond)
  (ps : List SentPacket) (a b : Nat), g { o with
    replies := rs, reserved := k, notices := ns, packets := ps, ctr := { o.ctr with repliesSent := a, noticesSent := b } } = g o

theorem ScheduleView.post (hg : ScheduleView g) : PostBlind g := fun o rs k ns =>
  hg o rs k ns o.packets o.ctr.repliesSent o.ctr.noticesSent

/-- The output after a boundary, its queues and packets apart (R107 to R113). -/
def bareOut (lk : Lockable) (i : Int) (parity : Option Parity) (o : OutUnit) : OutUnit :=
  { scheduledOut lk i o with
    last := ⟨i, parity⟩
    lineNext := 0
    relockPending := if relockEnds lk o then false else o.relockPending
    ctr := { (scheduledOut lk i o).ctr with boundaries := bump (scheduledOut lk i o).ctr.boundaries } }

/-- The schedule does not look at queues and packets. -/
theorem scheduledOut_replaced (lk : Lockable) (i : Int) (o : OutUnit) (rs : List Reply) (k : Nat) (ns : List Cond)
    (ps : List SentPacket) (a b : Nat) :
    scheduledOut lk i { o with
      replies := rs, reserved := k, notices := ns, packets := ps, ctr := { o.ctr with repliesSent := a, noticesSent := b } } =
    { scheduledOut lk i o with
      replies := rs, reserved := k, notices := ns, packets := ps
      ctr := { (scheduledOut lk i o).ctr with repliesSent := a, noticesSent := b } } := by
  obtain ⟨std, lock, sel, off, pol, last, next, np, rp, rs', k', ns', ln, ps', lo, ctr⟩ := o
  cases lock with
  | free => cases lk <;> rfl
  | locked al =>
    rw [scheduledOut_locked rfl, scheduledOut_locked rfl]
    by_cases hp : PullsIn i al ⟨std, .locked al, sel, off, pol, last, next, np, rp, rs', k', ns', ln, ps', lo, ctr⟩
    · rw [trackedOut_pull hp, trackedOut_pull (by exact hp)]
      rfl
    · rw [trackedOut_step hp, trackedOut_step (by exact hp)]
      rfl
  | holdover ph =>
    cases lk with
    | none => rfl
    | some x =>
      cases ht : takesLock ⟨std, .holdover ph, sel, off, pol, last, next, np, rp, rs', k', ns', ln, ps', lo, ctr⟩ with
      | true => rw [scheduledOut_taken ht, scheduledOut_taken (by exact ht)]; rfl
      | false =>
        rw [scheduledOut_own (by simp) (.inr ht), scheduledOut_own (by simp) (.inr (by exact ht))]
        rfl

/-- The schedule changes no queue. -/
theorem scheduledOut_queue (lk : Lockable) (i : Int) (o : OutUnit) :
    (scheduledOut lk i o).replies = o.replies ∧ (scheduledOut lk i o).reserved = o.reserved := by
  have h := scheduledOut_replaced lk i o o.replies o.reserved o.notices o.packets o.ctr.repliesSent o.ctr.noticesSent
  exact ⟨by have e := congrArg OutUnit.replies h; exact e, by have e := congrArg OutUnit.reserved h; exact e⟩

end Bare

section Left
variable {β : Type} {g : OutUnit → β} {f : Bool} {n m : Ix} {i : Int} {parity : Option Parity} {h : Handover} {b p : Part}

theorem settle_outOps (p : Part) : (settle p).mgmt.outOps = p.mgmt.outOps := by
  have hlane (k : Ix) (q : Part) : (deviceFatalLane k q).mgmt.outOps = q.mgmt.outOps := by
    rcases deviceFatalLane_mgmt (n := k) (p := q) with e | e <;> rw [e]
  unfold settle
  split
  · dsimp only
    split
    · rfl
    · show (deviceFatalLane 3 (deviceFatalLane 2 (deviceFatalLane 1 (deviceFatalLane 0 _)))).mgmt.outOps = _
      rw [hlane, hlane, hlane, hlane, storeBlind_mgmt.latch]
      rfl
  · rfl

/-- What lane work never changes, taken from the part as a whole. -/
theorem work_kept {α : Type} (hw : LaneWork f n b p) (v : Part → α)
    (hv : ∀ (q : Part) (fs : Four Feed) (st : Store) (ls : Four Lane) (os : Four OutUnit) (u : Mgmt) (w : FaultUnit),
      v { q with feeds := fs, store := st, lanes := ls, outs := os, mgmt := u, fault := w } = v q) : v p = v b :=
  (hv p _ _ _ _ _ _).symm.trans (congrArg v hw.rest)

theorem work_refs (hw : LaneWork f n b p) : p.refA = b.refA ∧ p.refB = b.refB ∧ p.straps = b.straps ∧ p.links = b.links
    ∧ p.timebase = b.timebase ∧ p.mute = b.mute :=
  ⟨work_kept hw Part.refA fun _ _ _ _ _ _ _ => rfl, work_kept hw Part.refB fun _ _ _ _ _ _ _ => rfl,
   work_kept hw Part.straps fun _ _ _ _ _ _ _ => rfl, work_kept hw Part.links fun _ _ _ _ _ _ _ => rfl,
   work_kept hw Part.timebase fun _ _ _ _ _ _ _ => rfl, work_kept hw Part.mute fun _ _ _ _ _ _ _ => rfl⟩

theorem work_outOps (hw : LaneWork f n b p) : p.mgmt.outOps = b.mgmt.outOps ∧ p.mgmt.lost = b.mgmt.lost :=
  ⟨by have e := congrArg Mgmt.outOps hw.mgmt; exact e, by have e := congrArg Mgmt.lost hw.mgmt; exact e⟩

/-- The output after its lane's work, that work's posts apart. -/
theorem work_out (hw : LaneWork f n b p) (m : Ix) : p.outs.get m = { b.outs.get m with
    replies := (p.outs.get m).replies, reserved := (p.outs.get m).reserved, notices := (p.outs.get m).notices } := by
  obtain ⟨st, -, ho⟩ := hw.outs
  have := ho m
  generalize (p.outs.get m).notices = ns at this
  rw [this]
  rfl

theorem work_lockable (hw : LaneWork f n b p) : lockable p (p.outs.get n) = lockable b (b.outs.get n) := by
  obtain ⟨ha, hb, -⟩ := work_refs hw
  have ho := work_out hw n
  exact lockable_congr ha hb (by rw [ho]) (by rw [ho])

theorem work_relockEnds (hw : LaneWork f n b p) :
    relockEnds (lockable p (p.outs.get n)) (p.outs.get n) = relockEnds (lockable b (b.outs.get n)) (b.outs.get n) := by
  have ho := work_out hw n
  rw [work_lockable hw]
  exact relockEnds_congr (by rw [ho]) (by rw [ho]) (by rw [ho])

theorem work_endedRelock (hw : LaneWork f n b p) : endedRelock p n = endedRelock b n := by
  unfold endedRelock
  rw [work_relockEnds hw, (work_outOps hw).1]

theorem boundaryOut_bare (hg : ScheduleView g) (hw : LaneWork f n b p) :
    g (boundaryOut p n i parity h) = g (bareOut (lockable b (b.outs.get n)) i parity (b.outs.get n)) := by
  have ho := work_out hw n
  unfold boundaryOut finishedOut
  rw [work_relockEnds hw, work_lockable hw]
  generalize lockable b (b.outs.get n) = lk
  generalize (p.outs.get n).replies = rs, (p.outs.get n).reserved = k, (p.outs.get n).notices = ns at ho
  rw [ho]
  unfold placedOut
  have hs (ns' : List Cond) (ps : List SentPacket) (a c : Nat) := scheduledOut_replaced lk i (b.outs.get n) (rs.drop 2) k ns' ps a c
  dsimp only
  rw [hs]
  exact hg (bareOut lk i parity (b.outs.get n)) _ _ _ _ _ _

/-- What the views of the schedule show of the output after a boundary (R107 to R113). -/
theorem boundary_view (hg : ScheduleView g) (hw : LaneWork f n b p) :
    g ((settle (finishBoundary n i parity h p)).outs.get n) = g (bareOut (lockable b (b.outs.get n)) i parity (b.outs.get n)) := by
  rw [hg.post.settle, finishBoundary_out, if_pos rfl]
  exact (hg.post _ _ _ _).trans (boundaryOut_bare hg hw)

theorem boundary_outOps (hw : LaneWork f n b p) : (settle (finishBoundary n i parity h p)).mgmt.outOps =
    if relockEnds (lockable b (b.outs.get n)) (b.outs.get n) then b.mgmt.outOps.set n none else b.mgmt.outOps := by
  rw [settle_outOps, finishBoundary_frame, ← work_relockEnds hw, (work_outOps hw).1]

/-- The reply queues after a boundary that stays out of device fatal: two replies placed, and what ended posted (R116,
R117, R174). -/
theorem boundary_replies (hw : LaneWork f n b p)
    (hcalm : (settle (finishBoundary n i parity h p)).fault.deviceFatal = p.fault.deviceFatal) :
    ∃ st : DoneStatus, (f = false → st = .complete) ∧ ∀ m,
      ((settle (finishBoundary n i parity h p)).outs.get m).replies =
          ((b.outs.get m).replies ++ endReplies m st (endedIn (b.mgmt.laneOps.get n) (p.mgmt.laneOps.get n))).drop
            (if m = n then 2 else 0) ++ endReplies m .complete (endedRelock b n)
        ∧ ((settle (finishBoundary n i parity h p)).outs.get m).reserved = (b.outs.get m).reserved
            - (endReplies m st (endedIn (b.mgmt.laneOps.get n) (p.mgmt.laneOps.get n))).length
            - (endReplies m .complete (endedRelock b n)).length := by
  obtain ⟨st, hst, ho⟩ := hw.outs
  refine ⟨st, hst, fun m => ?_⟩
  have hf : (finishBoundary n i parity h p).fault = p.fault := by rw [finishBoundary_frame]
  rw [settle_calm (hcalm.trans (congrArg FaultUnit.deviceFatal hf).symm)]
  dsimp only
  rw [finishBoundary_out, work_endedRelock hw]
  have hm := ho m
  have hrs : (p.outs.get m).replies = (b.outs.get m).replies ++
      endReplies m st (endedIn (b.mgmt.laneOps.get n) (p.mgmt.laneOps.get n)) := by rw [hm]; rfl
  have hk : (p.outs.get m).reserved = (b.outs.get m).reserved -
      (endReplies m st (endedIn (b.mgmt.laneOps.get n) (p.mgmt.laneOps.get n))).length := by rw [hm]; rfl
  by_cases e : m = n
  · subst e
    rw [if_pos rfl, if_pos rfl]
    have hb : (boundaryOut p m i parity h).replies = (p.outs.get m).replies.drop 2
        ∧ (boundaryOut p m i parity h).reserved = (p.outs.get m).reserved :=
      scheduledOut_queue _ i (placedOut p m h (p.outs.get m))
    rw [← hrs, ← hk, ← hb.1, ← hb.2]
    exact ⟨rfl, rfl⟩
  · rw [if_neg e, if_neg e, List.drop_zero, ← hrs, ← hk]
    exact ⟨rfl, rfl⟩

end Left

end Sys2Proof.Machine.Boundaries
end

section
/-! Boundaries and their intervals (O16): R105, R107 to R113, R115, R117, R174. -/

namespace Sys2Proof.Machine.BoundaryIntervals

open Frames Keeping LaneValues LaneEnds FaultValues LockLoss BoundaryParts LaneFaults LaneWorks Boundaries

/-! ### Aligned instants -/

section Aligned
variable {base x : Int} {po : Nat}

theorem aligned_le {i j : Nat} (h : i ≤ j) : alignedInstant base po i ≤ alignedInstant base po j := by
  have : i * po ≤ j * po := Nat.mul_le_mul_right po h
  unfold alignedInstant
  omega

theorem aligned_succ (i : Nat) : alignedInstant base po (i + 1) = alignedInstant base po i + po := by
  unfold alignedInstant
  rw [Nat.add_mul, Nat.one_mul]
  omega

/-- The first index names the first aligned instant at or after `x` (R108). -/
theorem firstIndex_le (h : 0 < po) : x ≤ alignedInstant base po (firstIndex base po x) := by
  unfold firstIndex alignedInstant
  have hpo : (0 : Int) < po := by omega
  have hlt := Int.lt_mul_ediv_self_add (x := x - base + po - 1) hpo
  generalize (x - base + po - 1) / (po : Int) = c at hlt ⊢
  have hc : c ≤ (c.toNat : Int) := Int.self_le_toNat c
  have hmul : (po : Int) * c ≤ po * (c.toNat : Int) := mul_le_mul_of_nonneg_left hc hpo.le
  push_cast
  rw [mul_comm (c.toNat : Int)]
  omega

theorem lt_of_lt_firstIndex (h : 0 < po) {j : Nat} (hj : j < firstIndex base po x) : alignedInstant base po j < x := by
  unfold firstIndex at hj
  have hpo : (0 : Int) < po := by omega
  have hle := Int.mul_ediv_self_le (x := x - base + po - 1) (k := (po : Int)) hpo.ne'
  generalize (x - base + po - 1) / (po : Int) = c at hle hj
  have hc : (j : Int) + 1 ≤ c := by omega
  have hmul : (po : Int) * (j + 1) ≤ po * c := mul_le_mul_of_nonneg_left hc hpo.le
  unfold alignedInstant
  push_cast
  rw [mul_comm (j : Int)]
  rw [mul_add, mul_one] at hmul
  omega

/-- The nearest index is at no more distance than any other (R109). -/
theorem nearestIndex_le (h : 0 < po) (j : Nat) :
    (alignedInstant base po (nearestIndex base po x) - x).natAbs ≤ (alignedInstant base po j - x).natAbs := by
  have hfirst := firstIndex_le (base := base) (x := x) h
  have hbelow (i : Nat) := lt_of_lt_firstIndex (base := base) (x := x) h (j := i)
  unfold nearestIndex
  generalize firstIndex base po x = i at hfirst hbelow ⊢
  dsimp only
  rcases Nat.eq_zero_or_pos i with rfl | hi
  · have := aligned_le (base := base) (po := po) (Nat.zero_le j)
    rw [if_neg (by omega)]
    omega
  · have hprev := hbelow (i - 1) (by omega)
    rcases Nat.lt_or_ge j i with hj | hj
    · have := aligned_le (base := base) (po := po) (i := j) (j := i - 1) (by omega)
      split_ifs <;> omega
    · have := aligned_le (base := base) (po := po) hj
      split_ifs <;> omega

end Aligned

/-! ### The schedule of an output -/

section Sched
variable {lk : Lockable} {i : Int} {o : OutUnit}

theorem outPeriod_pos (o : OutUnit) : 0 < outPeriod o :=
  lt_of_lt_of_le (by decide) (HistoryLaw.periodOf_pos o.standard)

/-- Standard, select and offset stand through a boundary; only its own counters move (R107). -/
theorem scheduledOut_kept (lk : Lockable) (i : Int) (o : OutUnit) :
    (scheduledOut lk i o).standard = o.standard ∧ (scheduledOut lk i o).select = o.select
      ∧ (scheduledOut lk i o).offset = o.offset ∧ (scheduledOut lk i o).ctr.boundaries = o.ctr.boundaries
      ∧ (scheduledOut lk i o).ctr.standardChanges = o.ctr.standardChanges := by
  cases hl : o.lock with
  | locked al =>
    rw [scheduledOut_locked hl]
    by_cases hp : PullsIn i al o
    · rw [trackedOut_pull hp]; exact ⟨rfl, rfl, rfl, rfl, rfl⟩
    · rw [trackedOut_step hp]; exact ⟨rfl, rfl, rfl, rfl, rfl⟩
  | free =>
    cases lk with
    | none => rw [scheduledOut_own (by rw [hl]; simp) (.inl rfl)]; exact ⟨rfl, rfl, rfl, rfl, rfl⟩
    | some x => rw [scheduledOut_taken (by rw [takesLock, hl])]; exact ⟨rfl, rfl, rfl, rfl, rfl⟩
  | holdover ph =>
    cases lk with
    | none => rw [scheduledOut_own (by rw [hl]; simp) (.inl rfl)]; exact ⟨rfl, rfl, rfl, rfl, rfl⟩
    | some x =>
      cases ht : takesLock o with
      | true => rw [scheduledOut_taken ht]; exact ⟨rfl, rfl, rfl, rfl, rfl⟩
      | false => rw [scheduledOut_own (by rw [hl]; simp) (.inr ht)]; exact ⟨rfl, rfl, rfl, rfl, rfl⟩

/-- The parity of an aligned instant (R110). -/
theorem placedParity_eq (il faster : Bool) (k x : Nat) : placedParity il faster k x =
    (if il = true ∧ faster = false ∧ (k = 2 ∨ k = 4) then some (if x % 2 = 0 then Parity.top else .bottom) else none) := by
  unfold placedParity
  cases il <;> cases faster <;> simp

/-- The next boundary of an output that takes a reference: the first aligned instant at or after one period later (R108). -/
theorem lockedOut_next (al : Alignment) : ∃ x : Nat,
    (lockedOut i al o).next = al.m + (o.offset : Int) + ((x * outPeriod o : Nat) : Int)
      ∧ i + (outPeriod o : Int) ≤ (lockedOut i al o).next
      ∧ (∀ j : Nat, j < x → al.m + (o.offset : Int) + ((j * outPeriod o : Nat) : Int) < i + (outPeriod o : Int))
      ∧ (lockedOut i al o).nextParity = placedParity (stdRow o.standard).interlaced al.faster al.k x :=
  ⟨_, rfl, firstIndex_le (outPeriod_pos o), fun _ hj => lt_of_lt_firstIndex (outPeriod_pos o) hj, rfl⟩

/-- The next boundary of a LOCKED output: pulled in, or stepped (R109). -/
theorem trackedOut_next (al : Alignment) : ∃ x : Nat,
    (trackedOut i al o).next = al.m + (o.offset : Int) + ((x * outPeriod o : Nat) : Int)
      ∧ (trackedOut i al o).nextParity = placedParity (stdRow o.standard).interlaced al.faster al.k x
      ∧ ((∃ j : Nat, (al.m + (o.offset : Int) + ((j * outPeriod o : Nat) : Int) - (i + (outPeriod o : Int))).natAbs
            ≤ outPeriod o / 1024) →
        ((trackedOut i al o).next - (i + (outPeriod o : Int))).natAbs ≤ outPeriod o / 1024
          ∧ (trackedOut i al o).ctr.phaseSteps = o.ctr.phaseSteps)
      ∧ ((∀ j : Nat, outPeriod o / 1024
            < (al.m + (o.offset : Int) + ((j * outPeriod o : Nat) : Int) - (i + (outPeriod o : Int))).natAbs) →
        i + (outPeriod o : Int) ≤ (trackedOut i al o).next
          ∧ (∀ j : Nat, j < x → al.m + (o.offset : Int) + ((j * outPeriod o : Nat) : Int) < i + (outPeriod o : Int))
          ∧ (trackedOut i al o).ctr.phaseSteps = bump o.ctr.phaseSteps) := by
  by_cases hp : PullsIn i al o
  · rw [trackedOut_pull hp]
    exact ⟨_, rfl, rfl, fun _ => ⟨hp, rfl⟩, fun h => absurd hp (Nat.not_le.2 (h _))⟩
  · rw [trackedOut_step hp]
    refine ⟨_, rfl, rfl, fun ⟨j, hj⟩ => ?_, fun _ => ⟨firstIndex_le (outPeriod_pos o),
      fun _ hj => lt_of_lt_firstIndex (outPeriod_pos o) hj, rfl⟩⟩
    exact absurd ((nearestIndex_le (outPeriod_pos o) j).trans hj) hp

theorem trackedOut_lock (al : Alignment) : (trackedOut i al o).lock = o.lock
    ∧ (trackedOut i al o).ctr.alignments = o.ctr.alignments := by
  by_cases hp : PullsIn i al o
  · rw [trackedOut_pull hp]; exact ⟨rfl, rfl⟩
  · rw [trackedOut_step hp]; exact ⟨rfl, rfl⟩

/-- The interval law: what a marker not after the boundary and an offset below Po allow (R107 to R112). -/
theorem scheduledOut_interval (hoff : o.offset < outPeriod o) (hm : ∀ al, o.lock = .locked al → al.m ≤ i)
    (hph : ∀ ph, o.lock = .holdover ph → (ph - (outPeriod o : Int)).natAbs ≤ outPeriod o * 300 / 1000000)
    (hlk : ∀ x, lk = some x → (x.2.2.2 : Int) ≤ i) :
    i + (outPeriod o : Int) - (outPeriod o / 1024 : Nat) ≤ (scheduledOut lk i o).next
      ∧ (scheduledOut lk i o).next ≤ i + 2 * (outPeriod o : Int) - 1 := by
  have hpos := outPeriod_pos o
  have first (b : Int) (hb : b < i + (outPeriod o : Int)) :
      i + (outPeriod o : Int) ≤ alignedInstant b (outPeriod o) (firstIndex b (outPeriod o) (i + (outPeriod o : Int)))
        ∧ alignedInstant b (outPeriod o) (firstIndex b (outPeriod o) (i + (outPeriod o : Int))) < i + 2 * (outPeriod o : Int) := by
    have hle := firstIndex_le (base := b) (x := i + (outPeriod o : Int)) hpos
    have hlt (j : Nat) := lt_of_lt_firstIndex (base := b) (x := i + (outPeriod o : Int)) hpos (j := j)
    generalize firstIndex b (outPeriod o) (i + (outPeriod o : Int)) = x at hle hlt ⊢
    refine ⟨hle, ?_⟩
    rcases x with _ | x
    · simp only [alignedInstant, Nat.zero_mul] at hle ⊢
      omega
    · have := hlt x (Nat.lt_succ_self x)
      rw [aligned_succ]
      omega
  cases hl : o.lock with
  | locked al =>
    rw [scheduledOut_locked hl]
    have hb := first (al.m + (o.offset : Int)) (by have := hm al hl; omega)
    by_cases hp : PullsIn i al o
    · rw [trackedOut_pull hp]
      unfold PullsIn at hp
      simp only [alignedOut]
      omega
    · rw [trackedOut_step hp]
      simp only [alignedOut]
      omega
  | free =>
    cases lk with
    | none =>
      rw [scheduledOut_own (by rw [hl]; simp) (.inl rfl)]
      simp only [freeOut, ownPeriod, hl]
      omega
    | some x =>
      rw [scheduledOut_taken (by rw [takesLock, hl])]
      have hb := first ((alignmentOf x).m + (o.offset : Int)) (by have := hlk x rfl; simp only [alignmentOf]; omega)
      simp only [lockedOut, alignedOut]
      omega
  | holdover ph =>
    have hown : ownPeriod o = ph := by rw [ownPeriod, hl]
    have hbound := hph ph hl
    have hheld (hk : lk = none ∨ takesLock o = false) :
        i + (outPeriod o : Int) - (outPeriod o / 1024 : Nat) ≤ (scheduledOut lk i o).next
          ∧ (scheduledOut lk i o).next ≤ i + 2 * (outPeriod o : Int) - 1 := by
      rw [scheduledOut_own (by rw [hl]; simp) hk]
      simp only [freeOut, hown]
      omega
    cases lk with
    | none => exact hheld (.inl rfl)
    | some x =>
      cases ht : takesLock o with
      | false => exact hheld (.inr ht)
      | true =>
        rw [scheduledOut_taken ht]
        have hb := first ((alignmentOf x).m + (o.offset : Int)) (by have := hlk x rfl; simp only [alignmentOf]; omega)
        simp only [lockedOut, alignedOut]
        omega

end Sched

/-! ### References that an output may take -/

theorem lockable_iff (p : Part) (o : OutUnit) (faster : Bool) (k pr m : Nat) :
    lockable p o = some (faster, k, pr, m) ↔
      ∃ r, o.select = some r ∧ (getRef p r).present = true ∧ (getRef p r).pr = some pr
        ∧ (getRef p r).last = some m ∧ compatible (periodOf o.standard) pr = some (faster, k) := by
  unfold lockable outPeriod
  cases o.select with
  | none => simp
  | some r =>
    constructor
    · intro h
      dsimp only at h
      split at h
      next pr' t hp hpr hl =>
        obtain ⟨rel, hrel, e⟩ := Option.map_eq_some_iff.1 h
        cases e
        exact ⟨r, rfl, hp, hpr, hl, hrel⟩
      next => exact nomatch h
    · rintro ⟨r', e, hp, hpr, hl, hc⟩
      cases e
      simp [hp, hpr, hl, hc]

theorem compatible_spec (po pr : Nat) :
    (∀ k, compatible po pr = some (false, k) → 1 ≤ k ∧ k ≤ 4 ∧ ((pr : Int) - ((k * po : Nat) : Int)).natAbs ≤ k * po / 2000)
      ∧ (∀ k, compatible po pr = some (true, k) → k = 2 ∧ (((2 * pr : Nat) : Int) - (po : Int)).natAbs ≤ po / 2000)
      ∧ (compatible po pr = none →
        (∀ k, 1 ≤ k → k ≤ 4 → k * po / 2000 < ((pr : Int) - ((k * po : Nat) : Int)).natAbs)
          ∧ po / 2000 < (((2 * pr : Nat) : Int) - (po : Int)).natAbs) := by
  have hslow (k : Nat) : relationHolds false k po pr = true ↔ ((pr : Int) - ((k * po : Nat) : Int)).natAbs ≤ k * po / 2000 := by
    simp [relationHolds]
  have hfast (k : Nat) : relationHolds true k po pr = true ↔ (((k * pr : Nat) : Int) - (po : Int)).natAbs ≤ po / 2000 := by
    simp [relationHolds]
  unfold compatible
  refine ⟨fun k h => ?_, fun k h => ?_, fun h => ⟨fun k h1 h4 => ?_, ?_⟩⟩
  · have hm := List.mem_of_find?_eq_some h
    have hr := List.find?_some h
    simp only [List.mem_cons, Prod.mk.injEq, List.not_mem_nil, or_false] at hm
    exact ⟨by omega, by omega, (hslow k).1 hr⟩
  · have hm := List.mem_of_find?_eq_some h
    have hr := List.find?_some h
    obtain rfl : k = 2 := by simpa using hm
    exact ⟨rfl, (hfast 2).1 hr⟩
  · have hmem : (false, k) ∈ [(false, 1), (false, 2), (false, 3), (false, 4), (true, 2)] := by
      obtain rfl | rfl | rfl | rfl : k = 1 ∨ k = 2 ∨ k = 3 ∨ k = 4 := by omega
      all_goals simp
    have hn := List.find?_eq_none.1 h (false, k) hmem
    exact Nat.lt_of_not_le fun hle => hn ((hslow k).2 hle)
  · have hn := List.find?_eq_none.1 h (true, 2) (by simp)
    exact Nat.lt_of_not_le fun hle => hn ((hfast 2).2 hle)

/-! ### A boundary in a quiet state -/

section Event
variable {upsets : List Upset} {n : Ix} {s : State} {q p : Part}

/-- Whether the output changes its standard at this boundary (R115). -/
def changesAt (n : Ix) (p : Part) : Bool := decide ((p.lanes.get n).profile.output ≠ (p.outs.get n).standard)

/-- The part before the lane is reached: a job left in flight has ended, and the standard is changed (R107, R115). -/
def baseAt (n : Ix) (p : Part) : Part :=
  if changesAt n (endJob n p) then changeStandard n ((endJob n p).lanes.get n).profile.output (endJob n p) else endJob n p

/-- The parity of the boundary (R110). -/
def parityAt (n : Ix) (p : Part) : Option Parity := boundaryParity (changesAt n (endJob n p)) ((baseAt n p).outs.get n)

theorem takeBoundary_eq (n : Ix) (p : Part) : takeBoundary n p =
    finishBoundary n ((endJob n p).outs.get n).next (parityAt n p)
      (laneBoundary n ((endJob n p).outs.get n).next (parityAt n p) (baseAt n p)).2
      (laneBoundary n ((endJob n p).outs.get n).next (parityAt n p) (baseAt n p)).1 := rfl

theorem boundary_next (hq : quiet s) : exec (.outputBoundary upsets n) s =
    .next { s with part := settle (takeBoundary n (foundBy ⟨(s.part.outs.get n).next.toNat, upsets⟩ s)) } :=
  fallsDue_quiet (fun p => some (p.outs.get n).next.toNat) upsets (takeBoundary n) hq

theorem endJob_profile (p : Part) : ((endJob n p).lanes.get n).profile = (p.lanes.get n).profile := by
  rw [endJob_lanes, Four.get_modify_same]
  unfold jobEnded
  split <;> rfl

theorem changesAt_endJob (p : Part) : changesAt n (endJob n p) = changesAt n p := by
  unfold changesAt
  rw [endJob_profile, (mild_endJob n p).out OutUnit.standard fun _ _ => rfl]

theorem baseAt_same (h : changesAt n p = false) : baseAt n p = endJob n p := by
  rw [baseAt, changesAt_endJob, h, if_neg (by decide)]

/-- A boundary without a change of standard, as lane work and the boundary's own steps (R107). -/
theorem takeBoundary_same (h : changesAt n p = false) : ∃ (x : Handover) (r : Part),
    takeBoundary n p = finishBoundary n (p.outs.get n).next (boundaryParity false (p.outs.get n)) x r
      ∧ LaneWork true n p r := by
  have hnext := (mild_endJob n p).out (m := n) OutUnit.next fun _ _ => rfl
  have hpar : parityAt n p = boundaryParity false (p.outs.get n) := by
    unfold parityAt
    rw [changesAt_endJob, h, baseAt_same h]
    have hstd := (mild_endJob n p).out (m := n) OutUnit.standard fun _ _ => rfl
    have hnp := (mild_endJob n p).out (m := n) OutUnit.nextParity fun _ _ => rfl
    have hlast := (mild_endJob n p).out (m := n) OutUnit.last fun _ _ => rfl
    simp only [boundaryParity, hstd, hnp, hlast]
  refine ⟨(laneBoundary n (p.outs.get n).next (boundaryParity false (p.outs.get n)) (endJob n p)).2, _, ?_,
    (work_endJob p).trans (work_laneBoundary n (p.outs.get n).next (boundaryParity false (p.outs.get n)) _)⟩
  rw [takeBoundary_eq, hnext, hpar, baseAt_same h]

theorem found_profile_eq (env : Env) : ((foundBy env s).lanes.get n).profile = (s.part.lanes.get n).profile :=
  found_lane env s (fun l => l.profile) n (fun _ _ => rfl) (fun _ _ => rfl)

theorem found_lockable (env : Env) (o : OutUnit) : lockable (foundBy env s) o = lockable s.part o :=
  lockable_congr (found_refA env s) (found_refB env s) rfl rfl

/-- The RELOCK that ends at a boundary of this output (R113). -/
def relockEnded (s : State) (n : Ix) : Option PendingOp :=
  if relockEnds (lockable s.part (s.part.outs.get n)) (s.part.outs.get n) then s.part.mgmt.outOps.get n else none

/-- What a boundary without a change of standard leaves: the output, the RELOCK records and, out of an entry to device
fatal, the reply queues (R107, R113, R117, R174). -/
theorem boundary_same {t : State} (hq : quiet s) (hs : (s.part.lanes.get n).profile.output = (s.part.outs.get n).standard)
    (hx : exec (.outputBoundary upsets n) s = .next t) :
    (∀ {β : Type} (g : OutUnit → β), ScheduleView g → g (t.part.outs.get n) =
        g (bareOut (lockable s.part (s.part.outs.get n)) (s.part.outs.get n).next
          (boundaryParity false (s.part.outs.get n)) (s.part.outs.get n)))
      ∧ t.part.mgmt.outOps = (if relockEnds (lockable s.part (s.part.outs.get n)) (s.part.outs.get n)
          then s.part.mgmt.outOps.set n none else s.part.mgmt.outOps)
      ∧ (t.part.fault.deviceFatal = s.part.fault.deviceFatal → ∃ st : DoneStatus, ∀ m,
        (t.part.outs.get m).replies = ((s.part.outs.get m).replies
            ++ endReplies m st (endedIn (s.part.mgmt.laneOps.get n) (t.part.mgmt.laneOps.get n))).drop (if m = n then 2 else 0)
            ++ endReplies m .complete (relockEnded s n)
          ∧ (t.part.outs.get m).reserved = (s.part.outs.get m).reserved
            - (endReplies m st (endedIn (s.part.mgmt.laneOps.get n) (t.part.mgmt.laneOps.get n))).length
            - (endReplies m .complete (relockEnded s n)).length) := by
  rw [boundary_next hq] at hx
  have ho : (foundBy ⟨(s.part.outs.get n).next.toNat, upsets⟩ s).outs = s.part.outs := found_outs ..
  have hm : (foundBy ⟨(s.part.outs.get n).next.toNat, upsets⟩ s).mgmt = s.part.mgmt := found_mgmt ..
  have hf : (foundBy ⟨(s.part.outs.get n).next.toNat, upsets⟩ s).fault = s.part.fault := found_fault ..
  have hl (o : OutUnit) := found_lockable (s := s) ⟨(s.part.outs.get n).next.toNat, upsets⟩ o
  have hp := found_profile_eq (s := s) (n := n) ⟨(s.part.outs.get n).next.toNat, upsets⟩
  generalize foundBy ⟨(s.part.outs.get n).next.toNat, upsets⟩ s = q at *
  obtain ⟨x, r, he, hw⟩ := takeBoundary_same (p := q) (n := n) (by rw [changesAt, hp, ho, hs]; simp)
  cases hx
  dsimp only
  rw [he, ho]
  have hrelock : endedRelock q n = relockEnded s n := by rw [endedRelock, relockEnded, hl, ho, hm]
  refine ⟨fun {β} g hg => ?_, ?_, fun hcalm => ?_⟩
  · have h := boundary_view (i := (s.part.outs.get n).next) (parity := boundaryParity false (s.part.outs.get n)) (h := x) hg hw
    rw [ho, hl] at h
    exact h
  · have h := boundary_outOps (i := (s.part.outs.get n).next) (parity := boundaryParity false (s.part.outs.get n)) (h := x) hw
    rw [ho, hl, hm] at h
    exact h
  · have hcalm' := hcalm.trans ((congrArg FaultUnit.deviceFatal hf).symm.trans hw.fatal.symm)
    obtain ⟨st, -, h⟩ := boundary_replies hw hcalm'
    have hff : (finishBoundary n (s.part.outs.get n).next (boundaryParity false (s.part.outs.get n)) x r).fault = r.fault := by
      rw [finishBoundary_frame]
    have hops : (settle (finishBoundary n (s.part.outs.get n).next (boundaryParity false (s.part.outs.get n)) x r)).mgmt.laneOps =
        r.mgmt.laneOps := by
      rw [settle_calm (hcalm'.trans (congrArg FaultUnit.deviceFatal hff).symm), finishBoundary_frame]
      rfl
    rw [ho, hm, hrelock] at h
    rw [hops]
    exact ⟨st, h⟩

/-- The output under a new standard (R115). -/
def changedOut (std : Std) (o : OutUnit) : OutUnit :=
  { o with
    standard := std, lock := .free, offset := if o.offset < periodOf std then o.offset else 0, relockPending := false
    ctr := { o.ctr with standardChanges := bump o.ctr.standardChanges } }

theorem changeStandard_out (std : Std) (m : Ix) : (changeStandard n std p).outs.get m =
    posted m .complete (p.mgmt.outOps.get n) (if m = n then changedOut std (p.outs.get n) else p.outs.get m) := by
  unfold changeStandard endRelock bumpOut
  rw [modOut_outs, Four.get_modify, endOutOp_out]
  simp only [modOut_outs, Four.modify_modify]
  by_cases hm : m = n
  · subst hm
    rw [if_pos rfl, if_pos rfl, Four.get_modify_same]
    rfl
  · rw [if_neg hm, if_neg hm, Four.get_modify_other _ _ hm]
    rfl

theorem endOutOp_parts (st : DoneStatus) (p : Part) : endOutOp n st p = { p with
    outs := (endOutOp n st p).outs, mgmt := { p.mgmt with outOps := p.mgmt.outOps.set n none } } := by
  unfold endOutOp
  split
  · rfl
  · next h =>
    have e : p.mgmt.outOps.set n none = p.mgmt.outOps := by rw [← h, Four.set_get]
    rw [e]

theorem changeStandard_frame (std : Std) : changeStandard n std p = { p with
    outs := (changeStandard n std p).outs, mgmt := { p.mgmt with outOps := p.mgmt.outOps.set n none } } := by
  unfold changeStandard endRelock
  rw [endOutOp_parts]
  rfl

theorem baseAt_changed (h : changesAt n p = true) :
    baseAt n p = changeStandard n (p.lanes.get n).profile.output (endJob n p) := by
  rw [baseAt, changesAt_endJob, h, if_pos rfl, endJob_profile]

/-- A boundary at a change of standard (R113, R115, R174). -/
theorem boundary_changed {t : State} (hq : quiet s) (hs : (s.part.lanes.get n).profile.output ≠ (s.part.outs.get n).standard)
    (hx : exec (.outputBoundary upsets n) s = .next t) :
    (t.part.outs.get n).standard = (s.part.lanes.get n).profile.output ∧ (t.part.outs.get n).relockPending = false
      ∧ (t.part.outs.get n).ctr.standardChanges = bump (s.part.outs.get n).ctr.standardChanges
      ∧ t.part.mgmt.outOps.get n = none
      ∧ (t.part.fault.deviceFatal = s.part.fault.deviceFatal → ∃ st : DoneStatus, ∀ m,
        (t.part.outs.get m).replies = ((s.part.outs.get m).replies ++ endReplies m .complete (s.part.mgmt.outOps.get n)
            ++ endReplies m st (endedIn (s.part.mgmt.laneOps.get n) (t.part.mgmt.laneOps.get n))).drop (if m = n then 2 else 0)
          ∧ (t.part.outs.get m).reserved = (s.part.outs.get m).reserved
            - (endReplies m .complete (s.part.mgmt.outOps.get n)).length
            - (endReplies m st (endedIn (s.part.mgmt.laneOps.get n) (t.part.mgmt.laneOps.get n))).length) := by
  rw [boundary_next hq] at hx
  have ho : (foundBy ⟨(s.part.outs.get n).next.toNat, upsets⟩ s).outs = s.part.outs := found_outs ..
  have hm : (foundBy ⟨(s.part.outs.get n).next.toNat, upsets⟩ s).mgmt = s.part.mgmt := found_mgmt ..
  have hf : (foundBy ⟨(s.part.outs.get n).next.toNat, upsets⟩ s).fault = s.part.fault := found_fault ..
  have hp := found_profile_eq (s := s) (n := n) ⟨(s.part.outs.get n).next.toNat, upsets⟩
  generalize foundBy ⟨(s.part.outs.get n).next.toNat, upsets⟩ s = q at *
  have hbase := baseAt_changed (p := q) (n := n) (by rw [changesAt, hp, ho]; simpa using hs)
  have hwork := work_laneBoundary n ((endJob n q).outs.get n).next (parityAt n q) (baseAt n q)
  have he := takeBoundary_eq n q
  generalize laneBoundary n ((endJob n q).outs.get n).next (parityAt n q) (baseAt n q) = r at he hwork
  have hmild := mild_endJob n q
  have hjob : (endJob n q).mgmt = s.part.mgmt := (endJob_keeps storeBlind_mgmt fun _ _ => rfl).trans hm
  have hframe := changeStandard_frame (n := n) (q.lanes.get n).profile.output (p := endJob n q)
  have hout := changeStandard_out (n := n) (q.lanes.get n).profile.output (p := endJob n q)
  rw [← hbase] at hframe hout
  have hmgmt : (baseAt n q).mgmt = { s.part.mgmt with outOps := s.part.mgmt.outOps.set n none } := by rw [hframe, hjob]
  have hfatal : (baseAt n q).fault.deviceFatal = s.part.fault.deviceFatal := by
    rw [hframe]
    exact hmild.deviceFatal.trans (congrArg FaultUnit.deviceFatal hf)
  generalize baseAt n q = b at *
  rw [hjob] at hout
  have hown := hout n
  rw [if_pos rfl] at hown
  have hfree : (b.outs.get n).lock = .free := by rw [hown]; rfl
  have hends : relockEnds (lockable b (b.outs.get n)) (b.outs.get n) = false := by rw [relockEnds, hfree]
  have view {β : Type} (g : OutUnit → β) (hg : ScheduleView g) := boundary_view
    (i := ((endJob n q).outs.get n).next) (parity := parityAt n q) (h := r.2) hg hwork
  rw [← he] at view
  obtain ⟨kstd, -, -, -, kchg⟩ := scheduledOut_kept (lockable b (b.outs.get n)) ((endJob n q).outs.get n).next (b.outs.get n)
  cases hx
  refine ⟨?_, ?_, ?_, ?_, fun hcalm => ?_⟩
  · refine (view OutUnit.standard fun _ _ _ _ _ _ _ => rfl).trans (kstd.trans ?_)
    rw [hown, ← hp]; rfl
  · refine (view OutUnit.relockPending fun _ _ _ _ _ _ _ => rfl).trans ?_
    show (if relockEnds (lockable b (b.outs.get n)) (b.outs.get n) then false else (b.outs.get n).relockPending) = false
    rw [hends, if_neg (by decide), hown]; rfl
  · refine (view (fun o => o.ctr.standardChanges) fun _ _ _ _ _ _ _ => rfl).trans (kchg.trans ?_)
    rw [hown]
    show bump ((endJob n q).outs.get n).ctr.standardChanges = _
    rw [hmild.out (fun o => o.ctr.standardChanges) fun _ _ => rfl, ho]
  · show (settle (takeBoundary n q)).mgmt.outOps.get n = none
    rw [he, boundary_outOps hwork, hends, if_neg (by decide), hmgmt]
    exact Four.get_set_same ..
  · have hcalm' : (settle (finishBoundary n ((endJob n q).outs.get n).next (parityAt n q) r.2 r.1)).fault.deviceFatal =
        r.1.fault.deviceFatal := by rw [← he]; exact hcalm.trans (hfatal.symm.trans hwork.fatal.symm)
    obtain ⟨st, -, h⟩ := boundary_replies hwork hcalm'
    have hff : (finishBoundary n ((endJob n q).outs.get n).next (parityAt n q) r.2 r.1).fault = r.1.fault := by
      rw [finishBoundary_frame]
    have hops : (settle (takeBoundary n q)).mgmt.laneOps = r.1.mgmt.laneOps := by
      rw [he, settle_calm (hcalm'.trans (congrArg FaultUnit.deviceFatal hff).symm), finishBoundary_frame]
      rfl
    have hrelock : endedRelock b n = none := by rw [endedRelock, hends, if_neg (by decide)]
    have hlane : b.mgmt.laneOps = s.part.mgmt.laneOps := by rw [hmgmt]
    have hrep (m : Ix) : (b.outs.get m).replies = (s.part.outs.get m).replies ++ endReplies m .complete (s.part.mgmt.outOps.get n)
        ∧ (b.outs.get m).reserved = (s.part.outs.get m).reserved - (endReplies m .complete (s.part.mgmt.outOps.get n)).length := by
      have e1 := hmild.out (m := m) OutUnit.replies fun _ _ => rfl
      have e2 := hmild.out (m := m) OutUnit.reserved fun _ _ => rfl
      rw [ho] at e1 e2
      rw [hout m, ← e1, ← e2]
      by_cases e : m = n
      · rw [if_pos e, e]; exact ⟨rfl, rfl⟩
      · rw [if_neg e]; exact ⟨rfl, rfl⟩
    rw [← he, hrelock, hlane] at h
    refine ⟨st, fun m => ?_⟩
    dsimp only
    rw [(h m).1, (h m).2, (hrep m).1, (hrep m).2, hops]
    exact ⟨List.append_nil _, Nat.sub_zero _⟩

end Event

theorem scheduleViews : ScheduleView OutUnit.next ∧ ScheduleView OutUnit.nextParity ∧ ScheduleView OutUnit.lock
    ∧ ScheduleView (fun o => o.ctr.alignments) ∧ ScheduleView (fun o => o.ctr.phaseSteps) ∧ ScheduleView OutUnit.relockPending :=
  ⟨fun _ _ _ _ _ _ _ => rfl, fun _ _ _ _ _ _ _ => rfl, fun _ _ _ _ _ _ _ => rfl, fun _ _ _ _ _ _ _ => rfl,
   fun _ _ _ _ _ _ _ => rfl, fun _ _ _ _ _ _ _ => rfl⟩

/-- Settles O16. -/
theorem boundaryIntervalLaw : Obligations.BoundaryIntervalLaw := by
  unfold Obligations.BoundaryIntervalLaw
  refine ⟨?_, ?_, lockable_iff, compatible_spec⟩
  · rintro upsets n s t o o' po due hq rfl hs rfl rfl hx rfl
    obtain ⟨view, hops, hrep⟩ := boundary_same hq hs hx
    have hfind (faster : Bool) (k pr m : Nat) (h : lockable s.part (s.part.outs.get n) = some (faster, k, pr, m)) :=
      (lockable_iff s.part (s.part.outs.get n) faster k pr m).1 h
    rw [relockEnded] at hrep
    generalize s.part.outs.get n = o at *
    generalize hlk : lockable s.part o = lk at *
    obtain ⟨kstd, ksel, koff, kbnd, -⟩ := scheduledOut_kept lk o.next o
    obtain ⟨vnext, vpar, vlock, valign, vstep, vrelock⟩ := scheduleViews
    have hnext := view _ vnext
    have hpar := view _ vpar
    have hlock := view _ vlock
    have halign := view _ valign
    have hstep := view _ vstep
    have hrelock := view _ vrelock
    refine ⟨?_, ?_, ?_, ?_, ?_, fun hfree hnone => ?_, fun faster k pr m hsome htake => ?_, fun al hal => ?_, fun ph hph hwhy => ?_,
      fun hoff hm hbound href => ?_⟩
    · have e := view OutUnit.last fun _ _ _ _ _ _ _ => rfl
      rw [e]
      rfl
    · exact (view OutUnit.standard fun _ _ _ _ _ _ _ => rfl).trans kstd
    · exact (view OutUnit.select fun _ _ _ _ _ _ _ => rfl).trans ksel
    · exact (view OutUnit.offset fun _ _ _ _ _ _ _ => rfl).trans koff
    · exact (view (fun o => o.ctr.boundaries) fun _ _ _ _ _ _ _ => rfl).trans (congrArg bump kbnd)
    · subst hnone
      have hs := scheduledOut_own (i := o.next) (lk := none) (o := o) (by rw [hfree]; simp) (.inl rfl)
      have hends : relockEnds none o = false := by rw [relockEnds, hfree]
      have hown : ownPeriod o = (outPeriod o : Int) := by rw [ownPeriod, hfree]
      simp only [bareOut, hs, freeOut, hown] at hnext hpar hlock halign hstep
      rw [hends, if_neg (by decide)] at hops
      exact ⟨hlock.trans hfree, hnext, hpar, halign, hstep, by rw [hops]⟩
    · subst hsome
      have ht : takesLock o = true := by
        rcases htake with h | ⟨ph, h, hp⟩
        · rw [takesLock, h]
        · rw [takesLock, h]; exact decide_eq_true hp
      have hs := scheduledOut_taken (i := o.next) (x := (faster, k, pr, m)) ht
      simp only [bareOut, hs] at hnext hpar hlock halign hstep
      obtain ⟨x, hx1, hx2, hx3, hx4⟩ := lockedOut_next (i := o.next) (o := o) (alignmentOf (faster, k, pr, m))
      refine ⟨hlock, halign, hstep, fun hfree => ?_, fun ph hph => ?_, x, hnext.trans hx1, hnext ▸ hx2, hx3,
        hpar.trans (hx4.trans (placedParity_eq _ _ _ _))⟩
      · have hends : relockEnds (some (faster, k, pr, m)) o = false := by rw [relockEnds, hfree]
        rw [hops, hends, if_neg (by decide)]
      · have hends : relockEnds (some (faster, k, pr, m)) o = true := relockEnds_iff.2 ⟨⟨ph, hph⟩, rfl, ht⟩
        rw [hends] at hops hrep
        refine ⟨?_, by rw [hops]; exact Four.get_set_same .., fun op hop hcalm => ?_⟩
        · rw [hrelock]
          exact if_pos hends
        · obtain ⟨st, h⟩ := hrep hcalm
          rw [if_pos rfl, hop] at h
          obtain ⟨hr, hk⟩ := h op.origin
          refine ⟨?_, fun hsame => ?_⟩
          · rw [hr, endReplies_own rfl, List.getLast?_append]
            rfl
          · rw [hk, hsame, endedIn_same, endReplies_own rfl]
            rfl
    · have hs := scheduledOut_locked (i := o.next) (lk := lk) hal
      simp only [bareOut, hs] at hnext hpar hlock halign hstep
      obtain ⟨klock, kalign⟩ := trackedOut_lock (i := o.next) (o := o) al
      obtain ⟨x, hx1, hx2, hx3, hx4⟩ := trackedOut_next (i := o.next) (o := o) al
      have hends : relockEnds lk o = false := by rw [relockEnds, hal]
      rw [hops, hends, if_neg (by decide), hnext, hstep]
      exact ⟨hlock.trans (klock.trans hal), halign.trans kalign, rfl, x, hx1,
        hpar.trans (hx2.trans (placedParity_eq _ _ _ _)), hx3, hx4⟩
    · have ht : lk = none ∨ takesLock o = false := by
        refine hwhy.imp id fun h => ?_
        rw [takesLock, hph, h.1, h.2]
        rfl
      have hs := scheduledOut_own (i := o.next) (lk := lk) (o := o) (by rw [hph]; simp) ht
      have hown : ownPeriod o = ph := by rw [ownPeriod, hph]
      have hends : relockEnds lk o = false := by
        rw [relockEnds, hph]
        rcases ht with h | h
        · rw [h]; rfl
        · rw [h, Bool.and_false]
      simp only [bareOut, hs, freeOut, hown] at hnext hpar hlock halign
      rw [hops, hends, if_neg (by decide)]
      refine ⟨hlock.trans hph, hnext, hpar, ?_, halign, rfl⟩
      rw [hrelock]
      show (if relockEnds lk o then false else o.relockPending) = _
      rw [hends, if_neg (by decide)]
    · rw [hnext]
      refine scheduledOut_interval hoff hm hbound fun x hx => ?_
      subst hx
      obtain ⟨faster, k, pr, m⟩ := x
      obtain ⟨r, hsel, -, -, hlast, -⟩ := hfind faster k pr m rfl
      exact href r m hsel hlast
  · rintro upsets n s t o o' hq rfl hs hx rfl
    obtain ⟨hstd, hrel, hchg, hops, hrep⟩ := boundary_changed hq hs hx
    refine ⟨hstd, hrel, hchg, hops, fun op hop hcalm => ?_⟩
    obtain ⟨st, h⟩ := hrep hcalm
    refine ⟨⟨endReplies op.origin st (endedIn (s.part.mgmt.laneOps.get n) (t.part.mgmt.laneOps.get n)),
      (h op.origin).1.trans ?_⟩, fun hsame => ?_⟩
    · rw [doneTo_eq, hop]
    · rw [(h op.origin).2, hsame, endedIn_same, hop, endReplies_own rfl]
      rfl

end Sys2Proof.Machine.BoundaryIntervals
end

section
/-! A boundary of an output whose lane starts no job (O34): R61, R107 to R117, R172, R174. -/

namespace Sys2Proof.Machine.IdleBoundaries

open Frames Keeping LaneEnds LockLoss BoundaryParts Boundaries BoundaryIntervals

section Idle
variable {b p : Part} {n m : Ix} {i : Int} {parity : Option Parity} {h : Handover} {upsets : List Upset} {s : State}

/-- An output that is FREE with no reference, after a boundary (R108, R116). -/
def idleOut (b : Part) (n : Ix) (i : Int) (parity : Option Parity) (h : Handover) (o : OutUnit) : OutUnit :=
  { placedOut b n h o with
    next := i + (outPeriod o : Int), nextParity := none, last := ⟨i, parity⟩, lineNext := 0
    ctr := { (placedOut b n h o).ctr with boundaries := bump o.ctr.boundaries } }

theorem lockable_unselected {o : OutUnit} (hs : o.select = none) : lockable p o = none := by rw [lockable, hs]

/-- The boundary's own steps for an output that is FREE with no reference selected. -/
theorem idle_finish (hl : (b.outs.get n).lock = .free) (hs : (b.outs.get n).select = none) :
    finishBoundary n i parity h b = { b with
      outs := b.outs.set n (idleOut b n i parity h (b.outs.get n))
      mgmt := placedMgmt n (b.outs.get n) b.mgmt } := by
  have hends : relockEnds (lockable b (b.outs.get n)) (b.outs.get n) = false := by rw [relockEnds, hl]
  have hout : (finishBoundary n i parity h b).outs = b.outs.set n (idleOut b n i parity h (b.outs.get n)) := by
    refine Four.get_ext fun m => ?_
    rw [finishBoundary_out, endedRelock, hends, if_neg (by decide), posted_none, Four.get_set]
    refine ite_congr rfl (fun _ => ?_) fun _ => rfl
    unfold boundaryOut finishedOut
    rw [hends, lockable_unselected hs, if_neg (by decide)]
    have hlock : (placedOut b n h (b.outs.get n)).lock = .free := hl
    rw [scheduledOut_own (by rw [hlock]; simp) (.inl rfl), ownPeriod, hlock]
    rfl
  rw [finishBoundary_frame, hout, hends, if_neg (by decide)]
  rfl

theorem endJob_idle (hf : (p.lanes.get n).job.inFlight = false) : endJob n p = p := by
  rw [endJob, if_neg (by rw [hf]; decide)]

/-- A boundary whose lane starts no job, of an output that is FREE with no reference selected (R61, R107). -/
theorem idle_next (hq : quiet s) (hrun : runsJobs (s.part.lanes.get n).state = false)
    (hf : (s.part.lanes.get n).job.inFlight = false) {q : Part} (hfound : q = foundBy ⟨(s.part.outs.get n).next.toNat, upsets⟩ s)
    (hlane : (baseAt n q).lanes = q.lanes) (hdue : (baseAt n q).fault = q.fault)
    (hl : ((baseAt n q).outs.get n).lock = .free) (hs : ((baseAt n q).outs.get n).select = none) :
    exec (.outputBoundary upsets n) s = .next { s with part := { baseAt n q with
      outs := (baseAt n q).outs.set n (idleOut (baseAt n q) n (s.part.outs.get n).next
        (boundaryParity (changesAt n q) ((baseAt n q).outs.get n)) ⟨none, []⟩ ((baseAt n q).outs.get n))
      mgmt := placedMgmt n ((baseAt n q).outs.get n) (baseAt n q).mgmt } } := by
  have hjob : (q.lanes.get n).job.inFlight = false := by rw [hfound, OutputLines.found_job, hf]
  have hstate : (q.lanes.get n).state = (s.part.lanes.get n).state := by
    rw [hfound]
    exact found_lane _ s (fun l => l.state) n (fun _ _ => rfl) (fun _ _ => rfl)
  have houts : q.outs = s.part.outs := by rw [hfound, found_outs]
  have hfault : q.fault = s.part.fault := by rw [hfound, found_fault]
  have hpar : parityAt n q = boundaryParity (changesAt n q) ((baseAt n q).outs.get n) := by rw [parityAt, endJob_idle hjob]
  have hidle : laneBoundary n (q.outs.get n).next (parityAt n q) (baseAt n q) = (baseAt n q, ⟨none, []⟩) := by
    rw [laneBoundary, hlane, hstate, hrun, if_neg (by decide)]
  rw [boundary_next hq, ← hfound, takeBoundary_eq, endJob_idle hjob, hidle, hpar, houts, idle_finish hl hs,
    settle_quiet (by exact (congrArg FaultUnit.fatalDue (hdue.trans hfault)).trans hq.1)]

/-- The output under the standard of its lane (R115). -/
def standardOut (std : Std) (o : OutUnit) : OutUnit := if std = o.standard then o else changedOut std o

/-- The RELOCK that a change of standard ends (R113, R115). -/
def standardEnds (std : Std) (n : Ix) (s : State) : Option PendingOp :=
  if std = (s.part.outs.get n).standard then none else s.part.mgmt.outOps.get n

theorem standardOut_spec (std : Std) (o : OutUnit) (hl : o.lock = .free ∨ std ≠ o.standard) :
    (standardOut std o).standard = std ∧ (standardOut std o).lock = .free
      ∧ (standardOut std o).offset = (if std = o.standard ∨ o.offset < periodOf std then o.offset else 0)
      ∧ (standardOut std o).relockPending = (if std = o.standard then o.relockPending else false)
      ∧ (standardOut std o).ctr = { o.ctr with
        standardChanges := if std = o.standard then o.ctr.standardChanges else bump o.ctr.standardChanges } := by
  unfold standardOut
  by_cases h : std = o.standard
  · simp only [h, true_or, if_true]
    exact ⟨trivial, hl.resolve_right fun e => e h, trivial, trivial, trivial⟩
  · simp only [h, false_or]
    exact ⟨rfl, rfl, rfl, rfl, rfl⟩

theorem standardOut_same (std : Std) (o : OutUnit) :
    (standardOut std o).select = o.select ∧ (standardOut std o).replies = o.replies ∧ (standardOut std o).reserved = o.reserved
      ∧ (standardOut std o).notices = o.notices ∧ (standardOut std o).nextParity = o.nextParity
      ∧ (standardOut std o).last = o.last := by
  unfold standardOut
  split_ifs <;> exact ⟨rfl, rfl, rfl, rfl, rfl, rfl⟩

/-- The part that an idle boundary works on: under the lane's standard, with the RELOCK that this ends posted (R113, R115). -/
theorem base_idle {q : Part} (hf : (q.lanes.get n).job.inFlight = false) (ho : q.outs = s.part.outs) (hm : q.mgmt = s.part.mgmt)
    {std : Std} (hstd : std = (q.lanes.get n).profile.output) :
    (∀ m, (baseAt n q).outs.get m = posted m .complete (standardEnds std n s)
        (if m = n then standardOut std (s.part.outs.get n) else s.part.outs.get m))
      ∧ baseAt n q = { q with
        outs := (baseAt n q).outs
        mgmt := { s.part.mgmt with outOps :=
          if std = (s.part.outs.get n).standard then s.part.mgmt.outOps else s.part.mgmt.outOps.set n none } } := by
  subst hstd
  by_cases h : (q.lanes.get n).profile.output = (s.part.outs.get n).standard
  · have hb : baseAt n q = q := by rw [baseAt_same (by rw [changesAt, ho, h]; simp), endJob_idle hf]
    refine ⟨fun m => ?_, ?_⟩
    · rw [hb, ho, standardEnds, if_pos h, posted_none]
      split_ifs with e
      · rw [e, standardOut, if_pos h]
      · rfl
    · rw [hb, if_pos h, ← hm]
  · have hb : baseAt n q = changeStandard n (q.lanes.get n).profile.output q := by
      rw [baseAt_changed (by rw [changesAt, ho]; simpa using h), endJob_idle hf]
    refine ⟨fun m => ?_, ?_⟩
    · rw [hb, changeStandard_out, ho, hm, standardEnds, if_neg h, standardOut, if_neg h]
    · rw [if_neg h, hb, ← hm]
      exact changeStandard_frame _

/-- The parity of a boundary of an interlaced output (R110). -/
def interlacedParity (fresh : Bool) (o : OutUnit) : Option Parity :=
  if fresh then some .top else (o.nextParity <|> (o.last.parity.map oppositeParity) <|> some .top)

theorem boundaryParity_eq (fresh : Bool) (o : OutUnit) :
    boundaryParity fresh o = if (stdRow o.standard).interlaced then interlacedParity fresh o else none := by
  unfold boundaryParity interlacedParity
  cases o.nextParity <;> cases o.last.parity <;> rfl

theorem noticePacket_eq (cs : List Cond) : noticePacket p cs = ⟨0x61#8, 0x0D#8,
    [BitVec.ofNat 8 p.straps.address.val, 0, 255, BitVec.ofNat 8 cs.length]
      ++ cs.flatMap (fun c => [condOwner c, BitVec.ofNat 8 (condKind c)])⟩ := rfl

theorem placedReplies_congr (h1 : b.straps = p.straps) (h2 : b.mgmt.lost = p.mgmt.lost) (rs : List Reply) :
    placedReplies b n rs = placedReplies p n rs := by unfold placedReplies; rw [h1, h2]

end Idle

/-- Settles O34. -/
theorem boundaryOfAnIdleOutput : Obligations.BoundaryOfAnIdleOutput := by
  unfold Obligations.BoundaryOfAnIdleOutput
  rintro upsets n s o l hq rfl rfl hrun hf hsel hfree
  have hjob : ((foundBy ⟨(s.part.outs.get n).next.toNat, upsets⟩ s).lanes.get n).job.inFlight = false := by
    rw [OutputLines.found_job, hf]
  have hx := idle_next (upsets := upsets) hq hrun hf rfl
  have ho : (foundBy ⟨(s.part.outs.get n).next.toNat, upsets⟩ s).outs = s.part.outs := found_outs ..
  have hm : (foundBy ⟨(s.part.outs.get n).next.toNat, upsets⟩ s).mgmt = s.part.mgmt := found_mgmt ..
  have hlinks : (foundBy ⟨(s.part.outs.get n).next.toNat, upsets⟩ s).links = s.part.links := found_links ..
  have hfeeds : (foundBy ⟨(s.part.outs.get n).next.toNat, upsets⟩ s).feeds = s.part.feeds := found_feeds ..
  have hstraps : (foundBy ⟨(s.part.outs.get n).next.toNat, upsets⟩ s).straps = s.part.straps := found_straps ..
  have hp : (s.part.lanes.get n).profile.output =
      ((foundBy ⟨(s.part.outs.get n).next.toNat, upsets⟩ s).lanes.get n).profile.output := by rw [OutputLines.found_profile]
  generalize foundBy ⟨(s.part.outs.get n).next.toNat, upsets⟩ s = q at *
  generalize hstd : (s.part.lanes.get n).profile.output = std at *
  obtain ⟨houts, hbase⟩ := base_idle hjob ho hm hp
  have hch : changesAt n q = decide (std ≠ (s.part.outs.get n).standard) := by rw [changesAt, ho, hp]
  have hown := houts n
  rw [if_pos rfl] at hown
  obtain ⟨sstd, slock, soff, srel, sctr⟩ := standardOut_spec std (s.part.outs.get n) hfree
  obtain ⟨ssel, srep, sres, snot, snp, slast⟩ := standardOut_same std (s.part.outs.get n)
  have hb (α : Type) (v : Part → α) := congrArg v hbase
  have hlane := hb _ Part.lanes
  have hfault := hb _ Part.fault
  have hmgmt := hb _ Part.mgmt
  have hst := hb _ Part.straps
  have hli := hb _ Part.links
  have hfe := hb _ Part.feeds
  generalize baseAt n q = b at *
  refine ⟨_, hx hlane hfault (by rw [hown]; exact slock) (by rw [hown]; exact ssel.trans hsel), ?_⟩
  have hended : standardEnds std n s = if std = (s.part.outs.get n).standard then none else s.part.mgmt.outOps.get n := rfl
  simp only [Four.get_set_same, hown]
  refine ⟨sstd, slock, ?_, ?_, soff, ?_, ?_, ?_, ?_, ?_, ?_⟩
  · show (s.part.outs.get n).next + ((periodOf (standardOut std (s.part.outs.get n)).standard : Nat) : Int) = _
    rw [sstd]
  · refine congrArg (Boundary.mk (s.part.outs.get n).next) ?_
    show boundaryParity (changesAt n q) (standardOut std (s.part.outs.get n)) = _
    rw [boundaryParity_eq, hch, sstd, interlacedParity, snp, slast]
    refine ite_congr rfl (fun _ => ?_) fun _ => rfl
    by_cases h : std = (s.part.outs.get n).standard
    · rw [if_neg (not_not.2 h), if_neg (by simpa using h)]
      cases (s.part.outs.get n).nextParity <;> cases (s.part.outs.get n).last.parity <;> rfl
    · rw [if_pos h, if_pos (by simpa using h)]
  · show ({ ({ (standardOut std (s.part.outs.get n)).ctr with repliesSent := _, noticesSent := _ } : OutCounters) with
      boundaries := bump (standardOut std (s.part.outs.get n)).ctr.boundaries } : OutCounters) = _
    rw [sctr]
    rfl
  · rfl
  · rintro ended queue rfl rfl
    have hqueue : (posted n .complete (standardEnds std n s) (standardOut std (s.part.outs.get n))).replies =
        (s.part.outs.get n).replies ++ doneTo n (standardEnds std n s) := by rw [doneTo_eq, ← srep]; rfl
    have hnot : (posted n .complete (standardEnds std n s) (standardOut std (s.part.outs.get n))).notices =
        (s.part.outs.get n).notices := snot
    rw [← hended]
    refine ⟨?_, ?_, srel, ?_, ?_, ?_, ?_⟩
    · show List.drop 2 (posted n _ _ _).replies = _
      rw [hqueue]
    · show (standardOut std (s.part.outs.get n)).reserved - _ = _
      rw [sres, doneTo_eq]
    · rw [placedMgmt, hqueue, hmgmt]
    · intro m hm
      rw [Four.get_set_other _ _ hm, houts m, if_neg hm, doneTo_eq]
      rfl
    · show (if (posted n _ _ _).replies.length < 2 then _ else _) = _
      rw [hqueue, hnot]
    · show placedReplies b n ((posted n _ _ _).replies.take 2) ++ noticePlaced b (posted n _ _ _) ++ [] = _
      rw [List.append_nil, hqueue, placedReplies_congr (p := s.part) (hst.trans hstraps) (by rw [hmgmt]), noticePlaced, hqueue,
        hnot, noticePacket_eq, hst.trans hstraps]
  · exact hlane
  · exact hli.trans hlinks
  · exact hfe.trans hfeeds

end Sys2Proof.Machine.IdleBoundaries
end

section
/-! SUPPORT. What a job start makes of its lane, the slots and the pending record (R61 to R74, R83, R128, R130, R163). -/

namespace Sys2Proof.Machine.JobStarts

open Frames Keeping LaneValues LaneEnds StoreValues SlotsLaw StopAnswers BoundaryParts LaneWorks LaneFaults

/-! ### The pins -/

section Pins
variable {n : Ix} {source : Ix} {p q : Part} {ks : List SlotIx}

/-- A record that a feed's job may pin (R52). -/
def canPin (source : Ix) (r : SlotRec) : Bool :=
  r.intact && r.state == .history && !r.poisoned && decide (r.owner = some source) && decide (r.pins < 4)

/-- A lane whose job holds further pins (R52, R71). -/
def pinnedOn (ks : List SlotIx) (l : Lane) : Lane := { l with job := { l.job with pinned := l.job.pinned ++ ks } }

theorem pinnedOn_nil (l : Lane) : pinnedOn [] l = l := by rw [pinnedOn, List.append_nil]

theorem modify_pinnedOn_nil (ls : Four Lane) : ls.modify n (pinnedOn []) = ls := by
  rw [Four.modify, pinnedOn_nil, Four.set_get]

theorem pinnedOn_pinnedOn (ks js : List SlotIx) (l : Lane) : pinnedOn js (pinnedOn ks l) = pinnedOn (ks ++ js) l := by
  simp only [pinnedOn, List.append_assoc]

theorem pinnedOn_cons (k : SlotIx) (ks : List SlotIx) (q : Part) :
    (modLane n (pinnedOn [k]) q).lanes.modify n (pinnedOn ks) = q.lanes.modify n (pinnedOn (k :: ks)) := by
  rw [modLane_lanes, Four.modify_modify]
  simp only [pinnedOn_pinnedOn, List.singleton_append]

theorem pinOne_on {k : SlotIx} (h : canPin source (slotOf p k) = true) : pinOne n source k p =
    modLane n (pinnedOn [k]) (modSlot k (fun r => { r with pins := r.pins + 1 }) p) := by
  have e : pinSlot source k p = (modSlot k (fun r => { r with pins := r.pins + 1 }) p, true) := if_pos h
  rw [pinOne, e]
  rfl

theorem pinOne_off {k : SlotIx} (h : canPin source (slotOf p k) = false) : pinOne n source k p = integrityError k p := by
  have e : pinSlot source k p = (integrityError k p, false) := if_neg (fun e => Bool.false_ne_true (h.symm.trans e))
  rw [pinOne, e]
  rfl

/-- The pins that a job takes, some of those it asks for (R52, R58). -/
theorem pinAll_lanes (ks : List SlotIx) (p : Part) : ∃ taken, taken.Sublist ks
    ∧ (pinAll n source ks p).lanes = p.lanes.modify n (pinnedOn taken) := by
  induction ks generalizing p with
  | nil => exact ⟨[], .slnil, (modify_pinnedOn_nil _).symm⟩
  | cons k ks ih =>
    rw [pinAll_cons]
    obtain ⟨taken, hsub, hl⟩ := ih (pinOne n source k p)
    rw [hl]
    by_cases h : canPin source (slotOf p k) = true
    · refine ⟨k :: taken, hsub.cons_cons k, ?_⟩
      rw [pinOne_on h, pinnedOn_cons]
      rfl
    · refine ⟨taken, hsub.cons k, ?_⟩
      rw [pinOne_off (Bool.eq_false_iff.2 h)]
      rfl

/-- A job that may take all its pins takes them, each slot gaining one (R52). -/
theorem pinAll_all (hnd : ks.Nodup) (h : ∀ k ∈ ks, canPin source (slotOf p k) = true) :
    (pinAll n source ks p).lanes = p.lanes.modify n (pinnedOn ks) ∧ (pinAll n source ks p).fault = p.fault
      ∧ ∀ j, slotOf (pinAll n source ks p) j =
        if j ∈ ks then { slotOf p j with pins := (slotOf p j).pins + 1 } else slotOf p j := by
  induction ks generalizing p with
  | nil => exact ⟨(modify_pinnedOn_nil _).symm, rfl, fun j => by simp [pinAll]⟩
  | cons k ks ih =>
    obtain ⟨hk, hks⟩ := List.nodup_cons.1 hnd
    have hon := pinOne_on (n := n) (h k List.mem_cons_self)
    have hslot (j : SlotIx) : slotOf (pinOne n source k p) j =
        if j = k then { slotOf p k with pins := (slotOf p k).pins + 1, intact := true } else slotOf p j := by
      rw [hon]
      exact slotOf_modSlot (p := p) (fun r => { r with pins := r.pins + 1 }) j
    have hint : (slotOf p k).intact = true := by
      have hc := h k List.mem_cons_self
      simp only [canPin, Bool.and_eq_true] at hc
      exact hc.1.1.1.1
    obtain ⟨hl, hf, hs⟩ := ih (p := pinOne n source k p) hks (fun j hj => by
      have hne : ¬j = k := fun e => hk (e ▸ hj)
      rw [hslot, if_neg hne]
      exact h j (List.mem_cons_of_mem _ hj))
    rw [pinAll_cons]
    refine ⟨?_, ?_, fun j => ?_⟩
    · rw [hl, hon, pinnedOn_cons]
      rfl
    · rw [hf, hon]
      rfl
    · rw [hs, hslot]
      by_cases hj : j = k
      · subst hj
        rw [if_neg hk, if_pos rfl, if_pos List.mem_cons_self, ← hint]
      · have hmem : j ∈ k :: ks ↔ j ∈ ks := by simp [hj]
        rw [if_neg hj]
        simp only [hmem]

theorem pinAll_mild (ks : List SlotIx) (p : Part) : MildFault p.fault (pinAll n source ks p).fault := by
  induction ks generalizing p with
  | nil => exact .refl _
  | cons k ks ih =>
    rw [pinAll_cons]
    refine MildFault.trans ?_ (ih _)
    by_cases h : canPin source (slotOf p k) = true
    · rw [pinOne_on h]; exact .refl _
    · rw [pinOne_off (Bool.eq_false_iff.2 h)]; exact (mild_integrityError k p).toMildFault

theorem pinAll_keeps {β : Type} {g : Part → β} (h : StoreBlind g) (hl : ∀ f p, g (modLane n f p) = g p)
    (ks : List SlotIx) (p : Part) : g (pinAll n source ks p) = g p := by
  induction ks generalizing p with
  | nil => rfl
  | cons k ks ih => rw [pinAll_cons, ih, pinOne_keeps h hl]

end Pins

/-! ### The lane's change of state -/

section Change
variable {n : Ix} {p : Part}

/-- Whether a job takes its lane to CONVERTING (R128). -/
def acquires (l : Lane) : Bool := decide (l.state = .acquiring) && isCaseTwo l.job.kase

/-- A lane that its job takes to CONVERTING; `starts` says that a START ends with it (R128). -/
def acquired (starts : Bool) (l : Lane) : Lane :=
  { l with
    state := .converting
    laneCtr := { l.laneCtr with acquisitions := bump l.laneCtr.acquisitions }
    acquireAt := if starts then none else l.acquireAt }

/-- A lane in HOLDING that has started a job more (R130). -/
def jobHeld (l : Lane) : Lane :=
  { l with holdCount := l.holdCount + 1, laneCtr := { l.laneCtr with heldJobs := bump l.laneCtr.heldJobs } }

/-- The lane after the change of state that belongs to a job start (R128, R130). -/
def stateChanged (starts : Bool) (l : Lane) : Lane :=
  if acquires l then acquired starts l
  else if l.state = .holding then
    if l.holdCount + 1 = l.profile.holdLimit then slated (jobHeld l) else jobHeld l
  else l

theorem stateChanged_acquires (starts : Bool) {l : Lane} (h : acquires l = true) : stateChanged starts l = acquired starts l :=
  if_pos h

theorem stateChanged_holding (starts : Bool) {l : Lane} (h : l.state = .holding) : stateChanged starts l =
    if l.holdCount + 1 = l.profile.holdLimit then slated (jobHeld l) else jobHeld l := by
  rw [stateChanged, if_neg (by simp [acquires, h]), if_pos h]

theorem stateChanged_other (starts : Bool) {l : Lane} (h : acquires l = false) (h' : l.state ≠ .holding) :
    stateChanged starts l = l := by
  rw [stateChanged, if_neg (by rw [h]; decide), if_neg h']

theorem jobStateChange_acquires (h : acquires (p.lanes.get n) = true) : jobStateChange n p = acquire n p := by
  simp only [acquires, Bool.and_eq_true, decide_eq_true_eq] at h
  unfold jobStateChange
  rw [h.1]
  exact if_pos h.2

theorem jobStateChange_holding (h : (p.lanes.get n).state = .holding) : jobStateChange n p = holdJob n p := by
  unfold jobStateChange
  rw [h]

theorem jobStateChange_other (h : acquires (p.lanes.get n) = false) (h' : (p.lanes.get n).state ≠ .holding) :
    jobStateChange n p = p := by
  unfold jobStateChange
  simp only [acquires, Bool.and_eq_false_iff, decide_eq_false_iff_not] at h
  split
  · next hs => exact if_neg (by simpa [hs] using h)
  · next hs => exact absurd hs h'
  all_goals rfl

/-- The lane with its acquisition counted, before a START ends with it. -/
theorem acquire_eq (p : Part) : acquire n p =
    if laneOpKind p n = some .start then
      modLane n (fun l => { l with acquireAt := none }) (endLaneOp n .complete (modLane n (acquired false) p))
    else modLane n (acquired false) p := by
  have e : (bumpLane n (fun c => { c with acquisitions := bump c.acquisitions })
      (modLane n (fun l => { l with state := .converting }) p)) = modLane n (acquired false) p := by
    simp only [bumpLane_eq, modLane, Four.modify_modify]
    rfl
  unfold acquire
  dsimp only
  rw [e]
  rfl

theorem holdJob_eq (p : Part) : holdJob n p =
    if (p.lanes.get n).holdCount + 1 = (p.lanes.get n).profile.holdLimit then enterSlate n (modLane n jobHeld p)
    else modLane n jobHeld p := by
  have e : (bumpLane n (fun c => { c with heldJobs := bump c.heldJobs })
      (modLane n (fun l => { l with holdCount := l.holdCount + 1 }) p)) = modLane n jobHeld p := by
    simp only [bumpLane_eq, modLane, Four.modify_modify]
    rfl
  unfold holdJob
  dsimp only
  rw [e]
  simp only [modLane_lanes, Four.get_modify_same]
  rfl

/-- The lane as it enters SLATE, before a COMMIT ends with it. -/
def slateEntered (n : Ix) (p : Part) : Part :=
  bumpLane n (fun c => { c with slateEntries := bump c.slateEntries })
    (latchSet (.slate n) (modLane n (fun l => { l with state := .slate }) p))

theorem enterSlate_eq (p : Part) : enterSlate n p = commitSwap n (slateEntered n p) := rfl

theorem enterSlate_mgmt (hc : (p.lanes.get n).commit = none) : (enterSlate n p).mgmt = p.mgmt := by
  have hs : ((slateEntered n p).lanes.get n).commit = none := by
    simpa only [slateEntered, bumpLane_eq, modLane_lanes, latchSet_frame, Four.get_modify_same] using hc
  rw [enterSlate_eq, commitSwap_none hs]
  exact storeBlind_mgmt.latch _ _

theorem enterSlate_fault (p : Part) : MildFault p.fault (enterSlate n p).fault
    ∧ (enterSlate n p).fault.fatalDue = p.fault.fatalDue ∧ (enterSlate n p).store = p.store := by
  have hf : (enterSlate n p).fault = (latchSet (.slate n) (modLane n (fun l => { l with state := .slate }) p)).fault := by
    rw [enterSlate]
    simp only [commitSwap_frame, bumpLane_eq, modLane_fault]
  have hs : (enterSlate n p).store = (latchSet (.slate n) (modLane n (fun l => { l with state := .slate }) p)).store := by
    rw [enterSlate]
    simp only [commitSwap_frame, bumpLane_eq, modLane_store]
  rw [hf, hs]
  refine ⟨(mild_latchSet (.slate n) (modLane n (fun l => { l with state := .slate }) p)).toMildFault, ?_, ?_⟩
  · simp only [latchSet_fault_flags, modLane_fault]
  · simp only [latchSet_frame, modLane_store]

theorem jobStateChange_lanes (p : Part) : (jobStateChange n p).lanes =
    p.lanes.modify n (stateChanged (decide (laneOpKind p n = some .start))) := by
  by_cases ha : acquires (p.lanes.get n) = true
  · have hs := stateChanged_acquires (decide (laneOpKind p n = some .start)) ha
    rw [jobStateChange_acquires ha, acquire_eq]
    by_cases hk : laneOpKind p n = some .start
    · rw [if_pos hk, modLane_lanes, (endLaneOp_frame _ _ _).2.2.2.2.2.1, modLane_lanes, Four.modify_modify, Four.modify, Four.modify, hs]
      simp only [hk, decide_true]
      rfl
    · rw [if_neg hk, modLane_lanes, Four.modify, Four.modify, hs]
      simp only [hk, decide_false]
  · rw [Bool.not_eq_true] at ha
    by_cases hh : (p.lanes.get n).state = .holding
    · rw [jobStateChange_holding hh, holdJob_eq, Four.modify, stateChanged_holding _ hh]
      split_ifs
      · rw [enterSlate_lanes, modLane_lanes, Four.modify_modify]
        rfl
      · rfl
    · rw [jobStateChange_other ha hh, Four.modify, stateChanged_other _ ha hh, Four.set_get]

/-- The pending record after the change of state: a START ends where the lane acquires (R128, R174). -/
theorem jobStateChange_mgmt (hc : (p.lanes.get n).commit = none) : (jobStateChange n p).mgmt =
    if acquires (p.lanes.get n) = true ∧ laneOpKind p n = some .start then
      { p.mgmt with laneOps := p.mgmt.laneOps.set n none } else p.mgmt := by
  by_cases ha : acquires (p.lanes.get n) = true
  · rw [jobStateChange_acquires ha, acquire_eq]
    by_cases hk : laneOpKind p n = some .start
    · rw [if_pos hk, if_pos ⟨ha, hk⟩]
      exact endLaneOp_mgmt ..
    · rw [if_neg hk, if_neg fun e => hk e.2]
      rfl
  · rw [if_neg fun e => ha e.1]
    rw [Bool.not_eq_true] at ha
    by_cases hh : (p.lanes.get n).state = .holding
    · rw [jobStateChange_holding hh, holdJob_eq]
      split_ifs
      · exact enterSlate_mgmt (by rw [modLane_lanes, Four.get_modify_same]; exact hc)
      · rfl
    · rw [jobStateChange_other ha hh]

theorem jobStateChange_fault (p : Part) : MildFault p.fault (jobStateChange n p).fault
    ∧ (jobStateChange n p).fault.fatalDue = p.fault.fatalDue ∧ (jobStateChange n p).store = p.store := by
  by_cases ha : acquires (p.lanes.get n) = true
  · have h : (acquire n p).fault = p.fault ∧ (acquire n p).store = p.store := by
      rw [acquire_eq]
      split_ifs <;> simp
    rw [jobStateChange_acquires ha, h.1, h.2]
    exact ⟨.refl _, rfl, rfl⟩
  · rw [Bool.not_eq_true] at ha
    by_cases hh : (p.lanes.get n).state = .holding
    · rw [jobStateChange_holding hh, holdJob_eq]
      split_ifs
      · exact enterSlate_fault (modLane n jobHeld p)
      · exact ⟨.refl _, rfl, rfl⟩
    · rw [jobStateChange_other ha hh]
      exact ⟨.refl _, rfl, rfl⟩

end Change

/-! ### The job start -/

section Begun
variable {n : Ix} {i : Int} {parity : Option Parity} {p : Part}

theorem usableEntry_congr {q : Part} (h : q.store = p.store) : usableEntry q = usableEntry p := by
  funext e
  unfold usableEntry slotOf
  rw [h]

/-- The snapshot of a job is the same before and after the swap (R61, R63, R64). -/
theorem jobAtStart_swapped : jobAtStart (commitSwap n p) n i parity = jobAtStart p n i parity := by
  have hpr : ((commitSwap n p).lanes.get n).profile = (p.lanes.get n).profile := (commitSwap_lane_frame n p n).2.2
  have hsnap : snapshot (commitSwap n p) n = snapshot p n := by
    unfold snapshot
    simp only [hpr, commitSwap_frame]
  have huse : usableEntry (commitSwap n p) = usableEntry p := usableEntry_congr (by simp only [commitSwap_frame])
  unfold jobAtStart fallbackOf
  simp only [hpr, hsnap, huse]

/-- The lane that takes a job, before its change of state (R61, R71, R83, R163). -/
def jobTaken (job : JobRec) (taken : List SlotIx) (l : Lane) : Lane :=
  { swapped l with
    job := { job with pinned := taken }, jobNumber := l.jobNumber + 1, jobCtr := countJob l.state job l.jobCtr }

/-- The lane after a job start, before its carried packets and its timecode. -/
def begunLane (starts : Bool) (job : JobRec) (taken : List SlotIx) (l : Lane) : Lane := stateChanged starts (jobTaken job taken l)

/-- The part whose lane has taken a job that holds no pin yet. -/
def jobOpened (n : Ix) (i : Int) (parity : Option Parity) (p : Part) : Part :=
  modLane n (fun l => { l with job := jobAtStart p n i parity, jobNumber := l.jobNumber + 1 }) (commitSwap n p)

/-- The part whose lane has taken a job with its pins. -/
def jobPinned (n : Ix) (i : Int) (parity : Option Parity) (p : Part) : Part :=
  bumpJob n (countJob (p.lanes.get n).state (jobAtStart p n i parity))
    (pinAll n (p.lanes.get n).profile.source (slotsToPin (jobAtStart p n i parity)) (jobOpened n i parity p))

theorem jobBegun_eq : jobBegun n i parity p = jobStateChange n (jobPinned n i parity p) := by
  unfold jobBegun jobPinned jobOpened
  simp only [jobAtStart_swapped, commitSwap_lane_frame]

/-- The operation that stands after the swap (R163, R174). -/
def opAfterSwap (n : Ix) (p : Part) : Option PendingOp :=
  if (p.lanes.get n).commit.isSome then none else p.mgmt.laneOps.get n

theorem jobPinned_mgmt : (jobPinned n i parity p).mgmt = { p.mgmt with
    laneOps := if (p.lanes.get n).commit.isSome then p.mgmt.laneOps.set n none else p.mgmt.laneOps } := by
  have h : (jobPinned n i parity p).mgmt = (commitSwap n p).mgmt :=
    pinAll_keeps storeBlind_mgmt (fun _ _ => rfl) (slotsToPin (jobAtStart p n i parity)) (jobOpened n i parity p)
  rw [h, commitSwap_mgmt]
  split_ifs <;> rfl

theorem jobPinned_op : (jobPinned n i parity p).mgmt.laneOps.get n = opAfterSwap n p := by
  rw [jobPinned_mgmt, opAfterSwap]
  split_ifs with h
  · exact Four.get_set_same ..
  · rfl

theorem jobPinned_lanes {taken : List SlotIx}
    (h : (pinAll n (p.lanes.get n).profile.source (slotsToPin (jobAtStart p n i parity)) (jobOpened n i parity p)).lanes =
      (jobOpened n i parity p).lanes.modify n (pinnedOn taken)) :
    (jobPinned n i parity p).lanes = p.lanes.modify n (jobTaken (jobAtStart p n i parity) taken) := by
  have hctr : (swapped (p.lanes.get n)).jobCtr = (p.lanes.get n).jobCtr ∧ (swapped (p.lanes.get n)).jobNumber =
      (p.lanes.get n).jobNumber := by
    unfold swapped
    split <;> exact ⟨rfl, rfl⟩
  rw [jobPinned, bumpJob_eq, modLane_lanes, h, jobOpened, modLane_lanes, commitSwap_lanes]
  simp only [Four.modify_modify]
  refine congrArg (p.lanes.set n) ?_
  rw [jobTaken, ← hctr.1, ← hctr.2]
  rfl

/-- The lane after a job start that took the pins `taken` (R61 to R74, R83, R128, R130, R163). -/
theorem jobBegun_lanes_of {taken : List SlotIx}
    (h : (pinAll n (p.lanes.get n).profile.source (slotsToPin (jobAtStart p n i parity)) (jobOpened n i parity p)).lanes =
      (jobOpened n i parity p).lanes.modify n (pinnedOn taken)) :
    (jobBegun n i parity p).lanes = p.lanes.modify n
      (begunLane (decide ((opAfterSwap n p).map PendingOp.op = some .start)) (jobAtStart p n i parity) taken) := by
  rw [jobBegun_eq, jobStateChange_lanes, jobPinned_lanes h, Four.modify_modify, laneOpKind, jobPinned_op]
  rfl

theorem jobBegun_lanes : ∃ taken : List SlotIx, taken.Sublist (slotsToPin (jobAtStart p n i parity))
    ∧ (jobBegun n i parity p).lanes = p.lanes.modify n
      (begunLane (decide ((opAfterSwap n p).map PendingOp.op = some .start)) (jobAtStart p n i parity) taken) := by
  obtain ⟨taken, hsub, h⟩ := pinAll_lanes (n := n) (source := (p.lanes.get n).profile.source)
    (slotsToPin (jobAtStart p n i parity)) (jobOpened n i parity p)
  exact ⟨taken, hsub, jobBegun_lanes_of h⟩

/-- The pending record after a job start: a COMMIT ends with the swap, a START where the lane acquires (R128, R163, R174). -/
theorem jobBegun_op {taken : List SlotIx}
    (h : (pinAll n (p.lanes.get n).profile.source (slotsToPin (jobAtStart p n i parity)) (jobOpened n i parity p)).lanes =
      (jobOpened n i parity p).lanes.modify n (pinnedOn taken)) : (jobBegun n i parity p).mgmt.laneOps.get n =
    if (decide ((p.lanes.get n).state = .acquiring) && isCaseTwo (jobAtStart p n i parity).kase) = true
      ∧ (opAfterSwap n p).map PendingOp.op = some .start then none else opAfterSwap n p := by
  have hl : (jobPinned n i parity p).lanes.get n = jobTaken (jobAtStart p n i parity) taken (p.lanes.get n) := by
    rw [jobPinned_lanes h, Four.get_modify_same]
  have hc : ((jobPinned n i parity p).lanes.get n).commit = none := by
    rw [hl]
    unfold jobTaken swapped
    split
    · rfl
    · next hn => exact hn
  have hs : acquires ((jobPinned n i parity p).lanes.get n) =
      (decide ((p.lanes.get n).state = .acquiring) && isCaseTwo (jobAtStart p n i parity).kase) := by
    rw [hl, acquires, ← FatalLaw.swapped_state (p.lanes.get n)]
    rfl
  rw [jobBegun_eq, jobStateChange_mgmt hc, hs, laneOpKind, jobPinned_op]
  split_ifs with hst
  · exact Four.get_set_same ..
  · exact jobPinned_op

theorem jobBegun_fault : MildFault p.fault (jobBegun n i parity p).fault := by
  rw [jobBegun_eq]
  refine MildFault.trans ?_ (jobStateChange_fault _).1
  have h := pinAll_mild (n := n) (source := (p.lanes.get n).profile.source) (slotsToPin (jobAtStart p n i parity))
    (jobOpened n i parity p)
  have e : (jobOpened n i parity p).fault = p.fault := (commitSwap_frame n p).2.2.2.2.2.2.2.1
  rw [e] at h
  exact h

/-- A job start that may take all its pins (R52, R71). -/
theorem jobBegun_pins (hnd : (slotsToPin (jobAtStart p n i parity)).Nodup)
    (h : ∀ k ∈ slotsToPin (jobAtStart p n i parity), canPin (p.lanes.get n).profile.source (slotOf p k) = true) :
    (jobBegun n i parity p).lanes = p.lanes.modify n
        (begunLane (decide ((opAfterSwap n p).map PendingOp.op = some .start)) (jobAtStart p n i parity)
          (slotsToPin (jobAtStart p n i parity)))
      ∧ (jobBegun n i parity p).fault.fatalDue = p.fault.fatalDue
      ∧ ∀ j, slotOf (jobBegun n i parity p) j =
        if j ∈ slotsToPin (jobAtStart p n i parity) then { slotOf p j with pins := (slotOf p j).pins + 1 }
        else slotOf p j := by
  have hslot (j : SlotIx) : slotOf (jobOpened n i parity p) j = slotOf p j :=
    slotOf_congr j p (commitSwap_frame n p).2.2.2.2.1
  obtain ⟨hl, hf, hs⟩ := pinAll_all (n := n) hnd (p := jobOpened n i parity p) (fun k hk => by rw [hslot]; exact h k hk)
  obtain ⟨-, hdue, hstore⟩ := jobStateChange_fault (n := n) (jobPinned n i parity p)
  refine ⟨jobBegun_lanes_of hl, ?_, fun j => ?_⟩
  · have e : (jobOpened n i parity p).fault = p.fault := (commitSwap_frame n p).2.2.2.2.2.2.2.1
    rw [jobBegun_eq, hdue, ← e, ← hf]
    rfl
  · rw [jobBegun_eq, slotOf_congr j _ hstore, ← hslot, ← hs]
    rfl

end Begun

/-! ### The timecode -/

section Timecode
variable {n : Ix} {p : Part}

/-- The lane's counter and fresh flag after the advance (R152). -/
def tcNext (j : Nat) (l : Lane) : Nat × Bool :=
  tcAdvance (labelsPerDay (stdRow l.profile.output).rate) l.tcCount l.fresh (labelPosition l.profile.output l.job.picParity j)

/-- The count that the lane's counter is re-seeded with, if it is (R153). -/
def tcSeed (j : Nat) (l : Lane) : Option Nat :=
  if l.profile.tcMode = .follow ∧ labelPosition l.profile.output l.job.picParity j = 0 then tcReseed l (tcNext j l).1 else none

/-- The label of the job's picture (R152). -/
def tcLabel (j : Nat) (l : Lane) : Label :=
  { countToLabel (stdRow l.profile.output).rate ((tcSeed j l).getD (tcNext j l).1) with
    second := decide (labelPosition l.profile.output l.job.picParity j = 1) }

/-- The lane after the timecode of a job start (R152, R153). -/
def timed (j : Nat) (l : Lane) : Lane :=
  if l.profile.tcMode = .off then l
  else
    { l with
      tcCount := (tcSeed j l).getD (tcNext j l).1
      fresh := (tcNext j l).2
      lastLabel := some (tcLabel j l)
      carryCtr := { l.carryCtr with
        tcEmitted := bump l.carryCtr.tcEmitted
        tcReseeds := if (tcSeed j l).isSome then bump l.carryCtr.tcReseeds else l.carryCtr.tcReseeds } }

/-- The timecode packet of a job's picture (R152). -/
def tcPacket (j : Nat) (n : Ix) (p : Part) : Option Packet :=
  if (p.lanes.get n).profile.tcMode = .off then none
  else
    some ⟨(p.links.get (p.lanes.get n).profile.source).settings.tcKind,
      (p.links.get (p.lanes.get n).profile.source).settings.tcSubkind, labelWords (tcLabel j (p.lanes.get n))⟩

theorem timecode_eq (j : Nat) (p : Part) : timecode n j p = (modLane n (timed j) p, tcPacket j n p) := by
  have hset : p.lanes.set n (p.lanes.get n) = p.lanes := Four.set_get ..
  unfold timecode
  dsimp only
  by_cases h : (p.lanes.get n).profile.tcMode = .off
  · have e : modLane n (timed j) p = p := by
      simp only [modLane, Four.modify, timed, if_pos h, hset]
    rw [if_pos h, e, tcPacket, if_pos h]
  · rw [if_neg h, tcPacket, if_neg h]
    refine Prod.ext ?_ rfl
    simp only [bumpCarry_eq, modLane, Four.modify_modify]
    simp only [Four.modify, timed, if_neg h]
    rfl

end Timecode

end Sys2Proof.Machine.JobStarts
end

section
/-! SUPPORT. The record of a job at its start: bracket search, taps, fallback and motion (R64 to R74). -/

namespace Sys2Proof.Machine.JobSearch

open Frames Keeping HistoryLaw StoreValues SlotsLaw LaneWorks

/-! ### The bracket search -/

section Search
variable {snap use l : List Entry} {t : Int} {a b o : Entry}

theorem bracketPair_some (h : bracketPair t l = some (a, b)) : [a, b] <:+: l ∧ a.stamp ≤ t ∧ t < b.stamp := by
  induction l with
  | nil => cases h
  | cons x l ih =>
    cases l with
    | nil => cases h
    | cons y l =>
      unfold bracketPair at h
      split at h
      · next hc =>
        cases h
        exact ⟨⟨[], l, rfl⟩, hc⟩
      · obtain ⟨hi, hc⟩ := ih h
        exact ⟨hi.trans (List.suffix_cons x (y :: l)).isInfix, hc⟩

/-- Without a bracket, the target lies at or after every stamp, if it does so for the first (R67). -/
theorem bracketPair_none (h : bracketPair t l = none) (ho : l.head? = some o) (hot : o.stamp ≤ t)
    (ha : l.getLast? = some a) : a.stamp ≤ t := by
  induction l generalizing o with
  | nil => cases ho
  | cons x l ih =>
    cases ho
    cases l with
    | nil => cases ha; exact hot
    | cons y l =>
      unfold bracketPair at h
      split at h
      · cases h
      · next hc => exact ih h rfl (not_lt.1 fun hlt => hc ⟨hot, hlt⟩) (by rwa [List.getLast?_cons_cons] at ha)

/-- The usable entries of the newest entry's segment (R66). -/
def currentOf (last : Entry) (use : List Entry) : List Entry :=
  use.filter (fun e => decide ((some last).map Entry.segment = some e.segment))

/-- The usable entries of other segments (R68). -/
def olderOf (last : Entry) (use : List Entry) : List Entry :=
  use.filter (fun e => decide ((some last).map Entry.segment ≠ some e.segment))

theorem currentOf_eq (last : Entry) (use : List Entry) : use.filter (fun e => e.segment == last.segment) = currentOf last use :=
  List.filter_congr fun e _ => by
    by_cases h : e.segment = last.segment
    · simp [h]
    · simp [h, Ne.symm h]

theorem olderOf_eq (last : Entry) (use : List Entry) : use.filter (fun e => e.segment != last.segment) = olderOf last use :=
  List.filter_congr fun e _ => by
    by_cases h : e.segment = last.segment
    · simp [h]
    · simp [h, Ne.symm h]

/-- What the search finds where no usable entry of the newest segment lies at or before the target (R68). -/
def foundThird (use current older : List Entry) : Found :=
  match older.getLast? with
  | some e => ⟨.frozen, some e, some 0, use.filter (fun x => x.segment == e.segment)⟩
  | none => ⟨.lateClamp, current.head?, some 0, current⟩

/-- What the search finds where one does (R67, R69). -/
def foundSecond (t : Int) (current : List Entry) : Found :=
  match bracketPair t current with
  | some (a, b) => ⟨.bracket, some a, some (bracketPhase t a.stamp b.stamp), current⟩
  | none => ⟨.earlyClamp, current.getLast?, some 0, current⟩

theorem bracketSearch_empty (hu : use = []) : bracketSearch snap use t = ⟨.slate, none, none, []⟩ := by
  subst hu
  unfold bracketSearch
  split
  · rfl
  · rfl
  · next h => cases h

theorem bracketSearch_third {last : Entry} (hl : snap.getLast? = some last) (hu : use ≠ [])
    (hn : ∀ o, (currentOf last use).head? = some o → t < o.stamp) :
    bracketSearch snap use t = foundThird use (currentOf last use) (olderOf last use) := by
  obtain ⟨u, us, rfl⟩ := List.exists_cons_of_ne_nil hu
  unfold bracketSearch
  rw [hl]
  dsimp only
  rw [currentOf_eq, olderOf_eq]
  have hlate {x : Option Entry} (hx : (currentOf last (u :: us)).head? = x) :
      (⟨.lateClamp, x, some 0, currentOf last (u :: us)⟩ : Found) =
        ⟨.lateClamp, (currentOf last (u :: us)).head?, some 0, currentOf last (u :: us)⟩ := by rw [hx]
  cases hh : (currentOf last (u :: us)).head? with
  | none =>
    unfold foundThird
    cases (olderOf last (u :: us)).getLast? with
    | some e => rfl
    | none => exact hlate hh
  | some o =>
    unfold foundThird
    refine (if_neg (not_le.2 (hn o hh))).trans ?_
    cases (olderOf last (u :: us)).getLast? with
    | some e => rfl
    | none => exact hlate hh

theorem bracketSearch_second {last : Entry} (hl : snap.getLast? = some last) (hu : use ≠ [])
    (ho : (currentOf last use).head? = some o) (hot : o.stamp ≤ t) :
    bracketSearch snap use t = foundSecond t (currentOf last use) := by
  obtain ⟨u, us, rfl⟩ := List.exists_cons_of_ne_nil hu
  unfold bracketSearch
  rw [hl]
  dsimp only
  rw [currentOf_eq, ho]
  refine (if_pos hot).trans ?_
  unfold foundSecond
  cases bracketPair t (currentOf last (u :: us)) with
  | some ab => rfl
  | none => rfl

/-- An entry of the newest segment, with the list of its segment. -/
theorem mem_currentOf {last : Entry} (h : a ∈ currentOf last use) :
    a ∈ use ∧ currentOf last use = use.filter (fun e => decide (e.segment = a.segment)) := by
  obtain ⟨hm, hs⟩ := List.mem_filter.1 h
  have hs' : last.segment = a.segment := by simpa using hs
  refine ⟨hm, List.filter_congr fun e _ => ?_⟩
  simp [hs', eq_comm]

/-- The search of R65 to R69, with the list that its taps are drawn from (R70). -/
theorem bracketSearch_spec (h : snap = [] → use = []) :
    caseIs snap use t (bracketSearch snap use t).kase (bracketSearch snap use t).anchor (bracketSearch snap use t).phase
      ∧ ∀ a, (bracketSearch snap use t).anchor = some a →
        a ∈ use ∧ (bracketSearch snap use t).list = use.filter (fun e => decide (e.segment = a.segment)) := by
  by_cases hu : use = []
  · rw [bracketSearch_empty hu]
    exact ⟨⟨hu, rfl, rfl⟩, fun a ha => by cases ha⟩
  obtain ⟨last, hl⟩ := Option.ne_none_iff_exists'.1 (fun e => hu (h (List.getLast?_eq_none_iff.1 e)))
  by_cases hn : ∀ o, (currentOf last use).head? = some o → t < o.stamp
  · rw [bracketSearch_third hl hu hn, foundThird]
    cases he : (olderOf last use).getLast? with
    | some e =>
      refine ⟨?_, fun a ha => ?_⟩
      · unfold caseIs
        rw [hl]
        exact ⟨e, rfl, he, hn, rfl⟩
      · cases ha
        exact ⟨List.mem_of_mem_filter (List.mem_of_getLast? he), List.filter_congr fun x _ => by simp [Bool.beq_eq_decide_eq]⟩
    | none =>
      have hold := List.getLast?_eq_none_iff.1 he
      have hcur : currentOf last use = use := by
        refine List.filter_eq_self.2 fun x hx => ?_
        have hx' := List.filter_eq_nil_iff.1 hold x hx
        simpa using hx'
      obtain ⟨o, ho⟩ : ∃ o, (currentOf last use).head? = some o := by
        rw [hcur]
        exact ⟨use.head hu, List.head?_eq_some_head hu⟩
      refine ⟨?_, fun a ha => ?_⟩
      · unfold caseIs
        rw [hl]
        exact ⟨o, ho, hold, ho, hn o ho, rfl⟩
      · exact mem_currentOf (List.mem_of_head? ha)
  · simp only [not_forall, not_lt] at hn
    obtain ⟨o, ho, hot⟩ := hn
    rw [bracketSearch_second hl hu ho hot, foundSecond]
    cases hb : bracketPair t (currentOf last use) with
    | some ab =>
      obtain ⟨a, b⟩ := ab
      obtain ⟨hi, hat, htb⟩ := bracketPair_some hb
      refine ⟨?_, fun a' ha' => ?_⟩
      · unfold caseIs
        rw [hl]
        exact ⟨a, b, rfl, hi, hat, htb, ⟨o, ho, hot⟩, rfl⟩
      · cases ha'
        exact mem_currentOf (hi.subset (by simp))
    | none =>
      have hne : currentOf last use ≠ [] := by intro e; rw [e] at ho; cases ho
      obtain ⟨a, ha⟩ : ∃ a, (currentOf last use).getLast? = some a := ⟨_, List.getLast?_eq_some_getLast hne⟩
      refine ⟨?_, fun a' ha' => ?_⟩
      · unfold caseIs
        rw [hl]
        exact ⟨a, ha, ha, bracketPair_none hb ho hot ha, ⟨o, ho, hot⟩, rfl⟩
      · exact mem_currentOf (List.mem_of_getLast? ha')

/-- The phase of a job lies in 0..63 (R69). -/
theorem phase_lt {kase : JobCase} {anchor : Option Entry} {φ : Nat} (h : caseIs snap use t kase anchor (some φ)) : φ < 64 := by
  cases kase with
  | none => exact h.elim
  | slate => cases h.2.2
  | bracket =>
    obtain ⟨a, b, -, -, hat, htb, -, hphase⟩ := h
    cases hphase
    have hb : 0 < b.stamp - a.stamp := by omega
    have hlt : 64 * (t - a.stamp) / (b.stamp - a.stamp) < 64 := Int.ediv_lt_of_lt_mul hb (by omega)
    omega
  | earlyClamp => obtain ⟨a, -, -, -, -, hphase⟩ := h; cases hphase; decide
  | frozen => obtain ⟨a, -, -, -, hphase⟩ := h; cases hphase; decide
  | lateClamp => obtain ⟨a, -, -, -, -, hphase⟩ := h; cases hphase; decide

end Search

/-! ### Taps and fallback -/

section Taps
variable {l before behind : List Entry} {a e : Entry} {p : Part} {k : SlotIx}

theorem tapOf_eq (e : Option Entry) : tapOf e = freshTap e := by cases e <;> rfl

/-- The sequence numbers of a history, counted from its first entry (R29). -/
theorem runsTo_seq {next : Nat} (h : runsTo next (a :: l)) (i : Nat) (hi : i < l.length) :
    l[i].seq = (a.seq + i + 1) % 4294967296 := by
  induction l generalizing a i with
  | nil => cases hi
  | cons b l ih =>
    obtain ⟨hb, hr⟩ := h
    cases i with
    | zero => exact hb
    | succ i =>
      have := ih hr i (by simpa using hi)
      rw [List.getElem_cons_succ, this, hb]
      omega

/-- No two entries of a history have the same sequence number (R29). -/
theorem seqs_differ {next : Nat} (h : runsTo next l) (hlen : l.length ≤ 8) : l.Pairwise (fun a b => a.seq ≠ b.seq) := by
  induction l with
  | nil => exact .nil
  | cons a l ih =>
    rw [List.length_cons] at hlen
    refine List.pairwise_cons.2 ⟨fun b hb => ?_, ih (runsTo_tail h) (by omega)⟩
    obtain ⟨i, hi, rfl⟩ := List.mem_iff_getElem.1 hb
    rw [runsTo_seq h i hi]
    omega

theorem split_at (hd : l.Pairwise (fun a b => a.seq ≠ b.seq)) (ha : a ∈ l) :
    ∃ before behind, l = before ++ a :: behind ∧ ∀ e ∈ before, e.seq ≠ a.seq := by
  obtain ⟨before, behind, rfl⟩ := List.append_of_mem ha
  exact ⟨before, behind, rfl, fun e he => (List.pairwise_append.1 hd).2.2 e he a List.mem_cons_self⟩

theorem findIdx_split (h : ∀ e ∈ before, e.seq ≠ a.seq) :
    (before ++ a :: behind).findIdx (fun e => e.seq == a.seq) = before.length := by
  rw [List.findIdx_append, if_neg (by simpa using h), List.findIdx_cons]
  simp

/-- The taps stand around the anchor in its segment (R70). -/
theorem tapsOf_split (h : ∀ e ∈ before, e.seq ≠ a.seq) : tapsOf (before ++ a :: behind) a =
    (freshTap before.getLast?, freshTap (some a), freshTap behind[0]?, freshTap behind[1]?) := by
  have hb : (if before.length = 0 then none else (before ++ a :: behind)[before.length - 1]?) = before.getLast? := by
    rcases List.eq_nil_or_concat before with rfl | ⟨xs, x, rfl⟩
    · rfl
    · simp
  have h1 : (before ++ a :: behind)[before.length + 1]? = behind[0]? := by
    rw [List.getElem?_append_right (by omega)]; simp
  have h2 : (before ++ a :: behind)[before.length + 2]? = behind[1]? := by
    rw [List.getElem?_append_right (by omega)]; simp
  unfold tapsOf
  dsimp only
  rw [findIdx_split h, hb, h1, h2]
  simp only [tapOf_eq]

theorem fallbackOf_split (h : ∀ e ∈ before, e.seq ≠ a.seq) : fallbackOf p (before ++ a :: behind) a =
    (before.filter (fun e => usableEntry p e && isPicture e)).getLast? := by
  have ht : (before ++ a :: behind).takeWhile (fun e => e.seq != a.seq) = before := by
    rw [List.takeWhile_append_of_pos (by simpa using h), List.takeWhile_cons_of_neg (by simp), List.append_nil]
  rw [fallbackOf, ht]

theorem usable_unpoisoned (h : usableEntry p e = true) (hk : entrySlot e = some k) : (slotOf p k).poisoned = false := by
  unfold usableEntry at h
  unfold entrySlot at hk
  split at hk
  · next k' v he =>
    cases hk
    rw [he] at h
    simpa using (Bool.and_eq_true_iff.1 h).2
  · cases hk

/-- The entries of the taps are the anchor and members of the list (R70). -/
theorem tapsOf_entries {x : Tap} (hx : x ∈ [(tapsOf l a).1, (tapsOf l a).2.1, (tapsOf l a).2.2.1, (tapsOf l a).2.2.2])
    (he : x.entry = some e) : e = a ∨ e ∈ l := by
  have hget (i : Nat) (h : l[i]? = some e) : e = a ∨ e ∈ l := .inr (List.mem_of_getElem? h)
  simp only [List.mem_cons, List.not_mem_nil, or_false] at hx
  rcases hx with rfl | rfl | rfl | rfl
  · change (if _ then none else _) = some e at he
    split_ifs at he
    exact hget _ he
  · exact .inl (Option.some.inj he).symm
  · exact hget _ he
  · exact hget _ he

end Taps

/-! ### The record -/

section Record
variable {p : Part} {n : Ix} {i : Int} {parity : Option Parity} {a e : Entry} {k : SlotIx}

/-- The usable entries of a job's snapshot (R64). -/
def usableOf (p : Part) (n : Ix) : List Entry := (snapshot p n).filter (usableEntry p)

/-- The instant that a job reaches for (R63). -/
def targetOf (p : Part) (n : Ix) (i : Int) : Int := i - (p.lanes.get n).profile.latency

/-- What the search of a job finds (R65 to R69). -/
def jobFound (p : Part) (n : Ix) (i : Int) : Found := bracketSearch (snapshot p n) (usableOf p n) (targetOf p n i)

theorem jobFound_spec : caseIs (snapshot p n) (usableOf p n) (targetOf p n i) (jobFound p n i).kase (jobFound p n i).anchor
      (jobFound p n i).phase
    ∧ ∀ a, (jobFound p n i).anchor = some a → a ∈ usableOf p n
      ∧ (jobFound p n i).list = (usableOf p n).filter (fun e => decide (e.segment = a.segment)) :=
  bracketSearch_spec fun h => by rw [usableOf, h]; rfl

/-- The four taps of a job record. -/
def tapList (j : JobRec) : List Tap := [j.tm1, j.t0, j.t1, j.t2]

theorem jobAtStart_taps (ha : (jobFound p n i).anchor = some a) :
    tapList (jobAtStart p n i parity) = [(tapsOf (jobFound p n i).list a).1, (tapsOf (jobFound p n i).list a).2.1,
      (tapsOf (jobFound p n i).list a).2.2.1, (tapsOf (jobFound p n i).list a).2.2.2] := by
  unfold jobFound usableOf targetOf at *
  unfold tapList jobAtStart
  simp only [ha]

theorem jobAtStart_noTaps (ha : (jobFound p n i).anchor = none) :
    tapList (jobAtStart p n i parity) = [freshTap none, freshTap none, freshTap none, freshTap none]
      ∧ (jobAtStart p n i parity).fallback = none := by
  unfold jobFound usableOf targetOf at ha
  unfold tapList jobAtStart
  simp only [ha]
  exact ⟨rfl, rfl⟩

theorem jobAtStart_fallback (ha : (jobFound p n i).anchor = some a) : (jobAtStart p n i parity).fallback =
    (if (jobPresence (jobAtStart p n i parity)).some then none else fallbackOf p (snapshot p n) a).map (fun e => ⟨e, none⟩) := by
  unfold jobFound usableOf targetOf at ha
  unfold jobPresence Presence.some jobAtStart
  simp only [ha]

/-- T0 is the anchor (R70). -/
theorem jobAtStart_anchor : (jobAtStart p n i parity).t0.entry = (jobFound p n i).anchor := by
  cases ha : (jobFound p n i).anchor with
  | none => exact congrArg (fun ts : List Tap => (ts[1]?).bind Tap.entry) (jobAtStart_noTaps (parity := parity) ha).1
  | some a => exact congrArg (fun ts : List Tap => (ts[1]?).bind Tap.entry) (jobAtStart_taps (parity := parity) ha)

/-- The slots that a job asks for are those that its taps and its fallback name (R71). -/
theorem slotsToPin_eq (j : JobRec) : slotsToPin j = jobSlots j := by
  unfold slotsToPin jobSlots
  rw [List.filterMap_filter]
  refine congrArg (· ++ _) (List.filterMap_congr fun x _ => ?_)
  unfold Tap.isPresent
  cases x.state <;> rfl

theorem fallback_usable {f : Fallback} (hf : (jobAtStart p n i parity).fallback = some f) : usableEntry p f.entry = true := by
  cases ha : (jobFound p n i).anchor with
  | none => rw [(jobAtStart_noTaps ha).2] at hf; cases hf
  | some a =>
    rw [jobAtStart_fallback ha] at hf
    obtain ⟨e, he, rfl⟩ := Option.map_eq_some_iff.1 hf
    split_ifs at he
    have hm := List.mem_of_getLast? he
    exact (Bool.and_eq_true_iff.1 (List.mem_filter.1 hm).2).1

theorem tap_usable {x : Tap} (hx : x ∈ tapList (jobAtStart p n i parity)) (he : x.entry = some e) : usableEntry p e = true := by
  have hmem : e ∈ usableOf p n := by
    cases ha : (jobFound p n i).anchor with
    | none =>
      rw [(jobAtStart_noTaps ha).1] at hx
      simp only [List.mem_cons, List.not_mem_nil, or_false, or_self] at hx
      rw [hx] at he
      cases he
    | some a =>
      rw [jobAtStart_taps ha] at hx
      obtain ⟨hau, hlist⟩ := jobFound_spec.2 a ha
      rcases tapsOf_entries hx he with rfl | hl
      · exact hau
      · rw [hlist] at hl
        exact List.mem_of_mem_filter hl
  exact (List.mem_filter.1 hmem).2

/-- No slot that a job asks for is poisoned (R64, R71). -/
theorem jobSlots_unpoisoned (hk : k ∈ slotsToPin (jobAtStart p n i parity)) : (slotOf p k).poisoned = false := by
  rw [slotsToPin, List.mem_append] at hk
  rcases hk with hk | hk
  · obtain ⟨x, hx, hxk⟩ := List.mem_filterMap.1 hk
    obtain ⟨e, he, hek⟩ := Option.bind_eq_some_iff.1 hxk
    exact usable_unpoisoned (tap_usable (List.mem_of_mem_filter hx) he) hek
  · obtain ⟨f, hf, hfk⟩ := Option.bind_eq_some_iff.1 (Option.mem_toList.1 hk)
    exact usable_unpoisoned (fallback_usable hf) hfk

end Record

end Sys2Proof.Machine.JobSearch
end

section
/-! The faults of a lane at a line and at a job start, and the pins of a job (O37, O38): R43, R52, R53, R56, R58, R71,
R81, R82, R134, R135, R146, R165, R189. -/

namespace Sys2Proof.Machine.JobFaults

open Frames Keeping LaneValues LaneEnds FaultValues LockLoss StoreValues SlotsLaw JobEnds BoundaryParts Boundaries LaneWorks
  Emission LaneFaults BoundaryIntervals JobStarts JobSearch

/-! ### The lane of a job start -/

section Begun
variable {l : Lane} {job : JobRec} {taken : List SlotIx} {starts : Bool}

theorem swapped_shape (l : Lane) : swapped l = { l with
    tables := (swapped l).tables, commit := none, job := (swapped l).job } := by
  unfold swapped
  split
  · rfl
  · next h => rw [← h]

theorem swapped_none (h : l.commit = none) : swapped l = l := by rw [swapped, h]

theorem jobTaken_shape (job : JobRec) (taken : List SlotIx) (l : Lane) : jobTaken job taken l = { l with
    tables := (swapped l).tables, commit := none, job := { job with pinned := taken }
    jobNumber := l.jobNumber + 1, jobCtr := countJob l.state job l.jobCtr } := by
  unfold jobTaken
  rw [swapped_shape]

theorem slated_none (h : l.commit = none) : slated l =
    { l with state := .slate, laneCtr := { l.laneCtr with slateEntries := bump l.laneCtr.slateEntries } } :=
  swapped_none h

/-- The change of state touches state, hold count, timer and the lane's counters (R128, R130). -/
theorem stateChanged_shape (h : l.commit = none) : stateChanged starts l = { l with
    state := (stateChanged starts l).state, holdCount := (stateChanged starts l).holdCount
    acquireAt := (stateChanged starts l).acquireAt
    laneCtr := { (stateChanged starts l).laneCtr with faults := l.laneCtr.faults } } := by
  by_cases ha : acquires l = true
  · rw [stateChanged_acquires _ ha]
    rfl
  · rw [Bool.not_eq_true] at ha
    by_cases hh : l.state = .holding
    · rw [stateChanged_holding _ hh]
      split_ifs
      · rw [slated_none (by exact h)]
        rfl
      · rfl
    · rw [stateChanged_other _ ha hh]

/-- What a job start leaves of its lane, its carried packets and its timecode apart. -/
theorem begunLane_shape (starts : Bool) (job : JobRec) (taken : List SlotIx) (l : Lane) : begunLane starts job taken l = { l with
    tables := (swapped l).tables, commit := none, job := { job with pinned := taken }
    jobNumber := l.jobNumber + 1, jobCtr := countJob l.state job l.jobCtr
    state := (begunLane starts job taken l).state, holdCount := (begunLane starts job taken l).holdCount
    acquireAt := (begunLane starts job taken l).acquireAt
    laneCtr := { (begunLane starts job taken l).laneCtr with faults := l.laneCtr.faults } } := by
  have ht := jobTaken_shape job taken l
  have hs := stateChanged_shape (l := jobTaken job taken l) (starts := starts) (by rw [ht])
  unfold begunLane
  rw [hs]
  simp only [ht]

end Begun

/-! ### A job start in a boundary without a change of standard -/

section Start
variable {n : Ix} {q : Part}

/-- A boundary without a change of standard, the lane's part of it in full (R107). -/
theorem takeBoundary_lane (h : changesAt n q = false) : takeBoundary n q =
    finishBoundary n (q.outs.get n).next (boundaryParity false (q.outs.get n))
      (laneBoundary n (q.outs.get n).next (boundaryParity false (q.outs.get n)) (endJob n q)).2
      (laneBoundary n (q.outs.get n).next (boundaryParity false (q.outs.get n)) (endJob n q)).1 := by
  have hnext := (mild_endJob n q).out (m := n) OutUnit.next fun _ _ => rfl
  have hpar : parityAt n q = boundaryParity false (q.outs.get n) := by
    unfold parityAt
    rw [changesAt_endJob, h, baseAt_same h]
    have hstd := (mild_endJob n q).out (m := n) OutUnit.standard fun _ _ => rfl
    have hnp := (mild_endJob n q).out (m := n) OutUnit.nextParity fun _ _ => rfl
    have hlast := (mild_endJob n q).out (m := n) OutUnit.last fun _ _ => rfl
    simp only [boundaryParity, hstd, hnp, hlast]
  rw [takeBoundary_eq, hnext, hpar, baseAt_same h]

theorem endJob_lane : (endJob n q).lanes.get n = jobEnded (q.lanes.get n) := by rw [endJob_lanes, Four.get_modify_same]

theorem jobEnded_shape (l : Lane) : jobEnded l = { l with job := (jobEnded l).job } := by
  unfold jobEnded
  split <;> rfl

theorem laneBoundary_runs {b : Part} {i : Int} {parity : Option Parity} (h : runsJobs (b.lanes.get n).state = true) :
    laneBoundary n i parity b = startJob n i parity b := if_pos h

/-- What a job start leaves of its lane. -/
theorem jobBegun_shape {b : Part} {i : Int} {parity : Option Parity} : ∃ (starts : Bool) (taken : List SlotIx),
    (jobBegun n i parity b).lanes.get n = begunLane starts (jobAtStart b n i parity) taken (b.lanes.get n) := by
  obtain ⟨taken, -, h⟩ := jobBegun_lanes (n := n) (i := i) (parity := parity) (p := b)
  exact ⟨_, taken, by rw [h, Four.get_modify_same]⟩

/-- The item with a parity failure that a job start meets is one of those due in the lane as it stands (R145). -/
theorem failedItem_begun {b : Part} {i : Int} {parity : Option Parity} {l : Lane} (hb : b.lanes.get n = jobEnded l) :
    failedItem n (i - ((commitSwap n b).lanes.get n).profile.latency) (jobBegun n i parity b) =
      (dueItems (i - l.profile.latency) l.carry).find? (fun x => !x.parityOk) := by
  obtain ⟨starts, taken, h⟩ := jobBegun_shape (n := n) (i := i) (parity := parity) (b := b)
  have hc : ((jobBegun n i parity b).lanes.get n).carry = l.carry := by
    rw [h, begunLane_shape, hb, jobEnded_shape]
  have hp : ((commitSwap n b).lanes.get n).profile = l.profile := by
    rw [(commitSwap_lane_frame n b n).2.2, hb, jobEnded_shape]
  rw [failedItem, hc, hp]

end Start

/-! ### A job start whose due items are sound -/

section Sound
variable {n : Ix} {b : Part} {i : Int} {parity : Option Parity} {l : Lane}

theorem swapped_frame (n : Ix) (b : Part) : ((commitSwap n b).lanes.get n).jobNumber = (b.lanes.get n).jobNumber
    ∧ ((commitSwap n b).lanes.get n).profile = (b.lanes.get n).profile := by
  rw [commitSwap_lanes, Four.get_modify_same, swapped_shape]
  exact ⟨rfl, rfl⟩

/-- The part after a sound job start, as changes of its lane after the search and the pins (R145, R152). -/
theorem jobStarted_eq (hb : b.lanes.get n = l) : jobStarted n i parity b =
    modLane n (timed l.jobNumber) (modLane n (deliveredLane (i - l.profile.latency)) (jobBegun n i parity b)) := by
  obtain ⟨hj, hp⟩ := swapped_frame n b
  rw [hb] at hj hp
  rw [jobStarted, hj, hp, timecode_eq]

/-- The lane after a sound job start. -/
theorem jobStarted_lane (hb : b.lanes.get n = l) {starts : Bool} {taken : List SlotIx}
    (hl : (jobBegun n i parity b).lanes.get n = begunLane starts (jobAtStart b n i parity) taken l) :
    (jobStarted n i parity b).lanes.get n = timed l.jobNumber
      (deliveredLane (i - l.profile.latency) (begunLane starts (jobAtStart b n i parity) taken l)) := by
  rw [jobStarted_eq hb, modLane_lanes, Four.get_modify_same, modLane_lanes, Four.get_modify_same, hl]

theorem timed_job (j : Nat) (l : Lane) : (timed j l).job = l.job := by
  unfold timed
  split <;> rfl

theorem jobStarted_job (hb : b.lanes.get n = l) {starts : Bool} {taken : List SlotIx}
    (hl : (jobBegun n i parity b).lanes.get n = begunLane starts (jobAtStart b n i parity) taken l) :
    ((jobStarted n i parity b).lanes.get n).job = { jobAtStart b n i parity with pinned := taken } := by
  rw [jobStarted_lane hb hl, timed_job]
  show (begunLane starts _ taken l).job = _
  rw [begunLane_shape]

/-- The end of a step leaves the slots that a lane's job names. -/
theorem settle_jobSlots (r : Part) (n : Ix) : jobSlots ((settle r).lanes.get n).job = jobSlots (r.lanes.get n).job := by
  rw [settle_lanes]
  split_ifs
  · rw [Four.get_make]
    unfold deviceFatalled
    split
    · rfl
    · rfl
    all_goals
      rw [fatalled_eq]
      dsimp only
      unfold abandoned
      split <;> rfl
  · rfl

/-- A boundary without a change of standard whose lane starts a job with sound items (R61, R145). -/
theorem boundary_starts {upsets : List Upset} {s t : State} {q : Part} (hq : quiet s)
    (hfound : q = foundBy ⟨(s.part.outs.get n).next.toNat, upsets⟩ s) (hl : l = q.lanes.get n)
    (hstd : l.profile.output = (s.part.outs.get n).standard) (hrun : runsJobs l.state = true)
    (hsound : ∀ x ∈ l.carry, x.parityOk = true) (hx : exec (.outputBoundary upsets n) s = .next t) :
    t = { s with part := settle (finishBoundary n (s.part.outs.get n).next (boundaryParity false (s.part.outs.get n))
      (jobHandover n (s.part.outs.get n).next (boundaryParity false (s.part.outs.get n)) (endJob n q))
      (jobStarted n (s.part.outs.get n).next (boundaryParity false (s.part.outs.get n)) (endJob n q))) } := by
  have ho : q.outs = s.part.outs := by rw [hfound, found_outs]
  have hb : (endJob n q).lanes.get n = jobEnded l := by rw [endJob_lane, hl]
  have hstate : runsJobs ((endJob n q).lanes.get n).state = true := by rw [hb, jobEnded_shape]; exact hrun
  have hnone : (dueItems ((s.part.outs.get n).next - l.profile.latency) l.carry).find? (fun x => !x.parityOk) = none := by
    refine List.find?_eq_none.2 fun x hx' => ?_
    have hmem : x ∈ l.carry := (List.takeWhile_sublist _).subset (List.mem_of_mem_take hx')
    simp [hsound x hmem]
  rw [boundary_next hq, ← hfound, takeBoundary_lane (by rw [changesAt, ho, ← hl, hstd]; simp), ho] at hx
  clear hfound
  generalize boundaryParity false (s.part.outs.get n) = parity at *
  rw [laneBoundary_runs hstate, startJob_sound ((failedItem_begun hb).trans hnone)] at hx
  cases hx
  rfl

end Sound

/-! ### A carried item that fails its parity -/

section Carry
variable {s : State} {n : Ix} {upsets : List Upset} {bad : CarryItem}

theorem finishBoundary_sameLanes {i : Int} {parity : Option Parity} {h : Handover} {p : Part} :
    SameLanes p (finishBoundary n i parity h p) := by
  rw [finishBoundary_frame]
  exact ⟨rfl, rfl, rfl, rfl⟩

/-- The packets of a picture after its boundary (R116). -/
theorem finishBoundary_packets {i : Int} {parity : Option Parity} {h : Handover} {p : Part} :
    ((settle (finishBoundary n i parity h p)).outs.get n).packets =
      placedReplies p n ((p.outs.get n).replies.take 2) ++ noticePlaced p (p.outs.get n)
        ++ (h.timecode.toList ++ h.carried).map sendPacket := by
  have hview : PostBlind OutUnit.packets := fun _ _ _ _ => rfl
  rw [hview.settle, finishBoundary_out, if_pos rfl]
  show (scheduledOut _ i (placedOut p n h (p.outs.get n))).packets = _
  have hs := scheduledOut_replaced (lockable p (p.outs.get n)) i (placedOut p n h (p.outs.get n))
    (placedOut p n h (p.outs.get n)).replies (placedOut p n h (p.outs.get n)).reserved (placedOut p n h (p.outs.get n)).notices
    (placedOut p n h (p.outs.get n)).packets (placedOut p n h (p.outs.get n)).ctr.repliesSent
    (placedOut p n h (p.outs.get n)).ctr.noticesSent
  have e := congrArg OutUnit.packets hs
  exact e

theorem placedReplies_length {p : Part} (rs : List Reply) : (placedReplies p n rs).length = rs.length := by
  simp [placedReplies]

/-- The management blocks of a picture are at most two (R116, R117). -/
theorem front_length {p : Part} (o : OutUnit) :
    (placedReplies p n (o.replies.take 2) ++ noticePlaced p o).length ≤ 2 := by
  rw [List.length_append, placedReplies_length, List.length_take, noticePlaced]
  split_ifs with h
  · have := h.1
    simp only [List.length_singleton]
    omega
  · simp only [List.length_nil]
    omega

/-- A job start that takes an item with a parity failure makes its lane FATAL and hands nothing on (R145, R146). -/
theorem carryParity_faults (hq : quiet s)
    {q : Part} (hfound : q = foundBy ⟨(s.part.outs.get n).next.toNat, upsets⟩ s) {l : Lane} (hl : l = q.lanes.get n)
    (hstd : l.profile.output = (s.part.outs.get n).standard) (hrun : runsJobs l.state = true)
    (hbad : (dueItems ((s.part.outs.get n).next - l.profile.latency) l.carry).find? (fun x => !x.parityOk) = some bad) :
    ∃ (t : State) (starts : Bool) (job : JobRec) (taken : List SlotIx), exec (.outputBoundary upsets n) s = .next t
      ∧ t.part.lanes.get n = fatalled (begunLane starts job taken (jobEnded l)) ∧ job.inFlight = true
      ∧ (t.part.outs.get n).packets.length ≤ 2 ∧ Cond.faulted n ∈ t.part.fault.latches
      ∧ getLog (.ll n) t.part = logReport .carryParity t.part.timebase (carryDetail bad) (getLog (.ll n) s.part) := by
  have hx := boundary_next (upsets := upsets) (n := n) hq
  have ho : q.outs = s.part.outs := by rw [hfound, found_outs]
  have hf : q.fault = s.part.fault := by rw [hfound, found_fault]
  rw [← hfound, takeBoundary_lane (by rw [changesAt, ho, ← hl, hstd]; simp), ho] at hx
  clear hfound
  have hb : (endJob n q).lanes.get n = jobEnded l := by rw [endJob_lane, hl]
  have hstate : runsJobs ((endJob n q).lanes.get n).state = true := by rw [hb, jobEnded_shape]; exact hrun
  have hlog : (endJob n q).fault.laneLogs = s.part.fault.laneLogs := by rw [(mild_endJob n q).laneLogs, hf]
  generalize boundaryParity false (s.part.outs.get n) = parity at *
  rw [laneBoundary_runs hstate, startJob_failed ((failedItem_begun hb).trans hbad)] at hx
  generalize endJob n q = b at *
  obtain ⟨starts, taken, hlane⟩ := jobBegun_shape (n := n) (i := (s.part.outs.get n).next) (parity := parity) (b := b)
  obtain ⟨hset, hlatch, hll⟩ := faulted_settles (n := n) (c := .carryParity) (d := carryDetail bad)
    (q := jobBegun n (s.part.outs.get n).next parity b)
    (finishBoundary_sameLanes (i := (s.part.outs.get n).next) (parity := parity) (h := ⟨none, []⟩))
  refine ⟨_, starts, jobAtStart b n (s.part.outs.get n).next parity, taken, hx, ?_, rfl, ?_, hlatch, ?_⟩
  · rw [hset, hlane, hb]
  · dsimp only
    rw [finishBoundary_packets, Option.toList_none, List.nil_append, List.map_nil, List.append_nil]
    exact front_length _
  · refine hll.trans (congrArg _ ?_)
    show (jobBegun n (s.part.outs.get n).next parity b).fault.laneLogs.get n = s.part.fault.laneLogs.get n
    rw [jobBegun_fault.laneLogs, hlog]

end Carry

/-- Settles O37. -/
theorem laneAndDeviceFaults : Obligations.LaneAndDeviceFaults := by
  unfold Obligations.LaneAndDeviceFaults
  refine ⟨?_, ?_, ?_, ?_, ?_⟩
  · rintro env n s q o l tab row bs hq rfl rfl hl hm hline hrun hf hs hrow
    obtain ⟨t, hx, hlane, hop, hlatch, hlog, hout, hdrained, hcalm⟩ := rowParity_lane hq hl hm hline hf hs hrow
    have hfat := fatalled_flight (l := measured bs l) hf
    rw [hfat] at hlane
    refine ⟨t, hx, ?_⟩
    rw [hlane]
    exact ⟨rfl, rfl, rfl, rfl, rfl, rfl, rfl, rfl, rfl, rfl, rfl, rfl, rfl, rfl, rfl, hop, hlatch, hlog, hout, hdrained, hcalm⟩
  · rintro upsets n s q o l bad hq rfl hqf hl hstd hrun hbad
    obtain ⟨t, starts, job, taken, hx, hlane, hfl, hpk, hlatch, hlog⟩ := carryParity_faults hq hqf hl hstd hrun hbad
    have hshape := begunLane_shape starts job taken (jobEnded l)
    have hj : (begunLane starts job taken (jobEnded l)).job.inFlight = true := by rw [hshape]; exact hfl
    have hfat := fatalled_flight hj
    refine ⟨t, hx, ?_⟩
    rw [hlane, hfat, hshape, jobEnded_shape]
    exact ⟨rfl, rfl, rfl, rfl, rfl, rfl, rfl, rfl, rfl, rfl, hpk, hlatch, hlog⟩
  · intro p hd hf
    exact integrity_entersFatal hd hf
  · intro p hf
    exact settle_inFatal hf
  · intro env n s k hq hf hfl hk hi
    exact jobEnd_integrity hq hf hfl hk hi

/-! ### The pins of a job -/

/-- A job start that may take its pins takes them (R52, R71). -/
theorem boundary_pins {upsets : List Upset} {n : Ix} {s t : State} {q : Part} {l : Lane} (hq : quiet s)
    (hfound : q = foundBy ⟨(s.part.outs.get n).next.toNat, upsets⟩ s) (hl : l = q.lanes.get n)
    (hstd : l.profile.output = (s.part.outs.get n).standard) (hrun : runsJobs l.state = true) (hidle : l.job.inFlight = false)
    (hsound : ∀ x ∈ l.carry, x.parityOk = true) (hx : exec (.outputBoundary upsets n) s = .next t)
    (hnd : (jobSlots (t.part.lanes.get n).job).Nodup)
    (hslots : ∀ k ∈ jobSlots (t.part.lanes.get n).job, (slotOf q k).intact = true ∧ (slotOf q k).state = .history
      ∧ (slotOf q k).owner = some l.profile.source ∧ (slotOf q k).pins < 4) :
    (t.part.lanes.get n).job.pinned = jobSlots (t.part.lanes.get n).job
      ∧ ∀ k, slotOf t.part k =
        if k ∈ jobSlots (t.part.lanes.get n).job then { slotOf q k with pins := (slotOf q k).pins + 1 } else slotOf q k := by
  have ht := boundary_starts hq hfound hl hstd hrun hsound hx
  have hdue : q.fault.fatalDue = false := by rw [hfound, found_fault]; exact hq.1
  clear hfound hx
  generalize boundaryParity false (s.part.outs.get n) = parity at ht
  generalize (s.part.outs.get n).next = i at ht
  have hend : endJob n q = q := IdleBoundaries.endJob_idle (by rw [← hl]; exact hidle)
  rw [hend] at ht
  generalize jobHandover n i parity q = h at ht
  have hlanes : (finishBoundary n i parity h (jobStarted n i parity q)).lanes = (jobStarted n i parity q).lanes :=
    finishBoundary_sameLanes.1
  have hsame : jobSlots (t.part.lanes.get n).job = slotsToPin (jobAtStart q n i parity) := by
    obtain ⟨starts, taken, hbegun⟩ := jobBegun_shape (n := n) (i := i) (parity := parity) (b := q)
    rw [ht, settle_jobSlots, hlanes, jobStarted_job rfl hbegun, slotsToPin_eq]
    rfl
  rw [hsame] at hnd hslots ⊢
  have hcan (k : SlotIx) (hk : k ∈ slotsToPin (jobAtStart q n i parity)) :
      canPin (q.lanes.get n).profile.source (slotOf q k) = true := by
    obtain ⟨h1, h2, h3, h4⟩ := hslots k hk
    simp [canPin, h1, h2, h3, h4, jobSlots_unpoisoned hk, ← hl]
  obtain ⟨hl', hf, hs⟩ := jobBegun_pins hnd hcan
  have hcalm : (finishBoundary n i parity h (jobStarted n i parity q)).fault.fatalDue = false := by
    rw [finishBoundary_sameLanes.2.1, jobStarted_eq rfl]
    exact hf.trans hdue
  rw [settle_quiet hcalm] at ht
  have hbegun := congrArg (fun ls : Four Lane => ls.get n) hl'
  rw [Four.get_modify_same] at hbegun
  subst ht
  refine ⟨?_, fun k => ?_⟩
  · dsimp only
    rw [hlanes, jobStarted_job rfl hbegun]
  · rw [← hs k]
    refine slotOf_congr k _ ?_
    dsimp only
    rw [finishBoundary_frame, jobStarted_eq rfl]
    rfl

/-- Settles O38. -/
theorem jobsPinAndUnpin : Obligations.JobsPinAndUnpin := by
  unfold Obligations.JobsPinAndUnpin
  refine ⟨?_, ?_⟩
  · rintro upsets n s t o l j q hq rfl hqf hl hstd hrun hidle hsound hx rfl hnd hslots
    exact boundary_pins hq hqf hl hstd hrun hidle hsound hx hnd hslots
  · intro env n s l hq hl hf
    obtain ⟨t, hx, hjob, hcalm⟩ := jobEnd_releases env n s l hq hl hf
    refine ⟨t, hx, hjob, fun hc => ?_⟩
    obtain ⟨hlane, hstore, hdeg⟩ := hcalm hc
    obtain ⟨hone, hother, hlast⟩ := jobEnd_slots hstore hdeg
    refine ⟨hlane, ?_, ?_, hother, hlast⟩
    · intro k hcount hint hst hpins
      have hno : lastPin (slotOf s.part k) = false := by simp [lastPin, hst]
      rw [hone k hcount hint hpins, hno, if_neg Bool.false_ne_true]
      exact ⟨(congrArg SlotRec.state (found_slot env s k)).trans hst, rfl⟩
    · intro k hcount hint hst hpins
      have hlp : lastPin (slotOf s.part k) = decide ((slotOf s.part k).pins = 1) := by simp [lastPin, hst]
      rw [hone k hcount hint hpins, hlp]
      by_cases h1 : (slotOf s.part k).pins = 1
      · have hno : ¬1 < (slotOf s.part k).pins := by omega
        rw [if_pos (by simpa using h1), if_neg hno]
      · have hmore : 1 < (slotOf s.part k).pins := by omega
        rw [if_neg (by simpa using h1), if_pos hmore]

end Sys2Proof.Machine.JobFaults
end

section
/-! SUPPORT. A job start at a boundary: the lane that it leaves, in terms of the state before the boundary (R61 to R74,
R83, R116, R128, R130, R145, R151 to R153, R163, R174). -/

namespace Sys2Proof.Machine.StartedJobs

open Frames Keeping LaneValues LaneEnds FaultValues LockLoss StoreValues SlotsLaw JobEnds BoundaryParts Boundaries LaneWorks
  LaneFaults BoundaryIntervals JobStarts JobSearch JobFaults

section Record
variable {n : Ix} {i : Int} {parity : Option Parity} {p q : Part}

/-- What a job record is drawn from (R63, R64). -/
theorem jobAtStart_congr (hp : (q.lanes.get n).profile = (p.lanes.get n).profile) (hl : q.links = p.links)
    (hf : q.feeds = p.feeds) (hs : ∀ k, (slotOf q k).poisoned = (slotOf p k).poisoned) :
    jobAtStart q n i parity = jobAtStart p n i parity := by
  have hsnap : snapshot q n = snapshot p n := by
    unfold snapshot
    simp only [hp, hl, hf]
  have huse : usableEntry q = usableEntry p := by
    funext e
    unfold usableEntry
    simp only [hs]
  unfold jobAtStart fallbackOf
  simp only [hp, hsnap, huse]

theorem unpinSlot_poisoned (k j : SlotIx) (p : Part) : (slotOf (unpinSlot k p) j).poisoned = (slotOf p j).poisoned := by
  rw [slotOf_unpinSlot]
  split_ifs with h
  · rw [h.1, unpinned]
    split <;> rfl
  · rfl

theorem endJob_poisoned (j : SlotIx) (p : Part) : (slotOf (endJob n p) j).poisoned = (slotOf p j).poisoned := by
  have key (ks : List SlotIx) (p : Part) : (slotOf (forAll ks unpinSlot p) j).poisoned = (slotOf p j).poisoned := by
    induction ks generalizing p with
    | nil => rfl
    | cons k ks ih => exact (ih (unpinSlot k p)).trans (unpinSlot_poisoned k j p)
  unfold endJob
  split
  · exact key _ _
  · rfl

theorem endJob_links (p : Part) : (endJob n p).links = p.links := endJob_keeps storeBlind_links fun _ _ => rfl
theorem endJob_feeds (p : Part) : (endJob n p).feeds = p.feeds := endJob_keeps storeBlind_feeds fun _ _ => rfl
theorem endJob_mgmt (p : Part) : (endJob n p).mgmt = p.mgmt := endJob_keeps storeBlind_mgmt fun _ _ => rfl

/-- The job that starts at a boundary, drawn from the state before it. -/
theorem jobAtStart_before {env : Env} {s : State} :
    jobAtStart (endJob n (foundBy env s)) n i parity = jobAtStart s.part n i parity := by
  refine jobAtStart_congr ?_ ?_ ?_ fun k => ?_
  · rw [endJob_profile, found_profile_eq]
  · rw [endJob_links, found_links]
  · rw [endJob_feeds, found_feeds]
  · rw [endJob_poisoned, found_slot]

end Record

/-- The operation of a lane that stands after the swap at a job start (R163, R174). -/
def standingOp (l : Lane) (op : Option PendingOp) : Option PendingOp := if l.commit.isSome then none else op

/-- The operation of a lane that stands after a job start (R128, R163, R174). -/
def leftOp (l : Lane) (kase : JobCase) (op : Option PendingOp) : Option PendingOp :=
  if (decide (l.state = .acquiring) && isCaseTwo kase) = true ∧ (standingOp l op).map PendingOp.op = some .start then none
  else standingOp l op

/-- The lane of a sound job start before its timecode. -/
def handedLane (i : Int) (job : JobRec) (taken : List SlotIx) (op : Option PendingOp) (l : Lane) : Lane :=
  deliveredLane (i - l.profile.latency)
    (begunLane (decide ((standingOp l op).map PendingOp.op = some .start)) job taken (jobEnded l))

/-- The lane after a sound job start. -/
def startedLane (i : Int) (job : JobRec) (taken : List SlotIx) (op : Option PendingOp) (l : Lane) : Lane :=
  timed l.jobNumber (handedLane i job taken op l)

/-- What a boundary of OUTn at `i` leaves whose lane, found as `l`, started the job `job`: `p` is the part after the lane's
work, `h` what the lane handed on. -/
structure JobStart (n : Ix) (i : Int) (parity : Option Parity) (s t : State) (q p : Part) (l : Lane) (job : JobRec)
    (taken : List SlotIx) (h : Handover) : Prop where
  record : job = jobAtStart s.part n i parity
  profile : (s.part.lanes.get n).profile = l.profile
  pins : taken.Sublist (slotsToPin job)
  lane : t.part.lanes.get n = startedLane i job taken (s.part.mgmt.laneOps.get n) l
  ops : t.part.mgmt.laneOps = p.mgmt.laneOps
  op : p.mgmt.laneOps.get n = leftOp l job.kase (s.part.mgmt.laneOps.get n)
  work : LaneWork false n q p
  part : t.part = settle (finishBoundary n i parity h p)
  calm : (settle (finishBoundary n i parity h p)).fault.deviceFatal = p.fault.deviceFatal
  timecode : h.timecode = if l.profile.tcMode = .off then none
    else some ⟨(s.part.links.get l.profile.source).settings.tcKind, (s.part.links.get l.profile.source).settings.tcSubkind,
      labelWords (tcLabel l.jobNumber (handedLane i job taken (s.part.mgmt.laneOps.get n) l))⟩
  carried : h.carried = (dueItems (i - l.profile.latency) l.carry).map CarryItem.packet

section Started
variable {n : Ix} {upsets : List Upset} {s t : State} {q : Part} {l : Lane}

theorem handedLane_shape (i : Int) (job : JobRec) (taken : List SlotIx) (op : Option PendingOp) (l : Lane) :
    handedLane i job taken op l = { l with
      tables := (swapped (jobEnded l)).tables, commit := none, job := { job with pinned := taken }
      jobNumber := l.jobNumber + 1, jobCtr := countJob l.state job l.jobCtr
      state := (handedLane i job taken op l).state, holdCount := (handedLane i job taken op l).holdCount
      acquireAt := (handedLane i job taken op l).acquireAt, laneCtr := (handedLane i job taken op l).laneCtr
      carry := l.carry.drop (dueItems (i - l.profile.latency) l.carry).length
      carryCtr := { l.carryCtr with
        packetsDelivered := bumpBy (dueItems (i - l.profile.latency) l.carry).length l.carryCtr.packetsDelivered } } := by
  have h := begunLane_shape (decide ((standingOp l op).map PendingOp.op = some .start)) job taken (jobEnded l)
  rw [jobEnded_shape] at h
  unfold handedLane
  rw [jobEnded_shape]
  generalize begunLane (decide ((standingOp l op).map PendingOp.op = some .start)) job taken _ = b at h ⊢
  rw [h]
  rfl

theorem jobHandover_eq {b : Part} {i : Int} {parity : Option Parity} {l : Lane} (hb : b.lanes.get n = l) :
    jobHandover n i parity b =
      ⟨tcPacket l.jobNumber n (modLane n (deliveredLane (i - l.profile.latency)) (jobBegun n i parity b)),
        (dueItems (i - l.profile.latency) ((jobBegun n i parity b).lanes.get n).carry).map CarryItem.packet⟩ := by
  obtain ⟨hj, hp⟩ := swapped_frame n b
  rw [hb] at hj hp
  rw [jobHandover, hj, hp, timecode_eq]

/-- A boundary whose lane starts a job with sound items, out of an entry to device fatal. -/
theorem boundary_started (hq : quiet s) (hfound : q = foundBy ⟨(s.part.outs.get n).next.toNat, upsets⟩ s) (hl : l = q.lanes.get n)
    (hstd : l.profile.output = (s.part.outs.get n).standard) (hrun : runsJobs l.state = true)
    (hsound : ∀ x ∈ l.carry, x.parityOk = true) (hx : exec (.outputBoundary upsets n) s = .next t)
    (hcalm : t.part.fault.deviceFatal = s.part.fault.deviceFatal) :
    ∃ (p : Part) (job : JobRec) (taken : List SlotIx) (h : Handover),
      JobStart n (s.part.outs.get n).next (boundaryParity false (s.part.outs.get n)) s t q p l job taken h := by
  have ht := boundary_starts hq hfound hl hstd hrun hsound hx
  have hb : (endJob n q).lanes.get n = jobEnded l := by rw [endJob_lane, hl]
  have hjob (i : Int) (parity : Option Parity) : jobAtStart (endJob n q) n i parity = jobAtStart s.part n i parity := by
    rw [hfound]; exact jobAtStart_before
  have hm : (endJob n q).mgmt = s.part.mgmt := by rw [endJob_mgmt, hfound, found_mgmt]
  have hk : (endJob n q).links = s.part.links := by rw [endJob_links, hfound, found_links]
  have hf : q.fault.deviceFatal = s.part.fault.deviceFatal := by rw [hfound, found_fault]
  have hwork : LaneWork false n q (endJob n q) := work_endJob q
  have hpr : (s.part.lanes.get n).profile = l.profile := by rw [hl, hfound, found_profile_eq]
  clear hfound hx
  generalize boundaryParity false (s.part.outs.get n) = parity at *
  generalize (s.part.outs.get n).next = i at *
  generalize endJob n q = b at *
  have hstand : opAfterSwap n b = standingOp l (s.part.mgmt.laneOps.get n) := by
    rw [opAfterSwap, standingOp, hb, hm, jobEnded_shape]
  have hsame : SameLanes (jobStarted n i parity b) (finishBoundary n i parity (jobHandover n i parity b) (jobStarted n i parity b)) :=
    finishBoundary_sameLanes
  have hw : LaneWork false n b (jobStarted n i parity b) := work_jobStarted
  have hcalm' : (settle (finishBoundary n i parity (jobHandover n i parity b) (jobStarted n i parity b))).fault.deviceFatal =
      (jobStarted n i parity b).fault.deviceFatal := by
    rw [hw.fatal, hwork.fatal, hf, ← hcalm, ht]
  have hset := settle_calm (hcalm'.trans (congrArg FaultUnit.deviceFatal hsame.2.1).symm)
  obtain ⟨taken, hsub, hpins⟩ := pinAll_lanes (n := n) (source := (b.lanes.get n).profile.source)
    (slotsToPin (jobAtStart b n i parity)) (jobOpened n i parity b)
  have hbegun := congrArg (fun ls : Four Lane => ls.get n) (jobBegun_lanes_of hpins)
  have hop := jobBegun_op hpins
  rw [Four.get_modify_same, hb, hjob, hstand] at hbegun
  rw [hb, hjob, hstand] at hop
  rw [hjob] at hsub
  have hnum : (jobEnded l).jobNumber = l.jobNumber := by rw [jobEnded_shape]
  have hprof : (jobEnded l).profile = l.profile := by rw [jobEnded_shape]
  have hlat : i - (jobEnded l).profile.latency = i - l.profile.latency := by rw [hprof]
  have hdel : (modLane n (deliveredLane (i - l.profile.latency)) (jobBegun n i parity b)).lanes.get n =
      handedLane i (jobAtStart s.part n i parity) taken (s.part.mgmt.laneOps.get n) l := by
    rw [modLane_lanes, Four.get_modify_same, hbegun]
    rfl
  have hshape := handedLane_shape i (jobAtStart s.part n i parity) taken (s.part.mgmt.laneOps.get n) l
  refine ⟨jobStarted n i parity b, jobAtStart s.part n i parity, taken, jobHandover n i parity b, rfl, hpr, hsub, ?_, ?_, ?_,
    hwork.trans hw, by rw [ht], hcalm', ?_, ?_⟩
  · rw [ht, hset]
    dsimp only
    rw [hsame.1, jobStarted_eq hb, hnum, hlat, modLane_lanes, Four.get_modify_same, hdel]
    rfl
  · rw [ht, hset]
    dsimp only
    rw [finishBoundary_frame]
    rfl
  · rw [jobStarted_eq hb]
    refine hop.trans ?_
    rw [leftOp, jobEnded_shape]
  · have hlinks : (modLane n (deliveredLane (i - l.profile.latency)) (jobBegun n i parity b)).links = s.part.links :=
      (work_refs (work_jobBegun (f := false))).2.2.2.1.trans hk
    rw [jobHandover_eq hb, hnum, hlat]
    dsimp only
    rw [tcPacket, hdel, hlinks, congrArg Lane.profile hshape]
  · rw [jobHandover_eq hb, hlat, hbegun, begunLane_shape, jobEnded_shape]

end Started

end Sys2Proof.Machine.StartedJobs
end

section
/-! A boundary starts a job in a lane that runs jobs (O35): R61 to R74, R83, R116, R117, R128, R130, R145, R151 to R153,
R163, R172, R174. -/

namespace Sys2Proof.Machine.StartedJobs

open Frames Keeping HistoryLaw LaneValues LaneEnds FaultValues LockLoss StoreValues SlotsLaw JobEnds BoundaryParts Boundaries
  LaneWorks LaneFaults BoundaryIntervals JobStarts JobSearch JobFaults

/-! ### The state of the lane -/

section State
variable {i : Int} {job : JobRec} {taken : List SlotIx} {op : Option PendingOp} {l : Lane}

theorem timed_shape (j : Nat) (l : Lane) : timed j l = { l with
    tcCount := (timed j l).tcCount, fresh := (timed j l).fresh, lastLabel := (timed j l).lastLabel
    carryCtr := (timed j l).carryCtr } := by
  unfold timed
  split <;> rfl

/-- The lane of a job start with its job taken, before its change of state. -/
def takenLane (job : JobRec) (taken : List SlotIx) (l : Lane) : Lane := jobTaken job taken (jobEnded l)

theorem takenLane_shape (job : JobRec) (taken : List SlotIx) (l : Lane) : takenLane job taken l = { l with
    tables := (swapped (jobEnded l)).tables, commit := none, job := { job with pinned := taken }
    jobNumber := l.jobNumber + 1, jobCtr := countJob l.state job l.jobCtr } := by
  rw [takenLane, jobTaken_shape]
  rw [jobEnded_shape]

/-- The change of state shows in the lane after the job start. -/
theorem startedLane_state {β : Type} (g : Lane → β) (hg : ∀ (l : Lane) (items : List CarryItem) (c : CarryCounters) (a : Nat)
      (b : Bool) (x : Option Label), g { l with carry := items, carryCtr := c, tcCount := a, fresh := b, lastLabel := x } = g l) :
    g (startedLane i job taken op l) =
      g (stateChanged (decide ((standingOp l op).map PendingOp.op = some .start)) (takenLane job taken l)) := by
  rw [startedLane, timed_shape]
  exact hg (stateChanged _ (takenLane job taken l)) _ _ _ _ _

theorem acquires_taken : acquires (takenLane job taken l) = (decide (l.state = .acquiring) && isCaseTwo job.kase) := by
  rw [acquires, takenLane_shape]

/-- What the lane's state, timer and counters are where its job acquires (R128). -/
theorem started_acquires (hs : l.state = .acquiring) (hk : isCaseTwo job.kase = true) :
    (startedLane i job taken op l).state = .converting
      ∧ (startedLane i job taken op l).laneCtr.acquisitions = bump l.laneCtr.acquisitions
      ∧ (startedLane i job taken op l).acquireAt =
        if (standingOp l op).map PendingOp.op = some .start then none else l.acquireAt := by
  have ha : acquires (takenLane job taken l) = true := by rw [acquires_taken, hs, hk]; rfl
  rw [startedLane_state Lane.state fun _ _ _ _ _ _ => rfl, startedLane_state Lane.laneCtr fun _ _ _ _ _ _ => rfl,
    startedLane_state Lane.acquireAt fun _ _ _ _ _ _ => rfl, stateChanged_acquires _ ha, takenLane_shape]
  refine ⟨rfl, rfl, ?_⟩
  simp only [acquired, decide_eq_true_eq]

/-- A lane in HOLDING counts the job, and goes to SLATE at its hold limit (R130). -/
theorem started_holding (hs : l.state = .holding) :
    (startedLane i job taken op l).holdCount = l.holdCount + 1
      ∧ (startedLane i job taken op l).laneCtr.heldJobs = bump l.laneCtr.heldJobs
      ∧ (startedLane i job taken op l).state = (if l.holdCount + 1 = l.profile.holdLimit then .slate else .holding)
      ∧ (startedLane i job taken op l).acquireAt = l.acquireAt := by
  have hh : (takenLane job taken l).state = .holding := by rw [takenLane_shape]; exact hs
  have hc : (jobHeld (takenLane job taken l)).commit = none := by rw [takenLane_shape]; rfl
  have hlim : ((takenLane job taken l).holdCount + 1 = (takenLane job taken l).profile.holdLimit) =
      (l.holdCount + 1 = l.profile.holdLimit) := by rw [takenLane_shape]
  rw [startedLane_state Lane.state fun _ _ _ _ _ _ => rfl, startedLane_state Lane.laneCtr fun _ _ _ _ _ _ => rfl,
    startedLane_state Lane.acquireAt fun _ _ _ _ _ _ => rfl, startedLane_state Lane.holdCount fun _ _ _ _ _ _ => rfl,
    stateChanged_holding _ hh]
  simp only [hlim]
  split_ifs with h
  · rw [slated_none hc, takenLane_shape]
    exact ⟨rfl, rfl, rfl, rfl⟩
  · rw [takenLane_shape]
    exact ⟨rfl, rfl, hs, rfl⟩

/-- Any other lane keeps its state and its timer. -/
theorem started_other (ha : (decide (l.state = .acquiring) && isCaseTwo job.kase) = false) (hs : l.state ≠ .holding) :
    (startedLane i job taken op l).state = l.state ∧ (startedLane i job taken op l).acquireAt = l.acquireAt := by
  rw [← acquires_taken (taken := taken)] at ha
  have hh : (takenLane job taken l).state ≠ .holding := by rw [takenLane_shape]; exact hs
  rw [startedLane_state Lane.state fun _ _ _ _ _ _ => rfl, startedLane_state Lane.acquireAt fun _ _ _ _ _ _ => rfl,
    stateChanged_other _ ha hh, takenLane_shape]
  exact ⟨rfl, rfl⟩

/-- The timer of the START stands but where the START ends (R127, R128). -/
theorem started_acquireAt (h : ¬(l.state = .acquiring ∧ isCaseTwo job.kase = true) ∨ (op.map PendingOp.op) ≠ some .start) :
    (startedLane i job taken op l).acquireAt = l.acquireAt := by
  by_cases hh : l.state = .holding
  · exact (started_holding hh).2.2.2
  by_cases ha : l.state = .acquiring ∧ isCaseTwo job.kase = true
  · rw [(started_acquires ha.1 ha.2).2.2, if_neg]
    have hop := h.resolve_left (not_not.2 ha)
    unfold standingOp
    split_ifs
    · simp
    · exact hop
  · exact (started_other (by simpa using ha) hh).2

/-- The rest of the lane after a job start, its carried items and its timecode apart (R61, R62, R83, R163). -/
theorem startedLane_frame : (startedLane i job taken op l).job = { job with pinned := taken }
    ∧ (startedLane i job taken op l).jobNumber = l.jobNumber + 1
    ∧ (startedLane i job taken op l).jobCtr = countJob l.state job l.jobCtr ∧ (startedLane i job taken op l).commit = none
    ∧ (startedLane i job taken op l).tables = (swapped (jobEnded l)).tables
    ∧ (startedLane i job taken op l).carry = l.carry.drop (dueItems (i - l.profile.latency) l.carry).length := by
  rw [startedLane, timed_shape, handedLane_shape]
  exact ⟨rfl, rfl, rfl, rfl, rfl, rfl⟩

theorem startedLane_delivered : (startedLane i job taken op l).carryCtr.packetsDelivered =
    bumpBy (dueItems (i - l.profile.latency) l.carry).length l.carryCtr.packetsDelivered := by
  have h : (timed l.jobNumber (handedLane i job taken op l)).carryCtr.packetsDelivered =
      (handedLane i job taken op l).carryCtr.packetsDelivered := by
    unfold timed
    split <;> rfl
  rw [startedLane, h, handedLane_shape]

theorem swapped_tables (l : Lane) : (swapped (jobEnded l)).tables = match l.commit with
    | some c => swapTables c l.tables
    | none => l.tables := by
  have hc : (jobEnded l).commit = l.commit ∧ (jobEnded l).tables = l.tables := by
    rw [jobEnded_shape]
    exact ⟨rfl, rfl⟩
  unfold swapped
  cases h : l.commit <;> simp only [hc.1, hc.2, h]

end State

/-! ### Pending records and reply queues -/

section Ops
variable {n : Ix} {i : Int} {parity : Option Parity} {s t : State} {q p : Part} {l : Lane} {job : JobRec}
  {taken : List SlotIx} {h : Handover}

theorem leftOp_none {kase : JobCase} {op : Option PendingOp} : leftOp l kase op = none ↔
    ∀ x, op = some x → l.commit.isSome = true ∨ (x.op = .start ∧ l.state = .acquiring ∧ isCaseTwo kase = true) := by
  unfold leftOp standingOp
  cases op with
  | none => simp
  | some x =>
    by_cases hc : l.commit.isSome = true
    · simp [hc]
    · by_cases ha : (decide (l.state = .acquiring) && isCaseTwo kase) = true
      · have ha' : l.state = .acquiring ∧ isCaseTwo kase = true := by simpa using ha
        by_cases hx : x.op = .start
        · simp [hc, hx, ha']
        · simp [hc, hx]
      · have ha' : ¬(l.state = .acquiring ∧ isCaseTwo kase = true) := by simpa using ha
        simp only [if_neg hc, if_neg fun e : _ ∧ _ => ha e.1]
        simp [hc, ha']

theorem leftOp_some {kase : JobCase} {op : Option PendingOp} {x : PendingOp} (hx : leftOp l kase op = some x) : op = some x := by
  unfold leftOp standingOp at hx
  split_ifs at hx
  exact hx

/-- Where a job acquires, no START is left (R128). -/
theorem leftOp_acquires {kase : JobCase} {op : Option PendingOp} (hs : l.state = .acquiring) (hk : isCaseTwo kase = true) :
    (leftOp l kase op).map PendingOp.op ≠ some .start := by
  unfold leftOp
  split_ifs with hc
  · simp
  · exact fun e => hc ⟨by rw [hs, hk]; rfl, e⟩

theorem start_outOps (hj : JobStart n i parity s t q p l job taken h) (ho : q.outs = s.part.outs) (hm : q.mgmt = s.part.mgmt) :
    t.part.mgmt.outOps = if relockEnds (lockable q (s.part.outs.get n)) (s.part.outs.get n)
      then s.part.mgmt.outOps.set n none else s.part.mgmt.outOps := by
  rw [hj.part, boundary_outOps hj.work, ho, hm]

/-- The RELOCK that ends at the boundary, as the records show it (R113, R174). -/
theorem start_endedRelock (hj : JobStart n i parity s t q p l job taken h) (ho : q.outs = s.part.outs) (hm : q.mgmt = s.part.mgmt) :
    endedRelock q n = endedIn (s.part.mgmt.outOps.get n) (t.part.mgmt.outOps.get n) := by
  rw [start_outOps hj ho hm, endedRelock, ho, hm]
  split_ifs
  · rw [Four.get_set_same, endedIn_none]
  · rw [endedIn_same]

/-- The reply queues after a job start: the DONE of the lane's operation before the picture's replies are placed, that of
a RELOCK after (R116, R117, R174). -/
theorem start_replies (hj : JobStart n i parity s t q p l job taken h) (ho : q.outs = s.part.outs) (hm : q.mgmt = s.part.mgmt)
    (m : Ix) : (t.part.outs.get m).replies = ((s.part.outs.get m).replies
        ++ doneTo m (endedIn (s.part.mgmt.laneOps.get n) (t.part.mgmt.laneOps.get n))).drop (if m = n then 2 else 0)
        ++ doneTo m (endedIn (s.part.mgmt.outOps.get n) (t.part.mgmt.outOps.get n))
      ∧ (t.part.outs.get m).reserved = (s.part.outs.get m).reserved
        - (doneTo m (endedIn (s.part.mgmt.laneOps.get n) (t.part.mgmt.laneOps.get n))).length
        - (doneTo m (endedIn (s.part.mgmt.outOps.get n) (t.part.mgmt.outOps.get n))).length := by
  obtain ⟨st, hst, hr⟩ := boundary_replies hj.work hj.calm
  obtain rfl := hst rfl
  rw [← start_endedRelock hj ho hm, hj.ops, doneTo_eq, doneTo_eq, ← ho, ← hm, hj.part]
  exact hr m

/-- The queue that the picture's replies are taken from (R116, R174). -/
theorem start_queue (hj : JobStart n i parity s t q p l job taken h) (ho : q.outs = s.part.outs) (hm : q.mgmt = s.part.mgmt) :
    (p.outs.get n).replies = (s.part.outs.get n).replies
      ++ doneTo n (endedIn (s.part.mgmt.laneOps.get n) (t.part.mgmt.laneOps.get n)) := by
  obtain ⟨st, hst, hr⟩ := hj.work.outs
  obtain rfl := hst rfl
  rw [hj.ops, doneTo_eq, ← ho, ← hm, hr n]
  rfl

theorem noticePlaced_length (p : Part) (o : OutUnit) : (noticePlaced p o).length ≤ 1 := by
  unfold noticePlaced
  split <;> simp

theorem noticePlaced_full {p : Part} {o : OutUnit} (h : 2 ≤ o.replies.length) : noticePlaced p o = [] :=
  if_neg fun e => absurd e.1 (by omega)

theorem noticePlaced_kinds {p : Part} {o : OutUnit} {x : SentPacket} (hx : x ∈ noticePlaced p o) :
    x.packet.kind = 0x61#8 ∧ x.packet.subkind = 0x0D#8 := by
  unfold noticePlaced at hx
  split_ifs at hx
  · rw [List.mem_singleton.1 hx]
    exact ⟨rfl, rfl⟩
  · cases hx

/-- The packets of a picture whose lane started a job (R116). -/
theorem start_packets (hj : JobStart n i parity s t q p l job taken h) (ho : q.outs = s.part.outs) (hm : q.mgmt = s.part.mgmt)
    (hs : q.straps = s.part.straps) : (t.part.outs.get n).packets =
      placedReplies s.part n (((s.part.outs.get n).replies
        ++ doneTo n (endedIn (s.part.mgmt.laneOps.get n) (t.part.mgmt.laneOps.get n))).take 2)
      ++ noticePlaced p (p.outs.get n) ++ (h.timecode.toList.map sendPacket ++ h.carried.map sendPacket) := by
  have hlost : p.mgmt.lost = s.part.mgmt.lost := by rw [(work_outOps hj.work).2, hm]
  have hstraps : p.straps = s.part.straps := (work_refs hj.work).2.2.1.trans hs
  rw [hj.part, finishBoundary_packets, start_queue hj ho hm, ← hj.part, List.map_append,
    IdleBoundaries.placedReplies_congr hstraps hlost]

/-- What a job start hands its output: one timecode packet out of mode OFF, and its due items (R116, R145, R152). -/
theorem start_handover (hj : JobStart n i parity s t q p l job taken h) : h.timecode.toList.length =
      (if l.profile.tcMode = .off then 0 else 1)
    ∧ h.carried = (dueItems (i - l.profile.latency) l.carry).map CarryItem.packet := by
  refine ⟨?_, hj.carried⟩
  rw [hj.timecode]
  split_ifs <;> rfl

end Ops

/-! ### The job's record -/

section Search
variable {n : Ix} {i : Int} {parity : Option Parity} {p : Part} {a : Entry}

/-- The taps of a job record, one by one. -/
theorem taps_of_list {j : JobRec} {w x y z : Tap} (h : tapList j = [w, x, y, z]) : j.tm1 = w ∧ j.t0 = x ∧ j.t1 = y ∧ j.t2 = z := by
  simpa [tapList] using h

theorem job_case : caseIs (snapshot p n) (usableOf p n) (JobSearch.targetOf p n i) (jobAtStart p n i parity).kase
    (jobAtStart p n i parity).t0.entry (jobAtStart p n i parity).phase := by
  rw [jobAtStart_anchor]
  exact jobFound_spec.1

/-- A job of case SLATE has no taps and no fallback (R66). -/
theorem job_slate (h : (jobAtStart p n i parity).kase = .slate) : tapList (jobAtStart p n i parity) =
      [freshTap none, freshTap none, freshTap none, freshTap none]
    ∧ (jobAtStart p n i parity).fallback = none ∧ (jobAtStart p n i parity).phase = none := by
  have hc := job_case (p := p) (n := n) (i := i) (parity := parity)
  rw [h] at hc
  obtain ⟨-, ha, hp⟩ := hc
  rw [jobAtStart_anchor] at ha
  obtain ⟨ht, hf⟩ := jobAtStart_noTaps (parity := parity) ha
  exact ⟨ht, hf, hp⟩

theorem slate_pins {taken : List SlotIx} (h : (jobAtStart p n i parity).kase = .slate)
    (hsub : taken.Sublist (slotsToPin (jobAtStart p n i parity))) : taken = [] := by
  obtain ⟨ht, hf, -⟩ := job_slate h
  obtain ⟨h1, h2, h3, h4⟩ := taps_of_list ht
  have hnil : slotsToPin (jobAtStart p n i parity) = [] := by
    rw [slotsToPin, h1, h2, h3, h4, hf]
    rfl
  rw [hnil] at hsub
  exact List.sublist_nil.1 hsub

theorem snapshot_differs (ho : historyOk p) : (snapshot p n).Pairwise (fun a b => a.seq ≠ b.seq) := by
  unfold snapshot
  dsimp only
  split_ifs
  · obtain ⟨-, hlen, -, hruns, -⟩ := ho (p.lanes.get n).profile.source
    exact seqs_differ hruns hlen
  · exact .nil

/-- The taps stand around the anchor in its segment (R70). -/
theorem job_taps (ho : historyOk p) (ha : (jobAtStart p n i parity).t0.entry = some a) : ∃ before behind,
    (usableOf p n).filter (fun e => decide (e.segment = a.segment)) = before ++ a :: behind
      ∧ (jobAtStart p n i parity).tm1 = freshTap before.getLast? ∧ (jobAtStart p n i parity).t0 = freshTap (some a)
      ∧ (jobAtStart p n i parity).t1 = freshTap behind[0]? ∧ (jobAtStart p n i parity).t2 = freshTap behind[1]? := by
  rw [jobAtStart_anchor] at ha
  obtain ⟨hm, hlist⟩ := jobFound_spec.2 a ha
  have hd : ((usableOf p n).filter (fun e => decide (e.segment = a.segment))).Pairwise (fun a b => a.seq ≠ b.seq) :=
    (snapshot_differs ho).sublist (List.filter_sublist.trans List.filter_sublist)
  obtain ⟨before, behind, hs, hne⟩ := split_at hd (List.mem_filter.2 ⟨hm, by simp⟩)
  have ht := jobAtStart_taps (parity := parity) ha
  rw [hlist, hs, tapsOf_split hne] at ht
  exact ⟨before, behind, hs, taps_of_list ht⟩

/-- The fallback is sought before the anchor, and only where no tap is PRESENT (R73). -/
theorem job_fallback (ho : historyOk p) (ha : (jobAtStart p n i parity).t0.entry = some a) : ∃ before behind,
    snapshot p n = before ++ a :: behind ∧ (jobAtStart p n i parity).fallback =
      (if (jobPresence (jobAtStart p n i parity)).some then none
       else ((before.filter (fun e => (usableOf p n).contains e && (entrySlot e).isSome)).getLast?).map (fun e => ⟨e, none⟩)) := by
  rw [jobAtStart_anchor] at ha
  obtain ⟨hm, -⟩ := jobFound_spec.2 a ha
  obtain ⟨before, behind, hs, hne⟩ := split_at (snapshot_differs ho) (List.mem_of_mem_filter hm)
  have hf := jobAtStart_fallback (parity := parity) ha
  have hfilter : before.filter (fun e => (usableOf p n).contains e && (entrySlot e).isSome) =
      before.filter (fun e => usableEntry p e && isPicture e) := by
    refine List.filter_congr fun e he => ?_
    have hes : e ∈ snapshot p n := by rw [hs]; exact List.mem_append_left _ he
    have hu : (usableOf p n).contains e = usableEntry p e := by
      rw [Bool.eq_iff_iff, List.contains_iff_mem, usableOf, List.mem_filter]
      exact ⟨fun h => h.2, fun h => ⟨hes, h⟩⟩
    rw [hu, isPicture]
  refine ⟨before, behind, hs, ?_⟩
  rw [hf, hs, fallbackOf_split hne, hfilter]
  split_ifs <;> rfl

theorem isPresent_iff (x : Tap) : x.isPresent = true ↔ x.state = .present := by
  unfold Tap.isPresent
  cases x.state <;> simp

/-- When motion is valid for a job (R74). -/
theorem motionAtStart_iff (input : Std) (x y z : Tap) : motionAtStart input x y z = true ↔
    if (stdRow input).interlaced then x.state = .present ∧ z.state = .present
      ∧ x.entry.bind Entry.parity = z.entry.bind Entry.parity
    else y.state = .present ∧ z.state = .present := by
  unfold motionAtStart
  split_ifs
  · simp only [Bool.and_eq_true, isPresent_iff, decide_eq_true_eq, and_assoc]
  · simp only [Bool.and_eq_true, isPresent_iff]

/-- The job counters that a job start raises (R83). -/
theorem countJob_eq (st : LaneState) (j : JobRec) (c : JobCounters) : countJob st j c = { c with
    jobsStarted := bump c.jobsStarted
    bracketJobs := if j.kase = .bracket then bump c.bracketJobs else c.bracketJobs
    earlyClamps := if j.kase = .earlyClamp ∧ st = .converting then bump c.earlyClamps else c.earlyClamps
    lateClamps := if j.kase = .lateClamp then bump c.lateClamps else c.lateClamps
    frozenJobs := if j.kase = .frozen then bump c.frozenJobs else c.frozenJobs
    slateJobs := if (jobPresence j).some = false ∧ j.fallback = none then bump c.slateJobs else c.slateJobs
    substitutedJobs := if ((jobPresence j).some = true ∨ j.fallback ≠ none) ∧ jobPresence j ≠ ⟨true, true, true, true⟩
      then bump c.substitutedJobs else c.substitutedJobs
    fallbackJobs := if j.fallback ≠ none then bump c.fallbackJobs else c.fallbackJobs } := by
  have hslate : jobIsSlate j = true ↔ (jobPresence j).some = false ∧ j.fallback = none := by
    simp [jobIsSlate, jobPresence, Presence.some]
  have hsub : (!jobIsSlate j && jobSubstitutes j) = true ↔
      ((jobPresence j).some = true ∨ j.fallback ≠ none) ∧ jobPresence j ≠ ⟨true, true, true, true⟩ := by
    rw [Bool.and_eq_true]
    refine and_congr ?_ ?_
    · rw [Bool.not_eq_true', Bool.eq_false_iff, ne_eq, hslate, not_and_or, Bool.not_eq_false]
    · unfold jobSubstitutes jobPresence
      generalize j.tm1.isPresent = a, j.t0.isPresent = b, j.t1.isPresent = c, j.t2.isPresent = d
      revert a b c d
      decide
  have hfb : j.fallback.isSome = true ↔ j.fallback ≠ none := by
    rw [Option.isSome_iff_ne_none]
  simp only [countJob, hslate, hsub, hfb]

end Search

/-! ### The timecode -/

section Timecode
variable {j day c : Nat} {l : Lane} {parity : Option Parity} {std : Std}

theorem labelPosition_eq : labelPosition std parity j =
    if (stdRow std).interlaced then (if parity = some .bottom then 1 else 0)
    else if (stdRow std).perLabel = 2 then j % 2 else 0 := by
  have hp : (parity.map parityNumber).getD 0 = if parity = some .bottom then 1 else 0 := by
    cases parity with
    | none => rfl
    | some q => cases q <;> rfl
  unfold labelPosition
  rw [hp]

theorem tcAdvance_eq (fresh : Bool) (q : Nat) : tcAdvance day c fresh q =
    (if q = 0 ∧ fresh = false then (c + 1) % day else c, if q = 0 then false else fresh) := by
  unfold tcAdvance
  by_cases hq : q = 0
  · cases fresh <;> simp [hq]
  · simp [hq]

theorem labelsPerDay_pos (r : LabelRate) : 0 < labelsPerDay r := by cases r <;> decide

/-- A difference of counts in a day, on naturals and on integers. -/
theorem dayDifference (a b : Nat) (hd : 0 < day) :
    (((a + day - b % day) % day : Nat) : Int) = ((a : Int) - (b : Int)) % (day : Int) := by
  have hle : b % day ≤ a + day := (Nat.mod_lt b hd).le.trans (Nat.le_add_left _ _)
  rw [Int.natCast_mod, Nat.cast_sub hle, Nat.cast_add, Int.natCast_mod]
  rw [Int.sub_emod_emod]
  have e : (a : Int) + day - b = (a - b) + day := by ring
  rw [e, Int.add_emod_right]

theorem circularDistance_eq (a b : Nat) (hd : 0 < day) : (circularDistance a b day : Int) =
    min (((a : Int) - b) % day) (((b : Int) - a) % day) := by
  rw [circularDistance, Nat.cast_min, dayDifference a b hd, dayDifference b a hd]

theorem followCount_eq (input output : Std) (lab : Label) (t nk : Int) : (followCount input output lab t nk : Int) =
    (((labelToCount (stdRow input).rate lab * labelPeriod input + (if lab.second then periodOf input else 0) : Nat) : Int)
      + (t - nk)) / (labelPeriod output : Int) % (labelsPerDay (stdRow output).rate : Int) := by
  have hd : (0 : Int) < labelsPerDay (stdRow output).rate := by exact_mod_cast labelsPerDay_pos _
  unfold followCount
  dsimp only
  rw [Int.toNat_of_nonneg (Int.emod_nonneg _ hd.ne'), Nat.cast_add]
  rfl

theorem tcReseed_none (h : l.job.t0.entry.bind Entry.label = none) : tcReseed l c = none := by
  unfold tcReseed
  cases he : l.job.t0.entry with
  | none => rfl
  | some e =>
    cases l.job.target with
    | none => rfl
    | some t =>
      rw [he] at h
      have hlab : e.label = none := h
      simp only [hlab]

theorem tcReseed_some {e : Entry} {lab : Label} {t : Int} (he : l.job.t0.entry = some e) (ht : l.job.target = some t)
    (hlab : e.label = some lab) : tcReseed l c =
      if 1 < circularDistance c (followCount l.profile.input l.profile.output lab t e.stamp)
          (labelsPerDay (stdRow l.profile.output).rate)
      then some (followCount l.profile.input l.profile.output lab t e.stamp) else none := by
  unfold tcReseed
  rw [he, ht]
  simp only [hlab]

theorem timed_off (h : l.profile.tcMode = .off) : timed j l = l := if_pos h

theorem timed_on (h : l.profile.tcMode ≠ .off) : timed j l = { l with
    tcCount := (tcSeed j l).getD (tcNext j l).1, fresh := (tcNext j l).2, lastLabel := some (tcLabel j l)
    carryCtr := { l.carryCtr with
      tcEmitted := bump l.carryCtr.tcEmitted
      tcReseeds := if (tcSeed j l).isSome then bump l.carryCtr.tcReseeds else l.carryCtr.tcReseeds } } := if_neg h

theorem tcSeed_off {q : Nat} (hq : q = labelPosition l.profile.output l.job.picParity j)
    (h : l.profile.tcMode ≠ .follow ∨ q ≠ 0 ∨ l.job.t0.entry.bind Entry.label = none) : tcSeed j l = none := by
  unfold tcSeed
  rw [← hq]
  split_ifs with hc
  · exact tcReseed_none (((h.resolve_left (not_not.2 hc.1))).resolve_left (not_not.2 hc.2))
  · rfl

theorem tcSeed_follow (hq : labelPosition l.profile.output l.job.picParity j = 0) (h : l.profile.tcMode = .follow) :
    tcSeed j l = tcReseed l (tcNext j l).1 := if_pos ⟨h, hq⟩

end Timecode

section Emitted
variable {n : Ix} {i : Int} {parity : Option Parity} {s t : State} {q p : Part} {l : Lane} {job : JobRec}
  {taken : List SlotIx} {h : Handover}

/-- The lane's timecode after a job start (R151 to R153). -/
theorem start_timecode (hj : JobStart n i parity s t q p l job taken h) {l' : Lane} {rate : LabelRate} {day pos c1 : Nat}
    (hl' : l' = t.part.lanes.get n) (hrate : rate = (stdRow l.profile.output).rate) (hday : day = labelsPerDay rate)
    (hpos : pos = labelPosition l.profile.output parity l.jobNumber)
    (hc1 : c1 = if pos = 0 ∧ l.fresh = false then (l.tcCount + 1) % day else l.tcCount) :
    (l.profile.tcMode = .off → l'.tcCount = l.tcCount ∧ l'.fresh = l.fresh ∧ l'.lastLabel = l.lastLabel
        ∧ l'.carryCtr.tcEmitted = l.carryCtr.tcEmitted)
      ∧ (l.profile.tcMode ≠ .off → l'.fresh = (if pos = 0 then false else l.fresh)
        ∧ l'.lastLabel = some { countToLabel rate l'.tcCount with second := decide (pos = 1) }
        ∧ l'.carryCtr.tcEmitted = bump l.carryCtr.tcEmitted
        ∧ l'.lastLabel = some (tcLabel l.jobNumber (handedLane i job taken (s.part.mgmt.laneOps.get n) l)))
      ∧ (l.profile.tcMode ≠ .off → (l.profile.tcMode ≠ .follow ∨ pos ≠ 0 ∨ (l'.job.t0.entry.bind Entry.label) = none) →
        l'.tcCount = c1 ∧ l'.carryCtr.tcReseeds = l.carryCtr.tcReseeds)
      ∧ (l.profile.tcMode = .follow → pos = 0 → ∀ (e : Entry) (lab : Label) (f : Int), l'.job.t0.entry = some e →
        e.label = some lab →
        f = (((labelToCount (stdRow l.profile.input).rate lab * labelPeriod l.profile.input
            + (if lab.second then periodOf l.profile.input else 0) : Nat) : Int)
            + (i - (l.profile.latency : Int) - e.stamp)) / (labelPeriod l.profile.output : Int) % (day : Int) →
        if 1 < min (((c1 : Int) - f) % (day : Int)) ((f - (c1 : Int)) % (day : Int)) then
          (l'.tcCount : Int) = f ∧ l'.carryCtr.tcReseeds = bump l.carryCtr.tcReseeds
        else l'.tcCount = c1 ∧ l'.carryCtr.tcReseeds = l.carryCtr.tcReseeds) := by
  have hlane := hl'.trans hj.lane
  have hshape := handedLane_shape i job taken (s.part.mgmt.laneOps.get n) l
  rw [startedLane] at hlane
  have hrec := hj.record
  generalize handedLane i job taken (s.part.mgmt.laneOps.get n) l = x at *
  have hprof : x.profile = l.profile := by rw [hshape]
  have hjob : x.job = { job with pinned := taken } := by rw [hshape]
  have hpar : x.job.picParity = parity := by rw [hjob, hrec]; rfl
  have hpos' : pos = labelPosition x.profile.output x.job.picParity l.jobNumber := by rw [hprof, hpar, hpos]
  have htc : x.tcCount = l.tcCount ∧ x.fresh = l.fresh ∧ x.lastLabel = l.lastLabel
      ∧ x.carryCtr.tcEmitted = l.carryCtr.tcEmitted ∧ x.carryCtr.tcReseeds = l.carryCtr.tcReseeds := by
    rw [hshape]
    exact ⟨rfl, rfl, rfl, rfl, rfl⟩
  obtain ⟨hcount, hfresh, hlast, hemit, hseeds⟩ := htc
  have hnext : tcNext l.jobNumber x = (c1, if pos = 0 then false else l.fresh) := by
    rw [tcNext, tcAdvance_eq, ← hpos', hprof, ← hrate, ← hday, hfresh, hcount, hc1]
  have hjob' : l'.job = x.job := by rw [hlane, timed_job]
  subst hday
  refine ⟨fun hoff => ?_, fun hon => ?_, fun hon hno => ?_, fun hfol hp0 e lab f he hlab hf => ?_⟩
  · rw [hlane, timed_off (by rw [hprof]; exact hoff)]
    exact ⟨hcount, hfresh, hlast, hemit⟩
  · rw [hlane, timed_on (by rw [hprof]; exact hon), hnext, tcLabel, hnext, ← hpos', hprof, ← hrate, hemit]
    exact ⟨rfl, rfl, rfl, rfl⟩
  · have hseed : tcSeed l.jobNumber x = none := tcSeed_off hpos' (by rw [hprof, ← hjob']; exact hno)
    rw [hlane, timed_on (by rw [hprof]; exact hon), hseed, hnext]
    exact ⟨rfl, hseeds⟩
  · have ht : x.job.target = some (i - l.profile.latency) := by
      rw [hjob, hrec]
      show some (i - ((s.part.lanes.get n).profile.latency : Int)) = _
      rw [hj.profile]
    have hday : 0 < labelsPerDay rate := labelsPerDay_pos rate
    rw [hjob'] at he
    have hseed := tcSeed_follow (hpos'.symm.trans hp0) (hprof ▸ hfol)
    rw [tcReseed_some he ht hlab, hnext, hprof, ← hrate] at hseed
    have hfc := followCount_eq l.profile.input l.profile.output lab (i - l.profile.latency) e.stamp
    rw [← hrate, ← hf] at hfc
    rw [hlane, timed_on (by rw [hprof, hfol]; decide), hseed, hnext, ← hfc, ← circularDistance_eq _ _ hday]
    have hcast (a : Nat) : (1 : Int) < (a : Int) ↔ 1 < a := by omega
    simp only [hcast]
    by_cases hc : 1 < circularDistance c1 (followCount l.profile.input l.profile.output lab (i - l.profile.latency) e.stamp)
        (labelsPerDay rate)
    · simp only [if_pos hc]
      exact ⟨rfl, congrArg bump hseeds⟩
    · simp only [if_neg hc]
      exact ⟨rfl, hseeds⟩

end Emitted


/-! ### The obligation -/

section Parts
variable {n : Ix} {i : Int} {parity : Option Parity} {s t : State} {q p : Part} {l l' : Lane} {job : JobRec}
  {taken : List SlotIx} {h : Handover}

/-- The snapshot and the usable entries of a job, as the state before the boundary shows them (R64). -/
theorem start_snapshot (hj : JobStart n i parity s t q p l job taken h) : snapshot s.part n =
    if (s.part.links.get l.profile.source).lastCode = some l.profile.input then
      (s.part.feeds.get l.profile.source).history else [] := by
  unfold snapshot
  dsimp only
  rw [hj.profile]

theorem start_parity (hj : JobStart n i parity s t q p l job taken h) : (t.part.outs.get n).last.parity = parity := by
  have hview : ScheduleView (fun o : OutUnit => o.last.parity) := fun _ _ _ _ _ _ _ => rfl
  rw [hj.part]
  exact boundary_view hview hj.work

/-- The packets of the picture after its management blocks (R116, R145, R152). -/
theorem start_rest (hj : JobStart n i parity s t q p l job taken h) (hl' : l' = t.part.lanes.get n) :
    h.timecode.toList.map sendPacket = (if l.profile.tcMode = .off then [] else
      [sendPacket ⟨(s.part.links.get l.profile.source).settings.tcKind,
        (s.part.links.get l.profile.source).settings.tcSubkind,
        labelWords (l'.lastLabel.getD ⟨0, 0, 0, 0, false, false⟩)⟩]) := by
  obtain ⟨-, hon, -, -⟩ := start_timecode hj hl' rfl rfl rfl rfl
  rw [hj.timecode]
  by_cases hoff : l.profile.tcMode = .off
  · rw [if_pos hoff, if_pos hoff]
    rfl
  · obtain ⟨-, -, -, hlast⟩ := hon hoff
    rw [if_neg hoff, if_neg hoff, hlast]
    rfl

end Parts

/-- Settles O35. -/
theorem boundaryStartsAJob : Obligations.BoundaryStartsAJob := by
  unfold Obligations.BoundaryStartsAJob
  rintro upsets n s t o l rfl hl hq hstd hrun hsound hx hcalm
  obtain ⟨p, job, taken, h, hj⟩ := boundary_started hq rfl hl hstd hrun hsound hx hcalm
  have ho : (foundBy ⟨(s.part.outs.get n).next.toNat, upsets⟩ s).outs = s.part.outs := found_outs ..
  have hm : (foundBy ⟨(s.part.outs.get n).next.toNat, upsets⟩ s).mgmt = s.part.mgmt := found_mgmt ..
  have hstr : (foundBy ⟨(s.part.outs.get n).next.toNat, upsets⟩ s).straps = s.part.straps := found_straps ..
  generalize foundBy ⟨(s.part.outs.get n).next.toNat, upsets⟩ s = q at *
  have hpar := start_parity hj
  generalize boundaryParity false (s.part.outs.get n) = parity at *
  obtain ⟨fjob, fnum, fctr, fcommit, ftables, fcarry⟩ := startedLane_frame
    (i := (s.part.outs.get n).next) (job := job) (taken := taken) (op := s.part.mgmt.laneOps.get n) (l := l)
  have hlane := hj.lane
  rw [← hlane] at fjob fnum fctr fcommit ftables fcarry
  have hrec := hj.record
  have htarget : JobSearch.targetOf s.part n (s.part.outs.get n).next = (s.part.outs.get n).next - (l.profile.latency : Int) := by
    rw [JobSearch.targetOf, hj.profile]
  have hkase : (t.part.lanes.get n).job.kase = job.kase := by rw [fjob]
  have hitems : dueItems ((s.part.outs.get n).next - l.profile.latency) l.carry =
      (l.carry.takeWhile (fun i => decide (i.stamp ≤ (s.part.outs.get n).next - (l.profile.latency : Int)))).take 7 := rfl
  refine ⟨?_, ?_, ?_, ?_, fnum, ?_, fcommit, ?_, ?_, ?_, ?_, ?_, ?_, ?_, ?_, ?_, ?_⟩
  · rw [fjob, hrec]; rfl
  · rw [fjob, hrec]; rfl
  · rw [fjob, hrec, ← htarget]; rfl
  · rw [fjob, hrec, ← hstd, ← hj.profile]; rfl
  · rw [fctr]; rfl
  · rw [fjob, hrec]; rfl
  · rw [ftables]; exact swapped_tables l
  · rintro acq lane out queue hacq rfl rfl rfl
    rw [hkase] at hacq
    have hop : t.part.mgmt.laneOps.get n = leftOp l job.kase (s.part.mgmt.laneOps.get n) := by rw [hj.ops, hj.op]
    refine ⟨?_, ?_, fun hc ha hk => ?_, fun hno => ?_, fun m hmn => ?_, ?_, ?_, ?_⟩
    · rw [hop, leftOp_none]
      simp only [hacq]
    · intro x hx
      rw [hop] at hx
      exact leftOp_some hx
    · obtain ⟨hs, hk2⟩ := hacq.1 ha
      rw [hlane, (started_acquires hs hk2).2.2, standingOp, hc]
      exact if_pos hk
    · rw [hlane]
      exact started_acquireAt (hno.imp (fun e e' => e (hacq.2 e')) id)
    · have hr := start_replies hj ho hm m
      rw [if_neg hmn, List.drop_zero] at hr
      refine ⟨?_, ?_, hr.1, hr.2⟩
      · rw [hj.ops, hj.work.others m hmn, hm]
      · rw [start_outOps hj ho hm]
        split_ifs
        · exact Four.get_set_other _ _ hmn
        · rfl
    · exact (if_pos rfl : (if n = n then 2 else 0) = 2) ▸ (start_replies hj ho hm n).1
    · exact (start_replies hj ho hm n).2
    · refine ⟨noticePlaced p (p.outs.get n), h.timecode.toList.map sendPacket ++ h.carried.map sendPacket,
        start_packets hj ho hm hstr, noticePlaced_length _ _, fun hfull => noticePlaced_full ?_,
        fun x hx => noticePlaced_kinds hx, ?_⟩
      · rw [start_queue hj ho hm]
        exact hfull
      · obtain ⟨hlen, hcar⟩ := start_handover hj
        rw [List.length_append, List.length_map, List.length_map, hlen, hcar, List.length_map, hitems]
  · intro φ hφ
    rw [fjob, hrec] at hφ
    have hc := job_case (p := s.part) (n := n) (i := (s.part.outs.get n).next) (parity := parity)
    rw [show (jobAtStart s.part n (s.part.outs.get n).next parity).phase = some φ from hφ] at hc
    exact phase_lt hc
  · intro hs
    rw [hkase, hrec] at hs
    rw [fjob]
    refine ⟨slate_pins hs (hrec ▸ hj.pins), ?_⟩
    rw [hrec]
    exact (job_slate hs).2.2
  · rintro snap use j hsnap huse rfl
    rw [← start_snapshot hj] at hsnap
    have huse' : use = usableOf s.part n := by
      rw [huse, hsnap]
      rfl
    subst hrec
    rw [huse', hsnap, fjob]
    have hcase := job_case (p := s.part) (n := n) (i := (s.part.outs.get n).next) (parity := parity)
    rw [htarget] at hcase
    refine ⟨hcase, hpar.symm, rfl, rfl, fun hs => ?_, fun hok a ha =>
      ⟨job_taps (parity := parity) hok ha, job_fallback (parity := parity) hok ha⟩, ?_, fctr.trans (countJob_eq ..)⟩
    · obtain ⟨ht, hf, -⟩ := job_slate (parity := parity) hs
      obtain ⟨h1, h2, h3, h4⟩ := taps_of_list ht
      exact ⟨h1, h2, h3, h4, hf⟩
    · rw [← hj.profile]
      exact motionAtStart_iff ..
  · intro hs
    rw [hlane, (started_other (by simp [hs]) (by simp [hs])).1, hs]
  · intro hs
    rw [hkase, hlane]
    split_ifs with hk
    · obtain ⟨h1, h2, -⟩ := started_acquires (i := (s.part.outs.get n).next) (taken := taken)
        (op := s.part.mgmt.laneOps.get n) hs hk
      refine ⟨h1, ?_, h2⟩
      rw [laneOpKind, hj.ops, hj.op]
      exact leftOp_acquires hs hk
    · rw [(started_other (by simp [hk]) (by simp [hs])).1, hs]
  · intro hs
    rw [hlane]
    obtain ⟨h1, h2, h3, -⟩ := started_holding (i := (s.part.outs.get n).next) (job := job) (taken := taken)
      (op := s.part.mgmt.laneOps.get n) hs
    exact ⟨h1, h2, h3⟩
  · rintro items l' rate day pos c1 hit rfl hrate hday hpos hc1
    rw [hpar, ← hstd] at hpos
    rw [← hstd] at hrate
    have hpos' : pos = labelPosition l.profile.output parity l.jobNumber := by rw [labelPosition_eq, hpos]
    obtain ⟨hoff, hon, hno, hfol⟩ := start_timecode hj rfl hrate hday hpos' hc1
    have hdel : (t.part.lanes.get n).carryCtr.packetsDelivered =
        bumpBy (dueItems ((s.part.outs.get n).next - l.profile.latency) l.carry).length l.carryCtr.packetsDelivered := by
      rw [hlane]
      exact startedLane_delivered
    have hpk := start_packets hj ho hm hstr
    rw [start_rest hj rfl, (start_handover hj).2, ← List.append_assoc, List.map_map] at hpk
    rw [← hitems] at hit
    subst hit
    refine ⟨fcarry, hdel, hoff, fun h => ?_, fun h => ?_, fun h h0 => ?_, fun h h0 e lab f he hlab hf => ?_, ?_⟩
    · obtain ⟨h1, h2, h3, -⟩ := hon h
      exact ⟨h1, hrate ▸ h2, h3⟩
    · exact hno (by rw [h]; decide) (.inl (by rw [h]; decide))
    · exact hno (by rw [h]; decide) (.inr (h0.imp (fun e => by rw [e]; decide) id))
    · rw [← hstd] at hf
      exact hfol h h0 e lab f he hlab hf
    · refine ⟨_, ?_, hpk⟩
      have := front_length (n := n) (p := p) (p.outs.get n)
      rw [List.length_append, placedReplies_length, start_queue hj ho hm] at this
      rw [List.length_append, placedReplies_length]
      exact this

end Sys2Proof.Machine.StartedJobs
end

section
/-! SUPPORT. Picture markers (R6, R7, R8, R10, R12): what a marker makes of its link, and the picture it hands on. -/

namespace Sys2Proof.Machine.Markers

open Frames Keeping LaneValues HistoryLaw LaneEnds LockLoss LineStarts

section Marker
variable {p q : Part} {n : Ix} {number : Nat} {parity : Parity} {blank : Bool} {e : Established} {c : Current} {s : State}
  {code : Std} {now : Nat}

theorem takeMarker_checked (h : extracts (p.links.get n).state = true) : takeMarker n number parity blank false p =
    seeLine n number blank (markerChecked n number parity blank p) := by
  rw [takeMarker, truncated_whole]
  cases hs : (p.links.get n).state with
  | dark => simp [hs, extracts] at h
  | seeking => simp [hs, extracts] at h
  | measuring => rfl
  | locked code => rfl

/-- A link whose marker passed the check, before its window is looked at (R7). -/
def begun (e : Established) (c : Current) (parity : Parity) (blank : Bool) (l : LinkRx) : LinkRx :=
  { l with missedRun := 0, cur := some (beginPicture parity (expectedParity e c.parity) blank true) }

/-- A link whose marker is handed on as a picture start (R10, R12). -/
def handedOn (e : Established) (c : Current) (parity : Parity) (blank : Bool) (now : Nat) (l : LinkRx) : LinkRx :=
  { l with
    window := some (windowAfter l.window now), missedRun := 0, lineErrors := 0
    cur := some { beginPicture parity (expectedParity e c.parity) blank true with handed := true } }

theorem markerChecked_breaks (he : (p.links.get n).est = some e) (hc : (p.links.get n).cur = some c)
    (h : outOfSequence (p.links.get n).lastNumber number true = true ∨ (c.checked = true ∧ breaks e c = true)) :
    markerChecked n number parity blank p = toSeeking n (some (beginPicture parity parity blank true)) p := by
  unfold markerChecked
  simp only [he, hc]
  exact if_pos (by simpa using h)

/-- A marker that passes the check (R7). -/
theorem markerChecked_passes (he : (p.links.get n).est = some e) (hc : (p.links.get n).cur = some c)
    (hseq : outOfSequence (p.links.get n).lastNumber number true = false) (hb : (c.checked && breaks e c) = false) :
    ((p.links.get n).state = .measuring →
        markerChecked n number parity blank p = markerMeasuring n e parity (modLink n (begun e c parity blank) p))
      ∧ (∀ code, (p.links.get n).state = .locked code →
        markerChecked n number parity blank p = markerLocked n code parity (modLink n (begun e c parity blank) p)) := by
  have hno : ¬(outOfSequence (p.links.get n).lastNumber number true || (c.checked && breaks e c)) = true := by
    rw [hseq, hb]; decide
  unfold markerChecked
  simp only [he, hc]
  refine ⟨fun hs => ?_, fun code hs => ?_⟩
  · rw [if_neg hno, hs]
    rfl
  · rw [if_neg hno, hs]
    rfl

theorem handMarker_eq (code : Std) (f : LinkRx → LinkRx) (hf : (f (p.links.get n)).cur =
      some (beginPicture parity (expectedParity e c.parity) blank true)) :
    handMarker n code parity (modLink n f p) = handPicture n code p.timebase parity (modLink n (fun l => { f l with
      lineErrors := 0, cur := some { beginPicture parity (expectedParity e c.parity) blank true with handed := true } }) p) := by
  unfold handMarker
  rw [modLink_modLink]
  refine congrArg (handPicture n code p.timebase parity) (modLink_const ?_)
  simp only [hf]
  rfl

/-- A marker in LOCKED that passes both checks is handed on (R7, R10, R12). -/
theorem takeMarker_hands (hl : p.links = s.part.links) (ht : p.timebase = now) (h : handsOn s n number code e c now) :
    takeMarker n number parity blank false p =
      seeLine n number blank (handPicture n code now parity (modLink n (handedOn e c parity blank now) p)) := by
  obtain ⟨hs, he, hc, hseq, hb, hw⟩ := h
  rw [← hl] at hs he hc hseq hw
  rw [takeMarker_checked (by rw [hs]; rfl), (markerChecked_passes he hc hseq hb).2 code hs]
  have hwin : ((modLink n (begun e c parity blank) p).links.get n).window = (p.links.get n).window := by
    rw [modLink_links, Four.get_modify_same]
    rfl
  have hnow : (modLink n (begun e c parity blank) p).timebase = now := ht
  have hand (w : Window) (hw : w = windowAfter (p.links.get n).window now) :
      handMarker n code parity (modLink n (fun l => { l with window := some w }) (modLink n (begun e c parity blank) p)) =
        handPicture n code now parity (modLink n (handedOn e c parity blank now) p) := by
    rw [modLink_modLink, handMarker_eq (e := e) (c := c) (blank := blank) code _ rfl, ht]
    refine congrArg (handPicture n code now parity) (modLink_const ?_)
    rw [hw]
    rfl
  refine congrArg (seeLine n number blank) ?_
  unfold markerLocked
  rw [hwin]
  cases hwc : (p.links.get n).window with
  | none => exact hand _ (by rw [hnow, hwc]; rfl)
  | some w =>
    rcases hw w hwc with hlt | ⟨heq, hm⟩
    · refine (if_pos (by omega)).trans (hand _ ?_)
      rw [hwc]
      exact (if_pos hlt).symm
    · refine (if_neg (by omega)).trans ((if_pos ?_).trans (hand _ ?_))
      · rw [windowSum, hnow]
        exact decide_eq_true hm
      · rw [hwc, hnow]
        exact (if_neg (by omega)).symm

end Marker

end Sys2Proof.Machine.Markers
end

section
/-! SUPPORT. Picture starts (R24 to R32, R48, R49): what an allocation, an appended entry and the MISSED holes of a gap
make of the feed, the store and the logs. -/

namespace Sys2Proof.Machine.PictureStarts

open Frames Keeping LaneValues HistoryLaw StoreValues SlotsLaw LaneEnds LockLoss LineStarts Markers

/-! ### Allocation -/

section Grant
variable {p : Part} {n : Ix} {k : SlotIx} {rest : List SlotIx}

/-- The next slot request of feed `n` is granted (R48). -/
structure CanGrant (p : Part) (n : Ix) (k : SlotIx) (rest : List SlotIx) : Prop where
  held : heldBy p n < 11
  free : p.store.freeList = k :: rest
  intact : (slotOf p k).intact = true
  state : (slotOf p k).state = .free

/-- The part with the slot at the head of the free list given to the feed (R48). -/
def granted (n : Ix) (k : SlotIx) (rest : List SlotIx) (p : Part) : Part :=
  bumpStore (fun c => { c with allocations := bump c.allocations })
    (modStore (fun st => { st with freeList := rest })
      (modSlot k (fun r => { r with state := .filling, owner := some n, pins := 0, poisoned := false }) p))

theorem grant_on (h : CanGrant p n k rest) : grant n p = (granted n k rest p, some k) := by
  have hh : ¬Config.ceiling ≤ heldBy p n := not_le.2 h.held
  have hr : ((slotOf p k).intact && (slotOf p k).state == .free) = true := by rw [h.intact, h.state]; rfl
  unfold grant
  rw [if_neg hh, h.free]
  exact if_pos hr

theorem slotOf_granted (j : SlotIx) : slotOf (granted n k rest p) j = if j = k
    then { slotOf p k with state := .filling, owner := some n, pins := 0, poisoned := false, intact := true }
    else slotOf p j :=
  slotOf_modSlot (p := p) (k := k) (fun r => { r with state := .filling, owner := some n, pins := 0, poisoned := false }) j

/-- A refused request counts by its reason (R48, R49). -/
def refused (n : Ix) (p : Part) : Part :=
  bumpStore (fun c => if 11 ≤ heldBy p n then { c with refusedCeiling := bump c.refusedCeiling }
    else { c with refusedEmpty := bump c.refusedEmpty }) p

theorem grant_off (h : 11 ≤ heldBy p n ∨ p.store.freeList = []) : grant n p = (refused n p, none) := by
  unfold grant refused
  by_cases hc : 11 ≤ heldBy p n
  · rw [if_pos (by exact hc)]
    simp only [if_pos hc]
  · rw [if_neg (by exact hc), h.resolve_left hc]
    simp only [if_neg hc]

end Grant

/-! ### Entries that are appended -/

section Append
variable {p : Part} {n : Ix} {k : SlotIx} {rest : List SlotIx} {stamp a : Int} {par : Option Parity}

theorem makeRoom_room (h : (p.feeds.get n).history.length < 8) : makeRoom n p = p := by
  unfold makeRoom
  cases hh : (p.feeds.get n).history with
  | nil => rfl
  | cons e es =>
    rw [hh] at h
    exact if_neg (not_le.2 h)

/-- A feed with a PICTURE appended (R31). -/
def pictured (k : SlotIx) (stamp a : Int) (par : Option Parity) (f : Feed) : Feed :=
  { f with
    history := f.history ++ [⟨f.nextSeq, f.segment, stamp, .picture k a, par, false, 0, none⟩]
    nextSeq := (f.nextSeq + 1) % 4294967296
    ctr := { f.ctr with picturesStamped := bump f.ctr.picturesStamped } }

/-- A feed with a NO_BUFFER hole appended (R32, R49). -/
def unbuffered (stamp : Int) (par : Option Parity) (f : Feed) : Feed :=
  { f with
    history := f.history ++ [⟨f.nextSeq, f.segment, stamp, .hole .noBuffer, par, true, 0, none⟩]
    nextSeq := (f.nextSeq + 1) % 4294967296
    ctr := { f.ctr with
      holesNoBuffer := bump f.ctr.holesNoBuffer, picturesStamped := bump f.ctr.picturesStamped } }

theorem appendPicture_granted (h : CanGrant (makeRoom n p) n k rest) : appendPicture n stamp a par p =
    modFeed n (pictured k stamp a par) (granted n k rest (makeRoom n p)) := by
  unfold appendPicture
  dsimp only
  rw [grant_on h]
  simp only [bumpFeed_eq, pushEntry, modFeed, Four.modify_modify]
  refine congrArg (fun fs => ({ granted n k rest (makeRoom n p) with feeds := fs } : Part)) ?_
  exact congrArg ((makeRoom n p).feeds.set n) rfl

theorem appendPicture_refused (h : 11 ≤ heldBy (makeRoom n p) n ∨ (makeRoom n p).store.freeList = []) :
    appendPicture n stamp a par p = modFeed n (unbuffered stamp par)
      (report (.fl n) .noBuffer (.sequence ((makeRoom n p).feeds.get n).nextSeq) (refused n (makeRoom n p))) := by
  unfold appendPicture
  dsimp only
  rw [grant_off h]
  simp only [bumpFeed_eq, pushEntry, modFeed, report_frame, Four.modify_modify]
  refine congrArg (fun fs => ({ report (.fl n) .noBuffer (.sequence ((makeRoom n p).feeds.get n).nextSeq)
    (refused n (makeRoom n p)) with feeds := fs } : Part)) ?_
  exact congrArg ((makeRoom n p).feeds.set n) rfl

end Append

/-! ### MISSED holes -/

section Holes
variable {p : Part} {n : Ix} {il : Bool} {period : Nat} {first : Int}

/-- The parity of a MISSED hole after `h` (R32). -/
def holeParity (il : Bool) (h : List Entry) : Option Parity :=
  if il then some ((((h.getLast?).bind Entry.parity).map oppositeParity).getD .top) else none

/-- The MISSED hole that follows the history `h` (R26, R32). -/
def missedHole (f : Feed) (il : Bool) (h : List Entry) (i : Nat) (stamp : Int) : Entry :=
  ⟨(f.nextSeq + i) % 4294967296, f.segment, stamp, .hole .missed, holeParity il h, true, 0, none⟩

/-- The MISSED holes of a gap, oldest first (R26, R31). -/
def holesOf (f : Feed) (il : Bool) (period : Nat) (first : Int) : Nat → List Entry
  | 0 => []
  | m + 1 => holesOf f il period first m ++
      [missedHole f il (f.history ++ holesOf f il period first m) m (first + ((m * period : Nat) : Int))]

/-- A feed with the holes of a gap (R26, R32). -/
def gapped (il : Bool) (period : Nat) (first : Int) (m : Nat) (f : Feed) : Feed :=
  { f with
    history := f.history ++ holesOf f il period first m
    nextSeq := (f.nextSeq + m) % 4294967296
    ctr := { f.ctr with holesMissed := bump^[m] f.ctr.holesMissed } }

/-- The reports of the holes of a gap (R32). -/
def gapLog (now next m : Nat) (r : Option LogRec) : Option LogRec :=
  (List.range m).foldl (fun r i => logReport .missed now (.sequence ((next + i) % 4294967296)) r) r

theorem holesOf_length (f : Feed) (m : Nat) : (holesOf f il period first m).length = m := by
  induction m with
  | zero => rfl
  | succ m ih => rw [holesOf, List.length_append, ih]; rfl

theorem appendMissed_eq (stamp : Int) : appendMissed n il stamp p =
    bumpFeed n (fun c => { c with holesMissed := bump c.holesMissed })
      (report (.fl n) .missed (.sequence (p.feeds.get n).nextSeq)
        (pushEntry n ⟨(p.feeds.get n).nextSeq, (p.feeds.get n).segment, stamp, .hole .missed,
          holeParity il (p.feeds.get n).history, true, 0, none⟩ (makeRoom n p))) := by
  unfold appendMissed holeParity newest
  dsimp only
  cases ((p.feeds.get n).history.getLast?).bind Entry.parity <;> rfl

/-- A feed with one MISSED hole more (R32). -/
def holePushed (il : Bool) (stamp : Int) (f : Feed) : Feed :=
  { f with
    history := f.history ++ [missedHole f il f.history 0 stamp]
    nextSeq := (f.nextSeq + 1) % 4294967296
    ctr := { f.ctr with holesMissed := bump f.ctr.holesMissed } }

theorem holePushed_gapped (f : Feed) (m : Nat) : holePushed il (first + ((m * period : Nat) : Int)) (gapped il period first m f) =
    gapped il period first (m + 1) f := by
  have he : missedHole (gapped il period first m f) il (gapped il period first m f).history 0 (first + ((m * period : Nat) : Int)) =
      missedHole f il (f.history ++ holesOf f il period first m) m (first + ((m * period : Nat) : Int)) := by
    have hs : ((f.nextSeq + m) % 4294967296 + 0) % 4294967296 = (f.nextSeq + m) % 4294967296 := by omega
    unfold missedHole gapped
    dsimp only
    rw [hs]
  have hn : ((f.nextSeq + m) % 4294967296 + 1) % 4294967296 = (f.nextSeq + (m + 1)) % 4294967296 := by omega
  have hb : bump (bump^[m] f.ctr.holesMissed) = bump^[m + 1] f.ctr.holesMissed := (Function.iterate_succ_apply' ..).symm
  unfold holePushed
  rw [he]
  unfold gapped
  dsimp only
  rw [hn, hb, List.append_assoc, holesOf]

theorem appendMissed_room (stamp : Int) (h : (p.feeds.get n).history.length < 8) (hseq : (p.feeds.get n).nextSeq < 4294967296) :
    appendMissed n il stamp p = { p with
      feeds := p.feeds.set n (holePushed il stamp (p.feeds.get n))
      fault := { p.fault with
        feedLogs := p.fault.feedLogs.modify n (logReport .missed p.timebase (.sequence (p.feeds.get n).nextSeq)) } } := by
  have hentry : (⟨(p.feeds.get n).nextSeq, (p.feeds.get n).segment, stamp, .hole .missed,
      holeParity il (p.feeds.get n).history, true, 0, none⟩ : Entry) =
      missedHole (p.feeds.get n) il (p.feeds.get n).history 0 stamp := by
    rw [missedHole, Nat.add_zero, Nat.mod_eq_of_lt hseq]
  rw [appendMissed_eq, makeRoom_room h, hentry]
  simp only [bumpFeed_eq, pushEntry, modFeed, report_frame, Four.modify_modify]
  rfl

/-- The holes of a gap, where the history has room for them (R26, R31, R32). -/
theorem appendHoles_room (m : Nat) (h : (p.feeds.get n).history.length + m ≤ 8) (hseq : (p.feeds.get n).nextSeq < 4294967296) :
    appendHoles n il period first m p = { p with
      feeds := p.feeds.modify n (gapped il period first m)
      fault := { p.fault with
        feedLogs := p.fault.feedLogs.modify n (gapLog p.timebase (p.feeds.get n).nextSeq m) } } := by
  induction m with
  | zero =>
    have hf : p.feeds.modify n (gapped il period first 0) = p.feeds := by
      have e : gapped il period first 0 (p.feeds.get n) = p.feeds.get n := by
        rw [gapped, holesOf, List.append_nil, Nat.add_zero, Nat.mod_eq_of_lt hseq]
        rfl
      rw [Four.modify, e, Four.set_get]
    have hl : p.fault.feedLogs.modify n (gapLog p.timebase (p.feeds.get n).nextSeq 0) = p.fault.feedLogs := Four.set_get ..
    rw [hf, hl]
    rfl
  | succ m ih =>
    have hm := ih (by omega)
    have hget : (appendHoles n il period first m p).feeds.get n = gapped il period first m (p.feeds.get n) := by
      rw [hm]
      exact Four.get_modify_same ..
    have hlen : ((appendHoles n il period first m p).feeds.get n).history.length < 8 := by
      rw [hget, gapped, List.length_append, holesOf_length]
      omega
    have hnext : ((appendHoles n il period first m p).feeds.get n).nextSeq < 4294967296 := by
      rw [hget]
      exact Nat.mod_lt _ (by decide)
    have hlog (r : Option LogRec) : logReport .missed p.timebase (.sequence (((p.feeds.get n).nextSeq + m) % 4294967296))
        (gapLog p.timebase (p.feeds.get n).nextSeq m r) = gapLog p.timebase (p.feeds.get n).nextSeq (m + 1) r := by
      rw [gapLog, gapLog, List.range_succ, List.foldl_append]
      rfl
    have hlogs : (p.fault.feedLogs.modify n (gapLog p.timebase (p.feeds.get n).nextSeq m)).modify n
        (logReport .missed p.timebase (.sequence (((p.feeds.get n).nextSeq + m) % 4294967296))) =
        p.fault.feedLogs.modify n (gapLog p.timebase (p.feeds.get n).nextSeq (m + 1)) := by
      rw [Four.modify_modify]
      exact congrArg (p.fault.feedLogs.set n) (hlog _)
    have hfeeds : (p.feeds.modify n (gapped il period first m)).set n (gapped il period first (m + 1) (p.feeds.get n)) =
        p.feeds.modify n (gapped il period first (m + 1)) := Four.set_set ..
    rw [appendHoles, appendMissed_room _ hlen hnext, hget, holePushed_gapped, hm]
    dsimp only
    rw [hfeeds]
    exact congrArg (fun ls => ({ p with
      feeds := p.feeds.modify n (gapped il period first (m + 1)), fault := { p.fault with feedLogs := ls } } : Part)) hlogs

end Holes

end Sys2Proof.Machine.PictureStarts
end

section
/-! Markers that are handed on as picture starts (O24, O25): R12, R23 to R32, R36, R48, R49, R51. -/

namespace Sys2Proof.Machine.PictureStarts

open Frames Keeping LaneValues HistoryLaw StoreValues SlotsLaw LaneEnds LockLoss LineStarts Markers

section Stamps
variable {p : Part} {n : Ix} {code : Std} {a : Int} {parity : Parity}

/-- The parity of an entry under a code (R31). -/
def entryParity (code : Std) (parity : Parity) : Option Parity := if (stdRow code).interlaced then some parity else none

/-- The stamping of a picture start of feed `n` (R24 to R27). -/
def stampingOf (p : Part) (n : Ix) (code : Std) (a : Int) : Stamping :=
  stampOf (p.feeds.get n).lastStamp (p.feeds.get n).dPrev (stdRow code).period (p.links.get n).settings.wDiv a

theorem pictureStart_anchor (hc : abandonNewest n true p = p) (h : stampingOf p n code a = .anchor) :
    pictureStart n code a parity p = appendPicture n a a (entryParity code parity)
      (modFeed n (fun f => { f with lastStamp := some a, dPrev := 0 }) p) := by
  unfold stampingOf at h
  unfold pictureStart entryParity
  simp only [hc, h]

theorem pictureStart_absorbed {m : Nat} {first d : Int} (hc : abandonNewest n true p = p)
    (h : stampingOf p n code a = .absorbed m first d) : pictureStart n code a parity p =
      appendPicture n (first + ((m * (stdRow code).period : Nat) : Int)) a (entryParity code parity)
        (appendHoles n (stdRow code).interlaced (stdRow code).period first m
          (modFeed n (fun f => { f with lastStamp := some (first + ((m * (stdRow code).period : Nat) : Int)), dPrev := d }) p)) := by
  unfold stampingOf at h
  unfold pictureStart entryParity
  simp only [hc, h]

/-- A feed that re-anchors, before its picture is appended (R27). -/
def reanchored (n : Ix) (stamp : Int) (p : Part) : Part :=
  bumpFeed n (fun c => { c with reanchors := bump c.reanchors })
    (report (.fl n) .reanchor (.sequence (p.feeds.get n).nextSeq) (latchSet (.slip n)
      (modFeed n (fun f => { f with segment := (f.segment + 1) % 65536, lastStamp := some stamp, dPrev := 0 }) p)))

theorem pictureStart_reanchor {stamp : Int} (hc : abandonNewest n true p = p) (h : stampingOf p n code a = .reanchor stamp) :
    pictureStart n code a parity p = appendPicture n stamp a (entryParity code parity) (reanchored n stamp p) := by
  unfold stampingOf at h
  unfold pictureStart entryParity reanchored
  simp only [hc, h]

end Stamps

section Marker
variable {env : Env} {n : Ix} {number : Nat} {parity : Parity} {blank : Bool} {s : State} {e : Established} {c : Current}
  {code : Std} {now : Nat}

theorem handPicture_links (n : Ix) (code : Std) (a : Int) (parity : Parity) (p : Part) :
    (handPicture n code a parity p).links = p.links := by
  have hk : FeedAt n (fun q : Part => q.links = p.links) :=
    { store_blind storeBlind_links (fun ls => ls = p.links) with feed := fun _ _ h => h }
  unfold handPicture
  split
  · exact hk.pictureStart code a parity rfl
  · rfl

theorem marker_next (hq : quiet s) : exec (.pictureMarker env n number parity blank false) s =
    .next { s with part := settle (takeMarker n number parity blank false (foundBy env s)) } := happens_quiet _ _ hq

/-- A marker that is handed on while capture is ON (R12, R31). -/
theorem marker_starts (hq : quiet s) (h : handsOn s n number code e c now) (hnow : now = max s.part.timebase env.time)
    (hon : (s.part.feeds.get n).captureOn = true) : exec (.pictureMarker env n number parity blank false) s =
    .next { s with part := settle (seeLine n number blank (pictureStart n code now parity
      (modLink n (handedOn e c parity blank now) (foundBy env s)))) } := by
  have ht : (foundBy env s).timebase = now := by rw [found_timebase, hnow]
  have hcap : ((modLink n (handedOn e c parity blank now) (foundBy env s)).feeds.get n).captureOn = true := by
    rw [modLink_feeds, found_feeds, hon]
  rw [marker_next hq, takeMarker_hands (found_links env s) ht h, handPicture, if_pos hcap]

/-- The link after a marker that is handed on (R7, R10, R12). -/
theorem marker_link (hq : quiet s) (h : handsOn s n number code e c now) (hnow : now = max s.part.timebase env.time) {t : State}
    (hx : exec (.pictureMarker env n number parity blank false) s = .next t) :
    t.part.links = s.part.links.set n { s.part.links.get n with
      window := some (windowAfter (s.part.links.get n).window now), missedRun := 0, lineErrors := 0
      cur := some { beginPicture parity (expectedParity e c.parity) blank true with handed := true }
      lastNumber := some number, line := some (!blank) } := by
  have ht : (foundBy env s).timebase = now := by rw [found_timebase, hnow]
  rw [marker_next hq, takeMarker_hands (found_links env s) ht h] at hx
  cases hx
  dsimp only
  rw [(endured_settle _).links]
  show (handPicture n code now parity (modLink n (handedOn e c parity blank now) (foundBy env s))).links.modify n (seen number blank) = _
  rw [handPicture_links, modLink_links, found_links, Four.modify_modify]
  rfl

end Marker

section Found
variable {env : Env} {n : Ix} {s : State} {k : SlotIx} {rest : List SlotIx}

/-- What upsets leave of the slots that a feed holds (R48, R58). -/
theorem heldBy_found : heldBy (foundBy env s) n = heldBy s.part n := by
  refine found_keeps env s (fun p => heldBy p n) (fun u p => ?_) (fun _ _ => rfl)
  cases u with
  | slotRecord k =>
    have h := countP_set (q := applyUpset (.slotRecord k) p) (heldFor n) (k := k) (r := { slotOf p k with intact := false }) rfl
    have hsame : heldFor n { slotOf p k with intact := false } = heldFor n (slotOf p k) := rfl
    rw [hsame] at h
    rw [heldBy_eq, heldBy_eq]
    omega
  | _ => rfl

/-- A grant that the state before a marker allows, in a part with the slots that the marker found. -/
theorem canGrant_of {p : Part} (h : nextGrant env s n k rest) (hs : p.store = (foundBy env s).store) : CanGrant p n k rest := by
  obtain ⟨hh, hf, hi, hst⟩ := h
  have hk : slotOf p k = slotOf (foundBy env s) k := slotOf_congr k _ hs
  have hheld : heldBy p n = heldBy s.part n := by
    rw [← heldBy_found (env := env)]
    unfold heldBy
    rw [hs]
  refine ⟨hheld ▸ hh, ?_, hk ▸ hi, ?_⟩
  · rw [hs, found_store_freeList, hf]
  · rw [hk, found_slot]
    exact hst

end Found

/-- Settles O24. -/
theorem markerAnchorsAPicture : Obligations.MarkerAnchorsAPicture := by
  unfold Obligations.MarkerAnchorsAPicture
  rintro env n number parity blank s e c code k rest f now hq h rfl hon hhist hlast hheld hfree hint hstate hnow
  have hx := marker_starts (parity := parity) (blank := blank) hq h hnow hon
  have hlinks := found_links env s
  have hfeeds := found_feeds env s
  have hg : nextGrant env s n k rest := ⟨hheld, hfree, hint, hstate⟩
  generalize hp : modLink n (handedOn e c parity blank now) (foundBy env s) = p at hx
  have hpf : p.feeds = s.part.feeds := by rw [← hp]; exact hfeeds
  have hps : p.store = (foundBy env s).store := by rw [← hp]; rfl
  have hclosed : abandonNewest n true p = p := abandonNewest_closed true fun x hx => by
    rw [hpf, newest, hhist] at hx
    cases hx
  have hsg : stampingOf p n code now = .anchor := by rw [stampingOf, hpf, hlast]; rfl
  rw [pictureStart_anchor hclosed hsg] at hx
  generalize hp1 : modFeed n (fun f => { f with lastStamp := some (now : Int), dPrev := 0 }) p = p1 at hx
  have hp1f : p1.feeds = s.part.feeds.set n { s.part.feeds.get n with lastStamp := some (now : Int), dPrev := 0 } := by
    rw [← hp1, modFeed_feeds, hpf]; rfl
  have hroom : makeRoom n p1 = p1 := makeRoom_room (by rw [hp1f, Four.get_set_same, hhist]; decide)
  have hgrant : CanGrant (makeRoom n p1) n k rest := canGrant_of hg (by rw [hroom, ← hp1]; exact hps)
  rw [appendPicture_granted hgrant, hroom, settle_quiet (by rw [← hp1, ← hp]; exact (congrArg FaultUnit.fatalDue (found_fault env s)).trans hq.1)] at hx
  have hslot (j : SlotIx) : slotOf p1 j = slotOf (foundBy env s) j := slotOf_congr j _ (by rw [← hp1]; exact hps)
  have hts (j : SlotIx) : slotOf (seeLine n number blank (modFeed n (pictured k now now (entryParity code parity))
      (granted n k rest p1))) j = slotOf (granted n k rest p1) j := rfl
  have hown := (hts k).trans (slotOf_granted k)
  rw [if_pos rfl, hslot] at hown
  refine ⟨_, hx, ?_, rfl, ?_, ?_, ?_, ?_, ?_, fun j hj => ?_, ?_, ?_, ?_, ?_, ?_⟩
  · show p1.feeds.modify n (pictured k now now (entryParity code parity)) = _
    rw [hp1f, Four.modify, Four.get_set_same, Four.set_set, pictured, hhist]
    rfl
  · rw [hown]
  · rw [hown]
  · rw [hown]
  · rw [hown]
  · rw [hown, found_slot]
  · rw [hts, slotOf_granted, if_neg hj, hslot]
  · show p1.store.mem = _
    rw [← hp1]
    show p.store.mem = _
    rw [hps, found_store_mem]
  · rw [← hp1, ← hp]; rfl
  · rw [← hp1, ← hp]; exact found_outs env s
  · rw [← hp1, ← hp]; exact found_mgmt env s
  · rw [← hp1, ← hp]; exact found_fault env s

end Sys2Proof.Machine.PictureStarts
end

section
/-! A picture start abandons a leftover entry, re-anchors, fills gaps with holes, and makes room (O25): R12, R26, R27,
R30 to R32, R36, R48, R49, R51. -/

namespace Sys2Proof.Machine.PictureStarts

open Frames Keeping LaneValues HistoryLaw StoreValues SlotsLaw LaneEnds LockLoss LineStarts Markers

/-! ### Holes one by one -/

section Holes
variable {f : Feed} {il : Bool} {period : Nat} {first : Int} {m i : Nat} {x : Entry}

theorem holesOf_take (h : i ≤ m) : (holesOf f il period first m).take i = holesOf f il period first i := by
  induction m with
  | zero => rw [Nat.le_zero.1 h]; rfl
  | succ m ih =>
    rcases Nat.lt_or_ge i (m + 1) with hlt | hge
    · rw [holesOf, List.take_append_of_le_length (by rw [holesOf_length]; omega), ih (by omega)]
    · obtain rfl : i = m + 1 := by omega
      exact List.take_of_length_le (by rw [holesOf_length])

theorem holesOf_get (h : (holesOf f il period first m)[i]? = some x) :
    x = missedHole f il (f.history ++ (holesOf f il period first m).take i) i (first + ((i * period : Nat) : Int)) := by
  induction m with
  | zero => cases h
  | succ m ih =>
    have hi : i < m + 1 := by
      obtain ⟨hi, -⟩ := List.getElem?_eq_some_iff.1 h
      rwa [holesOf_length] at hi
    rw [holesOf_take (by omega)]
    rw [holesOf] at h
    rcases Nat.lt_or_ge i m with hlt | hge
    · rw [List.getElem?_append_left (by rw [holesOf_length]; exact hlt)] at h
      rw [ih h, holesOf_take (by omega)]
    · obtain rfl : i = m := by omega
      rw [List.getElem?_append_right (by rw [holesOf_length]), holesOf_length, Nat.sub_self] at h
      exact (Option.some.inj h).symm

end Holes

/-! ### The part that a picture start works on -/

/-- The part of a marker that is handed on, before its picture start. -/
structure Handed (env : Env) (s : State) (n : Ix) (now : Nat) (p : Part) : Prop where
  feeds : p.feeds = s.part.feeds
  store : p.store = (foundBy env s).store
  fault : p.fault = s.part.fault
  time : p.timebase = now
  settings : (p.links.get n).settings = (s.part.links.get n).settings

section Starts
variable {env : Env} {n : Ix} {number : Nat} {parity : Parity} {blank : Bool} {s : State} {e : Established} {c : Current}
  {code : Std} {now : Nat} {p r : Part} {k : SlotIx} {rest : List SlotIx} {st d : Int}

theorem handed (hnow : now = max s.part.timebase env.time) :
    Handed env s n now (modLink n (handedOn e c parity blank now) (foundBy env s)) where
  feeds := found_feeds env s
  store := rfl
  fault := found_fault env s
  time := by rw [hnow]; exact found_timebase env s
  settings := by
    rw [modLink_links, Four.get_modify_same, found_links]
    rfl

/-- A marker whose picture start meets no integrity error (R12, R58). -/
theorem marker_leaves (hq : quiet s) (h : handsOn s n number code e c now) (hnow : now = max s.part.timebase env.time)
    (hon : (s.part.feeds.get n).captureOn = true)
    (hr : pictureStart n code now parity (modLink n (handedOn e c parity blank now) (foundBy env s)) = r)
    (hdue : r.fault.fatalDue = false) :
    exec (.pictureMarker env n number parity blank false) s = .next { s with part := seeLine n number blank r } := by
  rw [marker_starts hq h hnow hon, hr, settle_quiet (by exact hdue)]

theorem Handed.stamping (hp : Handed env s n now p) : stampingOf p n code now =
    stampOf (s.part.feeds.get n).lastStamp (s.part.feeds.get n).dPrev (periodOf code) (s.part.links.get n).settings.wDiv now := by
  rw [stampingOf, hp.feeds, hp.settings]
  rfl

theorem Handed.settled (hp : Handed env s n now p)
    (h : ∀ x, newest (s.part.feeds.get n) = some x → isOpenPicture x = false) : abandonNewest n true p = p :=
  abandonNewest_closed true fun x hx => h x (by rwa [hp.feeds] at hx)

/-- A feed with its timeline set (R23, R26). -/
def stampedAt (st d : Int) (f : Feed) : Feed := { f with lastStamp := some st, dPrev := d }

/-- A picture start without holes and without a new segment (R24, R26). -/
theorem pictureStart_plain (hc : abandonNewest n true p = p) (h : stampingOf p n code now = .absorbed 0 st d
      ∨ (stampingOf p n code now = .anchor ∧ st = (now : Int) ∧ d = 0)) :
    pictureStart n code now parity p = appendPicture n st now (entryParity code parity) (modFeed n (stampedAt st d) p) := by
  rcases h with h | ⟨h, rfl, rfl⟩
  · have e : st + ((0 * (stdRow code).period : Nat) : Int) = st := by simp
    rw [pictureStart_absorbed hc h, e]
    rfl
  · exact pictureStart_anchor hc h

/-! ### Re-anchoring -/

theorem reanchored_feeds : (reanchored n st p).feeds = p.feeds.modify n (fun f => { f with
    segment := (f.segment + 1) % 65536, lastStamp := some st, dPrev := 0
    ctr := { f.ctr with reanchors := bump f.ctr.reanchors } }) := by
  simp only [reanchored, bumpFeed_eq, modFeed_feeds, report_frame, latchSet_frame, Four.modify_modify]

theorem reanchored_frame : (reanchored n st p).store = p.store ∧ (reanchored n st p).fault.fatalDue = p.fault.fatalDue
    ∧ Cond.slip n ∈ (reanchored n st p).fault.latches
    ∧ getLog (.fl n) (reanchored n st p) =
      logReport .reanchor p.timebase (.sequence (p.feeds.get n).nextSeq) (getLog (.fl n) p) := by
  refine ⟨?_, ?_, ?_, ?_⟩
  · simp only [reanchored, bumpFeed_eq, modFeed_store, report_frame, latchSet_frame]
  · show (latchSet (.slip n) _).fault.fatalDue = _
    rw [(latchSet_fault_flags _ _).2.2.1]
    rfl
  · exact (mem_latchSet _ _ _).2 (.inr rfl)
  · have ht := (latchSet_frame (modFeed n (fun f => { f with segment := (f.segment + 1) % 65536, lastStamp := some st, dPrev := 0 }) p)
      (.slip n)).1
    have hl := (latchSet_fault_flags (modFeed n (fun f => { f with segment := (f.segment + 1) % 65536, lastStamp := some st, dPrev := 0 }) p)
      (.slip n)).2.2.2.1
    show ((latchSet (.slip n) _).fault.feedLogs.modify n _).get n = _
    rw [Four.get_modify_same, ht, hl]
    rfl

/-- A marker that re-anchors with a slot (R27). -/
theorem marker_reanchors (hq : quiet s) (h : handsOn s n number code e c now) (hnow : now = max s.part.timebase env.time)
    (hon : (s.part.feeds.get n).captureOn = true)
    (hopen : ∀ x, newest (s.part.feeds.get n) = some x → isOpenPicture x = false)
    (hsg : stampOf (s.part.feeds.get n).lastStamp (s.part.feeds.get n).dPrev (periodOf code)
      (s.part.links.get n).settings.wDiv now = .reanchor st)
    (hlen : (s.part.feeds.get n).history.length < 8) (hg : nextGrant env s n k rest) :
    ∃ r : Part, exec (.pictureMarker env n number parity blank false) s = .next { s with
        part := seeLine n number blank (modFeed n (pictured k st now (entryParity code parity))
          (granted n k rest (reanchored n st r))) }
      ∧ Handed env s n now r := by
  have hp := handed (parity := parity) (blank := blank) (e := e) (c := c) (n := n) hnow
  refine ⟨_, marker_leaves hq h hnow hon (r := modFeed n _ (granted n k rest (reanchored n st _))) ?_ ?_, hp⟩
  · rw [pictureStart_reanchor (hp.settled hopen) (hp.stamping.trans hsg)]
    have hroom := makeRoom_room (p := reanchored n st (modLink n (handedOn e c parity blank now) (foundBy env s))) (n := n) (by
      rw [reanchored_feeds, Four.get_modify_same, hp.feeds]
      exact hlen)
    rw [appendPicture_granted (k := k) (rest := rest) (by rw [hroom]; exact canGrant_of hg (reanchored_frame.1.trans hp.store)), hroom]
  · show (reanchored n st (modLink n (handedOn e c parity blank now) (foundBy env s))).fault.fatalDue = false
    rw [reanchored_frame.2.1, hp.fault, hq.1]

/-- A marker that is absorbed after a gap, with a slot and room (R26, R31). -/
theorem marker_absorbed {m : Nat} {first : Int} (hq : quiet s) (h : handsOn s n number code e c now)
    (hnow : now = max s.part.timebase env.time) (hon : (s.part.feeds.get n).captureOn = true)
    (hopen : ∀ x, newest (s.part.feeds.get n) = some x → isOpenPicture x = false)
    (hseq : (s.part.feeds.get n).nextSeq < 4294967296)
    (hsg : stampOf (s.part.feeds.get n).lastStamp (s.part.feeds.get n).dPrev (periodOf code)
      (s.part.links.get n).settings.wDiv now = .absorbed m first d)
    (hlen : (s.part.feeds.get n).history.length + m < 8) (hg : nextGrant env s n k rest) :
    ∃ r : Part, exec (.pictureMarker env n number parity blank false) s = .next { s with
        part := seeLine n number blank (modFeed n
          (pictured k (first + ((m * periodOf code : Nat) : Int)) now (entryParity code parity)) (granted n k rest r)) }
      ∧ r.store = (foundBy env s).store
      ∧ r.feeds = s.part.feeds.modify n (fun f => gapped (stdRow code).interlaced (periodOf code) first m
          (stampedAt (first + ((m * periodOf code : Nat) : Int)) d f))
      ∧ r.fault.feedLogs = s.part.fault.feedLogs.modify n (gapLog now (s.part.feeds.get n).nextSeq m) := by
  have hp := handed (parity := parity) (blank := blank) (e := e) (c := c) (n := n) hnow
  generalize hP : modLink n (handedOn e c parity blank now) (foundBy env s) = p at hp
  have hfeed : (modFeed n (stampedAt (first + ((m * periodOf code : Nat) : Int)) d) p).feeds.get n =
      stampedAt (first + ((m * periodOf code : Nat) : Int)) d (s.part.feeds.get n) := by
    rw [modFeed_feeds, Four.get_modify_same, hp.feeds]
  have hholes := appendHoles_room (p := modFeed n (stampedAt (first + ((m * periodOf code : Nat) : Int)) d) p) (n := n)
    (il := (stdRow code).interlaced) (period := periodOf code) (first := first) m
    (by rw [hfeed]; exact hlen.le) (by rw [hfeed]; exact hseq)
  generalize hR : appendHoles n (stdRow code).interlaced (periodOf code) first m
    (modFeed n (stampedAt (first + ((m * periodOf code : Nat) : Int)) d) p) = r at hholes
  have hrs : r.store = (foundBy env s).store := by rw [hholes]; exact hp.store
  have hrf : r.feeds = s.part.feeds.modify n (fun f => gapped (stdRow code).interlaced (periodOf code) first m
      (stampedAt (first + ((m * periodOf code : Nat) : Int)) d f)) := by
    rw [hholes, modFeed_feeds, hp.feeds, Four.modify_modify]
  have hroom : makeRoom n r = r := makeRoom_room (by
    rw [hrf, Four.get_modify_same, gapped, List.length_append, holesOf_length]
    exact hlen)
  refine ⟨r, marker_leaves hq h hnow hon ?_ ?_, hrs, hrf, ?_⟩
  · rw [hP, pictureStart_absorbed (hp.settled hopen) (hp.stamping.trans hsg)]
    refine (congrArg (appendPicture n _ _ _) hR).trans ?_
    rw [appendPicture_granted (by rw [hroom]; exact canGrant_of hg hrs), hroom]
    rfl
  · show r.fault.fatalDue = false
    rw [hholes]
    exact (congrArg FaultUnit.fatalDue hp.fault).trans hq.1
  · rw [hholes, hfeed]
    show p.fault.feedLogs.modify n _ = _
    rw [hp.fault, modFeed_timebase, hp.time]
    rfl

/-! ### No buffer, and a full history -/

/-- A marker whose slot request is refused (R48, R49). -/
theorem marker_refused (hq : quiet s) (h : handsOn s n number code e c now) (hnow : now = max s.part.timebase env.time)
    (hon : (s.part.feeds.get n).captureOn = true)
    (hopen : ∀ x, newest (s.part.feeds.get n) = some x → isOpenPicture x = false)
    (hsg : stampOf (s.part.feeds.get n).lastStamp (s.part.feeds.get n).dPrev (periodOf code)
        (s.part.links.get n).settings.wDiv now = .absorbed 0 st d
      ∨ (stampOf (s.part.feeds.get n).lastStamp (s.part.feeds.get n).dPrev (periodOf code)
        (s.part.links.get n).settings.wDiv now = .anchor ∧ st = (now : Int) ∧ d = 0))
    (hlen : (s.part.feeds.get n).history.length < 8) (hno : 11 ≤ heldBy s.part n ∨ s.part.store.freeList = []) :
    ∃ r : Part, exec (.pictureMarker env n number parity blank false) s = .next { s with
        part := seeLine n number blank (modFeed n (unbuffered st (entryParity code parity))
          (report (.fl n) .noBuffer (.sequence (s.part.feeds.get n).nextSeq) (refused n (modFeed n (stampedAt st d) r)))) }
      ∧ Handed env s n now r := by
  have hp := handed (parity := parity) (blank := blank) (e := e) (c := c) (n := n) hnow
  refine ⟨_, marker_leaves hq h hnow hon ?_ ?_, hp⟩
  · rw [pictureStart_plain (hp.settled hopen) (by rw [hp.stamping]; exact hsg)]
    have hf : (modFeed n (stampedAt st d) (modLink n (handedOn e c parity blank now) (foundBy env s))).feeds.get n =
        stampedAt st d (s.part.feeds.get n) := by rw [modFeed_feeds, Four.get_modify_same, hp.feeds]
    have hroom : makeRoom n (modFeed n (stampedAt st d) (modLink n (handedOn e c parity blank now) (foundBy env s))) =
        modFeed n (stampedAt st d) (modLink n (handedOn e c parity blank now) (foundBy env s)) :=
      makeRoom_room (by rw [hf]; exact hlen)
    have hno' : 11 ≤ heldBy (makeRoom n (modFeed n (stampedAt st d) (modLink n (handedOn e c parity blank now) (foundBy env s)))) n
        ∨ (makeRoom n (modFeed n (stampedAt st d)
          (modLink n (handedOn e c parity blank now) (foundBy env s)))).store.freeList = [] := by
      rw [hroom]
      exact hno.imp (fun hh => by rw [← heldBy_found (env := env)] at hh; exact hh)
        (fun hh => (found_store_freeList env s).trans hh)
    rw [appendPicture_refused hno', hroom, hf]
    rfl
  · exact (congrArg FaultUnit.fatalDue hp.fault).trans hq.1

/-- A full history whose oldest entry gives an unpinned slot back (R30, R51). -/
theorem makeRoom_full {j : SlotIx} {old : Entry} {kept : List Entry} {a : Int} (hh : (p.feeds.get n).history = old :: kept)
    (hlen : kept.length = 7) (hk : old.kind = .picture j a) (hi : (slotOf p j).intact = true) (ho : (slotOf p j).owner = some n)
    (hs : (slotOf p j).state = .history) (hpins : (slotOf p j).pins = 0) (hpois : (slotOf p j).poisoned = false) :
    makeRoom n p = slotToFree j (modFeed n (fun f => { f with history := kept }) p) := by
  have hfull : Config.historyMax ≤ (old :: kept).length := by rw [List.length_cons, hlen]; decide
  have hr : returnEntry n old (modFeed n (fun f => { f with history := kept }) p) =
      slotToFree j (modFeed n (fun f => { f with history := kept }) p) := by
    rw [returnEntry, entrySlot_of hk]
    exact returnSlot_free (p := modFeed n (fun f => { f with history := kept }) p) (canReturn_filling hi ho (.inr hs)) hpins hpois
  unfold makeRoom
  rw [hh]
  exact (if_pos hfull).trans hr

/-- A slot that goes back to the free list leaves the feed no more slots than it held (R48). -/
theorem heldBy_slotToFree (j : SlotIx) (p : Part) (n : Ix) : heldBy (slotToFree j p) n ≤ heldBy p n := by
  have h := countP_set (q := slotToFree j p) (p := p) (heldFor n) (k := j)
    (r := { slotOf p j with state := .free, owner := none, intact := true }) rfl
  have hno : heldFor n { slotOf p j with state := .free, owner := none, intact := true } = false := rfl
  rw [hno, if_neg Bool.false_ne_true] at h
  rw [heldBy_eq, heldBy_eq]
  omega

theorem slotOf_slotToFree (j i : SlotIx) (p : Part) : slotOf (slotToFree j p) i =
    if i = j then { slotOf p j with state := .free, owner := none, intact := true } else slotOf p i :=
  slotOf_set (by rw [slotToFree_store]) i

/-- A grant after a slot has joined the tail of the free list (R48, R51). -/
theorem canGrant_after {j : SlotIx} (h : CanGrant p n k rest) (hj : (slotOf p j).state ≠ .free) :
    CanGrant (slotToFree j p) n k (rest ++ [j]) := by
  have hne : k ≠ j := fun e => hj (e ▸ h.state)
  have hs := slotOf_slotToFree j k p
  rw [if_neg hne] at hs
  exact ⟨(heldBy_slotToFree j p n).trans_lt h.held, by rw [slotToFree_store]; simp [h.free], by rw [hs, h.intact], by rw [hs, h.state]⟩

/-- A marker whose picture takes its place in a full history from the oldest entry (R30, R51). -/
theorem marker_makesRoom {j : SlotIx} {old : Entry} {kept : List Entry} {a : Int} (hq : quiet s)
    (h : handsOn s n number code e c now) (hnow : now = max s.part.timebase env.time)
    (hon : (s.part.feeds.get n).captureOn = true)
    (hopen : ∀ x, newest (s.part.feeds.get n) = some x → isOpenPicture x = false)
    (hsg : stampOf (s.part.feeds.get n).lastStamp (s.part.feeds.get n).dPrev (periodOf code)
      (s.part.links.get n).settings.wDiv now = .absorbed 0 st d)
    (hh : (s.part.feeds.get n).history = old :: kept) (hlen : kept.length = 7) (hk : old.kind = .picture j a)
    (hi : (slotOf (foundBy env s) j).intact = true) (ho : (slotOf (foundBy env s) j).owner = some n)
    (hs : (slotOf (foundBy env s) j).state = .history) (hpins : (slotOf (foundBy env s) j).pins = 0)
    (hpois : (slotOf (foundBy env s) j).poisoned = false) (hg : nextGrant env s n k rest) :
    ∃ p : Part, Handed env s n now p ∧ exec (.pictureMarker env n number parity blank false) s = .next { s with
        part := seeLine n number blank (modFeed n (pictured k st now (entryParity code parity)) (granted n k (rest ++ [j])
          (slotToFree j (modFeed n (fun f => { stampedAt st d f with history := kept }) p)))) } := by
  have hp := handed (parity := parity) (blank := blank) (e := e) (c := c) (n := n) hnow
  generalize hP : modLink n (handedOn e c parity blank now) (foundBy env s) = p at hp
  have hsl (i : SlotIx) : slotOf p i = slotOf (foundBy env s) i := slotOf_congr i _ hp.store
  have hfeed : (modFeed n (stampedAt st d) p).feeds.get n = stampedAt st d (s.part.feeds.get n) := by
    rw [modFeed_feeds, Four.get_modify_same, hp.feeds]
  have hroom : makeRoom n (modFeed n (stampedAt st d) p) =
      slotToFree j (modFeed n (fun f => { stampedAt st d f with history := kept }) p) := by
    rw [makeRoom_full (p := modFeed n (stampedAt st d) p) (by rw [hfeed]; exact hh) hlen hk
      (by show (slotOf p j).intact = true; rw [hsl, hi]) (by show (slotOf p j).owner = some n; rw [hsl, ho])
      (by show (slotOf p j).state = _; rw [hsl, hs]) (by show (slotOf p j).pins = 0; rw [hsl, hpins])
      (by show (slotOf p j).poisoned = false; rw [hsl, hpois])]
    refine congrArg (slotToFree j) ?_
    rw [modFeed, modFeed, modFeed, Four.modify_modify]
  have hgrant : CanGrant (makeRoom n (modFeed n (stampedAt st d) p)) n k (rest ++ [j]) := by
    rw [hroom]
    refine canGrant_after (canGrant_of hg hp.store) ?_
    show (slotOf p j).state ≠ .free
    rw [hsl, hs]
    exact nofun
  refine ⟨p, hp, marker_leaves hq h hnow hon (parity := parity) (blank := blank) ?_ ?_⟩
  · rw [hP, pictureStart_plain (hp.settled hopen) (.inl (hp.stamping.trans hsg)), appendPicture_granted hgrant, hroom]
  · exact (congrArg FaultUnit.fatalDue hp.fault).trans hq.1

/-! ### A leftover entry -/

/-- The part whose open newest picture `x`, in slot `k`, has been given up and reported (R31, R36). -/
def givenUp (n : Ix) (x : Entry) (k : SlotIx) (p : Part) : Part :=
  { p with
    feeds := p.feeds.set n { p.feeds.get n with
      history := (p.feeds.get n).history.dropLast ++ [{ x with kind := .hole .abandoned, complete := true }]
      ctr := { (p.feeds.get n).ctr with holesAbandoned := bump (p.feeds.get n).ctr.holesAbandoned } }
    store := { p.store with
      slots := p.store.slots.set k.val { slotOf p k with state := .free, owner := none }
      freeList := p.store.freeList ++ [k] }
    fault := { p.fault with
      feedLogs := p.fault.feedLogs.modify n (logReport .abandoned p.timebase (.sequence x.seq)) } }

/-- An open newest picture whose slot is sound and unpinned. -/
structure Leftover (p : Part) (n : Ix) (x : Entry) (k : SlotIx) : Prop where
  newest : newest (p.feeds.get n) = some x
  kind : ∃ a, x.kind = .picture k a
  incomplete : x.complete = false
  intact : (slotOf p k).intact = true
  owner : (slotOf p k).owner = some n
  state : (slotOf p k).state = .filling
  pins : (slotOf p k).pins = 0
  sound : (slotOf p k).poisoned = false

theorem abandonNewest_givenUp {x : Entry} (h : Leftover p n x k) : abandonNewest n true p = givenUp n x k p := by
  obtain ⟨a, hk⟩ := h.kind
  have hmap : mapNewest (toHole .abandoned) (p.feeds.get n).history =
      (p.feeds.get n).history.dropLast ++ [toHole .abandoned x] := PacketPaths.mapNewest_last _ h.newest
  have hslot : ({ slotOf p k with state := .free, owner := none, intact := true } : SlotRec) =
      { slotOf p k with state := .free, owner := none } := by rw [← h.intact]
  rw [abandonNewest_open true h.newest (isOpenPicture_of hk h.incomplete), if_pos rfl,
    abandonedEntry_free hk h.intact h.owner h.state h.pins h.sound]
  unfold givenUp
  simp only [bumpFeed_eq, modFeed, modNewest, slotToFree, modSlot, modStore, Four.modify_modify]
  rw [← hslot]
  simp only [Four.modify, hmap]
  rfl

theorem givenUp_closed (n : Ix) (x : Entry) (k : SlotIx) (p : Part) :
    abandonNewest n true (givenUp n x k p) = givenUp n x k p :=
  abandonNewest_closed true fun y hy => by
    have e : newest ((givenUp n x k p).feeds.get n) = some { x with kind := .hole .abandoned, complete := true } := by
      rw [newest, givenUp, Four.get_set_same]
      exact List.getLast?_concat
    rw [e] at hy
    cases hy
    rfl

/-- A picture start gives the leftover up before anything else (R31). -/
theorem pictureStart_givenUp {x : Entry} (h : Leftover p n x k) : pictureStart n code now parity p =
    pictureStart n code now parity (givenUp n x k p) := by
  unfold pictureStart
  rw [givenUp_closed, abandonNewest_givenUp h]

end Starts

/-- A marker that finds a leftover is the marker that finds it given up (R31, R36). -/
theorem marker_givenUp {env : Env} {n : Ix} {number : Nat} {parity : Parity} {blank : Bool} {s : State} {e : Established}
    {c : Current} {code : Std} {now : Nat} {x : Entry} {k : SlotIx} (hq : quiet s) (h : handsOn s n number code e c now)
    (hnow : now = max s.part.timebase env.time) (hon : (s.part.feeds.get n).captureOn = true)
    (hleft : Leftover (foundBy env s) n x k) : exec (.pictureMarker env n number parity blank false) s =
      exec (.pictureMarker ⟨env.time, []⟩ n number parity blank false) { s with part := givenUp n x k (foundBy env s) } := by
  have hlinks := found_links env s
  have hfault := found_fault env s
  have hmgmt := found_mgmt env s
  have houts := found_outs env s
  have hfeeds := found_feeds env s
  have htime : (foundBy env s).timebase = now := by rw [hnow]; exact found_timebase env s
  have hq' : quiet { s with part := givenUp n x k (foundBy env s) } :=
    quiet_of hq (show (foundBy env s).fault.fatalDue = s.part.fault.fatalDue by rw [hfault]) hmgmt houts
  have hfound : foundBy ⟨env.time, []⟩ { s with part := givenUp n x k (foundBy env s) } = givenUp n x k (foundBy env s) :=
    begin_at (p := givenUp n x k (foundBy env s)) (found_timebase_le env s)
  have hleft' : Leftover (modLink n (handedOn e c parity blank now) (foundBy env s)) n x k := { hleft with }
  rw [marker_starts hq h hnow hon, marker_next hq', hfound,
    takeMarker_hands (p := givenUp n x k (foundBy env s)) hlinks htime h, handPicture,
    pictureStart_givenUp hleft', if_pos]
  · rfl
  · show ((givenUp n x k (foundBy env s)).feeds.get n).captureOn = true
    rw [givenUp, Four.get_set_same, hfeeds]
    exact hon

theorem hole_parity_eq (il : Bool) (h : List Entry) : holeParity il h =
    if il then some (match (h.getLast?).bind Entry.parity with
      | some v => oppositeParity v
      | none => .top) else none := by
  unfold holeParity
  cases (h.getLast?).bind Entry.parity <;> rfl

/-- Settles O25. -/
theorem pictureStartsKeepTheTimeline : Obligations.PictureStartsKeepTheTimeline := by
  unfold Obligations.PictureStartsKeepTheTimeline
  refine ⟨?_, ?_⟩
  · rintro env n number parity blank s code e c f now par sg hq h rfl hon hseq hopen hnow rfl rfl
    have hslots (j : SlotIx) := found_slot env s j
    refine ⟨fun st k rest hsg hlen hg => ?_, fun m first d k rest hsg hlen hg => ?_, fun st d hsg hlen hno => ?_,
      fun st d k j rest old kept a hsg hh hlen hk hi ho hs hpins hpois hg => ?_, fun t hx => ?_⟩
    · obtain ⟨r, hx, hp⟩ := marker_reanchors (parity := parity) (blank := blank) hq h hnow hon hopen hsg hlen hg
      obtain ⟨hst, -, hlatch, hlog⟩ := reanchored_frame (n := n) (p := r) (st := st)
      have hslot := slotOf_granted (n := n) (k := k) (rest := rest) (p := reanchored n st r) k
      rw [if_pos rfl] at hslot
      refine ⟨_, hx, ?_, hlatch, ?_, rfl, ?_, ?_⟩
      · show (reanchored n st r).feeds.modify n (pictured k st now (entryParity code parity)) = _
        rw [reanchored_feeds, Four.modify_modify, hp.feeds]
        rfl
      · refine hlog.trans ?_
        rw [hp.time, hp.feeds]
        exact congrArg _ (congrArg (fun u : FaultUnit => u.feedLogs.get n) hp.fault)
      · exact congrArg SlotRec.state hslot
      · exact congrArg SlotRec.owner hslot
    · obtain ⟨r, hx, hrs, hrf, hrl⟩ := marker_absorbed (parity := parity) (blank := blank) hq h hnow hon hopen hseq hsg hlen hg
      have hslot := slotOf_granted (n := n) (k := k) (rest := rest) (p := r) k
      rw [if_pos rfl] at hslot
      have hfeed : (seeLine n number blank (modFeed n (pictured k (first + ((m * periodOf code : Nat) : Int)) now
          (entryParity code parity)) (granted n k rest r))).feeds.get n =
          pictured k (first + ((m * periodOf code : Nat) : Int)) now (entryParity code parity)
            (gapped (stdRow code).interlaced (periodOf code) first m
              (stampedAt (first + ((m * periodOf code : Nat) : Int)) d (s.part.feeds.get n))) := by
        show (r.feeds.modify n _).get n = _
        rw [hrf, Four.get_modify_same, Four.get_modify_same]
      refine ⟨_, holesOf (stampedAt (first + ((m * periodOf code : Nat) : Int)) d (s.part.feeds.get n))
        (stdRow code).interlaced (periodOf code) first m, hx, holesOf_length .., ?_, fun i x hix => ?_, ?_, ?_, ?_, ?_, ?_, ?_, rfl,
        congrArg SlotRec.state hslot, congrArg SlotRec.owner hslot⟩
      · dsimp only
        rw [hfeed]
        rfl
      · rw [holesOf_get hix]
        exact ⟨rfl, rfl, rfl, rfl, rfl, rfl, rfl, hole_parity_eq ..⟩
      · dsimp only
        rw [hfeed]
        rfl
      · dsimp only
        rw [hfeed]
        rfl
      · dsimp only
        rw [hfeed]
        rfl
      · dsimp only
        rw [hfeed]
        show (((s.part.feeds.get n).nextSeq + m) % 4294967296 + 1) % 4294967296 = _
        omega
      · dsimp only
        rw [hfeed]
        rfl
      · show r.fault.feedLogs.get n = _
        rw [hrl, Four.get_modify_same]
        rfl
    · obtain ⟨r, hx, hp⟩ := marker_refused (parity := parity) (blank := blank) hq h hnow hon hopen hsg hlen hno
      refine ⟨_, hx, ?_, ?_, ?_⟩
      · show (r.feeds.modify n (stampedAt st d)).modify n (unbuffered st (entryParity code parity)) = _
        rw [Four.modify_modify, hp.feeds]
        rfl
      · show (r.fault.feedLogs.modify n _).get n = _
        have ht : (refused n (modFeed n (stampedAt st d) r)).timebase = now := hp.time
        rw [Four.get_modify_same, ht]
        exact congrArg _ (congrArg (fun u : FaultUnit => u.feedLogs.get n) hp.fault)
      · show ({ r.store with ctr := if 11 ≤ heldBy r n then { r.store.ctr with refusedCeiling := bump r.store.ctr.refusedCeiling }
          else { r.store.ctr with refusedEmpty := bump r.store.ctr.refusedEmpty } } : Store) = _
        have hheld : heldBy r n = heldBy s.part n := by
          rw [← heldBy_found (env := env)]
          unfold heldBy
          rw [hp.store]
        rw [hheld, hp.store, found_store_ctr]
    · obtain ⟨p, hp, hx⟩ := marker_makesRoom (parity := parity) (blank := blank) hq h hnow hon hopen hsg hh hlen hk hi
        (by rw [hslots]; exact ho) (by rw [hslots]; exact hs) (by rw [hslots]; exact hpins) (by rw [hslots]; exact hpois) hg
      have hne : j ≠ k := fun e => by
        obtain ⟨-, -, -, hst⟩ := hg
        rw [← e, hs] at hst
        cases hst
      have hslot (i : SlotIx) := (slotOf_granted (n := n) (k := k) (rest := rest ++ [j])
        (p := slotToFree j (modFeed n (fun f => { stampedAt st d f with history := kept }) p)) i)
      have hj := hslot j
      rw [if_neg hne, slotOf_slotToFree, if_pos rfl] at hj
      have hk' := hslot k
      rw [if_pos rfl] at hk'
      refine ⟨_, hx, ?_, rfl, congrArg SlotRec.state hj, congrArg SlotRec.owner hj, congrArg SlotRec.state hk'⟩
      show (((p.feeds.modify n (fun f => { stampedAt st d f with history := kept })).modify n
        (pictured k st now (entryParity code parity))).get n).history = _
      rw [Four.get_modify_same, Four.get_modify_same, hp.feeds]
      rfl
    · rw [marker_link hq h hnow hx, Four.get_set_same]
  · rintro env n number parity blank s code e c f now q x k a hq h rfl hon hnow rfl hnew hk hinc hi ho hs hpins hpois
    have hleft : Leftover (foundBy env s) n x k := ⟨by rw [found_feeds]; exact hnew, ⟨a, hk⟩, hinc, hi, ho, hs, hpins, hpois⟩
    have htime : (foundBy env s).timebase = now := by rw [hnow]; exact found_timebase env s
    rw [marker_givenUp hq h hnow hon hleft, givenUp, found_feeds, found_fault, htime, found_store_freeList]

end Sys2Proof.Machine.PictureStarts
end

section
/-! SUPPORT. What identifies a link (R8), what breaks its structure (R7), and the search (R6). -/

namespace Sys2Proof.Machine.Identify

open Frames Keeping LaneValues HistoryLaw LaneEnds LockLoss LineStarts Markers PictureStarts

/-! ### The catalogue row that a window matches -/

theorem mem_allStd (c : Std) : c ∈ allStd := by cases c <;> decide

/-- Rows of the same shape have periods that no window sum matches together (Table 12, R8). -/
theorem rows_apart : ∀ a ∈ allStd, ∀ b ∈ allStd, (stdRow a).width = (stdRow b).width → (stdRow a).height = (stdRow b).height →
    (stdRow a).interlaced = (stdRow b).interlaced → (stdRow a).period ≤ (stdRow b).period →
    8 * (stdRow b).period ≤ 8 * (stdRow a).period + windowTolerance (stdRow a).period + windowTolerance (stdRow b).period →
    a = b := by
  decide

theorem rowMatches_iff {e : Established} {sum : Nat} {c : Std} : rowMatches e sum c = true ↔
    (stdRow c).width = e.samples
      ∧ (stdRow c).height = (if (e.pattern == Pattern.alternating) = true then 2 * e.active else e.active)
      ∧ (stdRow c).interlaced = (e.pattern == Pattern.alternating)
      ∧ ((sum : Int) - (8 * (stdRow c).period : Nat)).natAbs ≤ windowTolerance (stdRow c).period := by
  simp only [rowMatches, windowMatches, Bool.and_eq_true, beq_iff_eq, decide_eq_true_eq, and_assoc]

/-- At most one row matches a window (R8). -/
theorem rowMatches_unique {e : Established} {sum : Nat} {a b : Std} (ha : rowMatches e sum a = true)
    (hb : rowMatches e sum b = true) : a = b := by
  obtain ⟨wa, ha, ia, ta⟩ := rowMatches_iff.1 ha
  obtain ⟨wb, hb, ib, tb⟩ := rowMatches_iff.1 hb
  rcases le_total (stdRow a).period (stdRow b).period with h | h
  · exact rows_apart a (mem_allStd a) b (mem_allStd b) (wa.trans wb.symm) (ha.trans hb.symm) (ia.trans ib.symm) h (by omega)
  · exact (rows_apart b (mem_allStd b) a (mem_allStd a) (wb.trans wa.symm) (hb.trans ha.symm) (ib.trans ia.symm) h
      (by omega)).symm

theorem identifyWindow_iff {e : Established} {sum : Nat} {c : Std} : identifyWindow e sum = some c ↔ rowMatches e sum c = true := by
  refine ⟨fun h => List.find?_some h, fun h => ?_⟩
  obtain ⟨d, hd⟩ := Option.isSome_iff_exists.1 (List.find?_isSome.2 ⟨c, mem_allStd c, h⟩)
  rw [identifyWindow, hd, rowMatches_unique (List.find?_some hd) h]

/-! ### Structure breaks -/

theorem breaks_iff (e : Established) (c : Current) : breaks e c = true ↔
    c.active ≠ e.active ∨ sampleCount c ≠ e.samples ∨ c.parity ≠ c.expected
      ∨ ∃ t, totalFor e c.parity = some t ∧ c.total ≠ t := by
  unfold breaks
  cases totalFor e c.parity <;> simp [or_assoc]

/-! ### The search -/

section Search
variable {p : Part} {n : Ix} {number : Nat} {parity : Parity} {blank : Bool}

theorem consistent_iff (r : Measured) (c : Current) : consistent r (measuredOf c) = true ↔
    r.active = (measuredOf c).active ∧ r.active ≠ 0 ∧ r.samples = (measuredOf c).samples ∧ r.samples ≠ 0
      ∧ ((r.parity = .top ∧ c.parity = .top ∧ r.total = c.total)
        ∨ (r.parity ≠ c.parity ∧ ((r.total : Int) - (c.total : Int)).natAbs ≤ 1)) := by
  simp only [consistent, Bool.and_eq_true, Bool.or_eq_true, beq_iff_eq, bne_iff_ne, decide_eq_true_eq, and_assoc]
  rfl

/-- The structure that two consistent pictures establish (R6). -/
theorem establish_eq (r : Measured) (c : Current) : establish r (measuredOf c) =
    { active := c.active, samples := sampleCount c
      pattern := if r.parity = c.parity then .allTop else .alternating
      totalTop := if c.parity = .top then some c.total else if r.parity = .top then some r.total else none
      totalBottom := if c.parity = .bottom then some c.total else if r.parity = .bottom then some r.total else none } := rfl

/-- The parity expected after two consistent pictures (R6, R7). -/
theorem expected_established (r : Measured) (c : Current) :
    expectedParity (establish r (measuredOf c)) c.parity = if r.parity = c.parity then .top else oppositeParity c.parity := by
  rw [establish_eq, expectedParity]
  by_cases hp : r.parity = c.parity
  · simp only [if_pos hp]
  · simp only [if_neg hp]

theorem takeMarker_dark (h : (p.links.get n).state = .dark) : takeMarker n number parity blank false p = p := by
  rw [takeMarker, truncated_whole]
  simp only [h]

theorem takeMarker_seeking (h : (p.links.get n).state = .seeking) : takeMarker n number parity blank false p =
    seeLine n number blank (markerSeeking n number parity blank p) := by
  rw [takeMarker, truncated_whole]
  simp only [h]

/-- What the receiver of a link in SEEKING makes of a marker (R6). -/
def searched (number : Nat) (parity : Parity) (blank : Bool) (now : Nat) (l : LinkRx) : LinkRx :=
  if outOfSequence l.lastNumber number true then
    { l with cur := none, recorded := none, lastNumber := some number, line := some (!blank) }
  else match l.cur, l.recorded with
    | none, _ =>
      { l with
        cur := some (beginPicture parity parity blank true), recorded := none
        lastNumber := some number, line := some (!blank) }
    | some c, none =>
      { l with
        cur := some (beginPicture parity parity blank true), recorded := some (measuredOf c)
        lastNumber := some number, line := some (!blank) }
    | some c, some r =>
      if consistent r (measuredOf c) then
        { l with
          state := .measuring, est := some (establish r (measuredOf c)), window := some ⟨now, 0⟩, missedRun := 0
          recorded := none
          cur := some (beginPicture parity (expectedParity (establish r (measuredOf c)) c.parity) blank true)
          lastNumber := some number, line := some (!blank) }
      else { l with cur := none, recorded := none, lastNumber := some number, line := some (!blank) }

theorem markerSeeking_searched (n : Ix) (number : Nat) (parity : Parity) (blank : Bool) (p : Part) :
    seeLine n number blank (markerSeeking n number parity blank p) =
      { p with links := p.links.set n (searched number parity blank p.timebase (p.links.get n)) } := by
  have hset (f : LinkRx → LinkRx) (x : LinkRx) (h : seen number blank (f (p.links.get n)) = x) :
      seeLine n number blank (modLink n f p) = { p with links := p.links.set n x } := by
    have e : seeLine n number blank (modLink n f p) = modLink n (fun l => seen number blank (f l)) p := modLink_modLink ..
    rw [e, modLink, Four.modify, h]
  unfold markerSeeking searched
  dsimp only
  by_cases hseq : outOfSequence (p.links.get n).lastNumber number true = true
  · rw [if_pos hseq, if_pos hseq]
    exact hset _ _ rfl
  · rw [if_neg hseq, if_neg hseq]
    cases (p.links.get n).cur with
    | none => exact hset _ _ rfl
    | some c =>
      cases (p.links.get n).recorded with
      | none => exact hset _ _ rfl
      | some r =>
        dsimp only
        by_cases hc : consistent r (measuredOf c) = true
        · rw [if_pos hc, if_pos hc]
          exact hset _ _ rfl
        · rw [if_neg hc, if_neg hc]
          exact hset _ _ rfl

end Search

end Sys2Proof.Machine.Identify
end

section
/-! SUPPORT. Markers in SEEKING, MEASURING and LOCKED that identify no link (R6, R7, R8, R10, R11, R12). -/

namespace Sys2Proof.Machine.Identify

open Frames Keeping LaneValues HistoryLaw LaneEnds LockLoss LineStarts Markers PictureStarts

section Window
variable {p : Part} {n : Ix} {number : Nat} {parity : Parity} {blank : Bool} {e : Established} {c : Current}

/-- The window of a link in MEASURING after a marker that identifies nothing (R8). -/
def measured (now : Nat) (l : LinkRx) : LinkRx :=
  match l.window with
  | none => { l with window := some ⟨now, 0⟩ }
  | some w =>
    if w.count + 1 < 8 then { l with window := some ⟨w.start, w.count + 1⟩ }
    else { l with window := some ⟨now, 0⟩, ctr := { l.ctr with unidentified := bump l.ctr.unidentified } }

/-- A marker that passes the check in MEASURING and identifies nothing advances the window or begins one (R8). -/
theorem markerMeasuring_goes (h : ∀ w, (p.links.get n).window = some w → w.count + 1 < 8
    ∨ identifyWindow e (windowSum p w) = none) : markerMeasuring n e parity p = modLink n (measured p.timebase) p := by
  unfold markerMeasuring
  cases hw : (p.links.get n).window with
  | none => exact modLink_const (by rw [measured, hw])
  | some w =>
    dsimp only
    by_cases hc : w.count + 1 < 8
    · rw [if_pos hc]
      exact modLink_const (by rw [measured, hw]; exact (if_pos hc).symm)
    · rw [if_neg hc, (h w hw).resolve_left hc]
      dsimp only
      rw [bumpLink_eq, modLink_modLink]
      exact modLink_const (by rw [measured, hw]; exact (if_neg hc).symm)

/-- An eighth period outside the tolerance ends the lock (R10). -/
theorem markerLocked_lost {code : Std} {w : Window} (hw : (p.links.get n).window = some w) (hc : w.count = 7)
    (h : windowMatches (periodOf code) (windowSum p w) = false) : markerLocked n code parity p = toSeeking n none p := by
  unfold markerLocked
  rw [hw]
  dsimp only
  rw [if_neg (by omega), if_neg (by rw [h]; exact Bool.false_ne_true)]

end Window

section Clauses
variable {env : Env} {n : Ix} {number : Nat} {parity : Parity} {blank : Bool} {s : State} {e : Established} {c : Current}
  {code : Std} {now : Nat}

theorem found_calm (hq : quiet s) : (foundBy env s).fault.fatalDue = false := by rw [found_fault]; exact hq.1

theorem marker_dark (hq : quiet s) (h : (s.part.links.get n).state = .dark) :
    exec (.pictureMarker env n number parity blank false) s = .next { s with part := foundBy env s } := by
  rw [marker_next hq, takeMarker_dark (by rw [found_links]; exact h), settle_quiet (found_calm hq)]

/-- A marker in SEEKING (R6). -/
theorem marker_searches (hq : quiet s) (hnow : now = max s.part.timebase env.time) (h : (s.part.links.get n).state = .seeking) :
    exec (.pictureMarker env n number parity blank false) s = .next { s with
      part := { foundBy env s with
        links := s.part.links.set n (searched number parity blank now (s.part.links.get n)) } } := by
  have hf := found_calm (env := env) hq
  obtain rfl : now = (foundBy env s).timebase := hnow.trans (found_timebase env s).symm
  rw [marker_next hq, takeMarker_seeking (by rw [found_links]; exact h), markerSeeking_searched, settle_quiet (by exact hf),
    found_links]

/-- What a link that left LOCKED leaves behind, seen from what the marker found (R11, R129). -/
theorem lostLock_found {g : LinkRx → LinkRx} {t : Part} (h : LostLock n (modLink n g (foundBy env s)) t) :
    (t.feeds.get n).captureOn = false ∧ Cond.linkLost n ∈ t.fault.latches ∧ (getLog (.fl n) t).isSome = true
      ∧ (t.feeds.get n).nextSeq = (s.part.feeds.get n).nextSeq
      ∧ (∀ m, (s.part.lanes.get m).profile.source = n → (t.lanes.get m).usable = false)
      ∧ (t.fault.deviceFatal = s.part.fault.deviceFatal →
        ∀ m, (s.part.lanes.get m).profile.source = n → losesInput (foundBy env s) t m) := by
  have hsrc (m : Ix) : ((foundBy env s).lanes.get m).profile.source = (s.part.lanes.get m).profile.source := by simp
  have hseq : (t.feeds.get n).nextSeq = ((foundBy env s).feeds.get n).nextSeq := h.nextSeq
  have hdev : (foundBy env s).fault.deviceFatal = s.part.fault.deviceFatal := by rw [found_fault]
  refine ⟨h.capture, h.latched, h.logged, ?_, fun m hm => h.usable m ((hsrc m).trans hm), fun hcalm m hm => ?_⟩
  · rw [hseq, found_feeds]
  · exact losesInput_of (h.loses (hcalm.trans hdev.symm) m ((hsrc m).trans hm)) rfl rfl id (fun _ h => h) (fun _ _ h => h)

/-- A structure break at a marker (R7, R10, R11). -/
theorem marker_breaks (hq : quiet s) (hex : extracts (s.part.links.get n).state = true)
    (he : (s.part.links.get n).est = some e) (hc : (s.part.links.get n).cur = some c)
    (h : outOfSequence (s.part.links.get n).lastNumber number true = true ∨ (c.checked = true ∧ breaks e c = true)) :
    exec (.pictureMarker env n number parity blank false) s = .next { s with part := settle (seeLine n number blank
      (toSeeking n (some (beginPicture parity parity blank true)) (foundBy env s))) } := by
  have hl := found_links env s
  rw [marker_next hq, takeMarker_checked (by rw [hl]; exact hex),
    markerChecked_breaks (by rw [hl]; exact he) (by rw [hl]; exact hc) (by rw [hl]; exact h)]

/-- A marker that passes the check in MEASURING and identifies nothing (R8). -/
theorem marker_measures (hq : quiet s) (hnow : now = max s.part.timebase env.time) (hs : (s.part.links.get n).state = .measuring)
    (he : (s.part.links.get n).est = some e) (hc : (s.part.links.get n).cur = some c)
    (hseq : outOfSequence (s.part.links.get n).lastNumber number true = false) (hb : (c.checked && breaks e c) = false)
    (hw : ∀ w, (s.part.links.get n).window = some w → w.count + 1 < 8 ∨ identifyWindow e (now - w.start) = none) :
    exec (.pictureMarker env n number parity blank false) s = .next { s with
      part := { foundBy env s with
        links := s.part.links.set n (seen number blank (measured now (begun e c parity blank (s.part.links.get n)))) } } := by
  have hl := found_links env s
  have hf := found_calm (env := env) hq
  obtain rfl : now = (foundBy env s).timebase := hnow.trans (found_timebase env s).symm
  rw [marker_next hq, takeMarker_checked (by rw [hl, hs]; rfl),
    (markerChecked_passes (by rw [hl]; exact he) (by rw [hl]; exact hc) (by rw [hl]; exact hseq) hb).1 (by rw [hl]; exact hs),
    markerMeasuring_goes]
  · have e : seeLine n number blank (modLink n (measured (foundBy env s).timebase)
        (modLink n (begun e c parity blank) (foundBy env s))) = { foundBy env s with
          links := s.part.links.set n (seen number blank (measured (foundBy env s).timebase
            (begun e c parity blank (s.part.links.get n)))) } := by
      have hs : seeLine n number blank = modLink n (seen number blank) := rfl
      rw [hs, modLink_modLink, modLink_modLink, modLink, hl]
      rfl
    refine congrArg (fun q : Part => Host.Outcome.next { s with part := q }) ?_
    exact (congrArg settle e).trans (settle_quiet (by exact hf))
  · intro w hw'
    have hwin : ((modLink n (begun e c parity blank) (foundBy env s)).links.get n).window = (s.part.links.get n).window := by
      rw [modLink_links, Four.get_modify_same, hl]
      rfl
    exact hw w (hwin.symm.trans hw')

/-- An eighth period outside the tolerance (R10, R11). -/
theorem marker_slips {w : Window} (hq : quiet s) (hnow : now = max s.part.timebase env.time)
    (hs : (s.part.links.get n).state = .locked code) (he : (s.part.links.get n).est = some e)
    (hc : (s.part.links.get n).cur = some c) (hseq : outOfSequence (s.part.links.get n).lastNumber number true = false)
    (hb : (c.checked && breaks e c) = false) (hw : (s.part.links.get n).window = some w) (hcount : w.count = 7)
    (hfar : windowMatches (periodOf code) (now - w.start) = false) :
    exec (.pictureMarker env n number parity blank false) s = .next { s with part := settle (seeLine n number blank
      (toSeeking n none (modLink n (begun e c parity blank) (foundBy env s)))) } := by
  have hl := found_links env s
  have ht : (foundBy env s).timebase = now := by rw [hnow]; exact found_timebase env s
  have hwin : ((modLink n (begun e c parity blank) (foundBy env s)).links.get n).window = some w := by
    rw [modLink_links, Four.get_modify_same, hl]
    exact hw
  have hsum : windowSum (modLink n (begun e c parity blank) (foundBy env s)) w = now - w.start := congrArg (· - w.start) ht
  rw [marker_next hq, takeMarker_checked (by rw [hl, hs]; rfl),
    (markerChecked_passes (by rw [hl]; exact he) (by rw [hl]; exact hc) (by rw [hl]; exact hseq) hb).2 code (by rw [hl]; exact hs),
    markerLocked_lost hwin hcount (by rw [hsum]; exact hfar)]

/-- A marker that is handed on while capture is OFF changes its link alone (R12, R22). -/
theorem marker_uncaptured (hq : quiet s) (h : handsOn s n number code e c now) (hnow : now = max s.part.timebase env.time)
    (hoff : (s.part.feeds.get n).captureOn = false) : exec (.pictureMarker env n number parity blank false) s =
    .next { s with part := seeLine n number blank (modLink n (handedOn e c parity blank now) (foundBy env s)) } := by
  have hf := found_calm (env := env) hq
  have ht : (foundBy env s).timebase = now := by rw [hnow]; exact found_timebase env s
  have hcap : ((modLink n (handedOn e c parity blank now) (foundBy env s)).feeds.get n).captureOn = false := by
    rw [modLink_feeds, found_feeds, hoff]
  rw [marker_next hq, takeMarker_hands (found_links env s) ht h, handPicture, hcap, if_neg Bool.false_ne_true,
    settle_quiet (by exact hf)]

theorem takeMarker_cut (n : Ix) (number : Nat) (parity : Parity) (blank cut : Bool) (p : Part) :
    takeMarker n number parity blank cut p = takeMarker n number parity blank false (truncated n cut p) := by
  have h : takeMarker n number parity blank false (truncated n cut p) =
      match ((truncated n false (truncated n cut p)).links.get n).state with
      | .dark => truncated n false (truncated n cut p)
      | .seeking => seeLine n number blank (markerSeeking n number parity blank (truncated n false (truncated n cut p)))
      | .measuring => seeLine n number blank (markerChecked n number parity blank (truncated n false (truncated n cut p)))
      | .locked _ => seeLine n number blank (markerChecked n number parity blank (truncated n false (truncated n cut p))) := rfl
  rw [h, truncated_whole]
  rfl

/-- A packet cut off at a marker comes first (R3). -/
theorem marker_cut (hq : quiet s) (hnow : now = max s.part.timebase env.time) :
    exec (.pictureMarker env n number parity blank true) s =
      if extracts (s.part.links.get n).state then
        exec (.pictureMarker ⟨env.time, []⟩ n number parity blank false) { s with
          part := { foundBy env s with
            links := s.part.links.modify n (fun l => { l with ctr := { l.ctr with packetErrors := bump l.ctr.packetErrors } })
            fault := { s.part.fault with
              feedLogs := s.part.fault.feedLogs.modify n (logReport .badPacket now .none) } } }
      else exec (.pictureMarker env n number parity blank false) s := by
  have hcut : exec (.pictureMarker env n number parity blank true) s = happens env (takeMarker n number parity blank true) s := rfl
  have h1 : takeMarker n number parity blank true = fun p => takeMarker n number parity blank false (truncated n true p) :=
    funext (takeMarker_cut n number parity blank true)
  have h2 : (fun p => takeMarker n number parity blank false (truncated n false p)) = takeMarker n number parity blank false :=
    funext fun p => by rw [truncated_whole]
  rw [hcut, h1, cut_first hq, h2, hnow]
  rfl

end Clauses

end Sys2Proof.Machine.Identify
end

section
/-! SUPPORT. A flush beside a change of a link (R37), and the lanes of a feed that find its code (R122, R123, R131). -/

namespace Sys2Proof.Machine.Identify

open Frames Keeping LaneValues HistoryLaw StoreValues LaneEnds LockLoss LineStarts Markers PictureStarts

/-! ### A flush beside a change of a link -/

section Aside
variable {n : Ix} {g : LinkRx → LinkRx}

/-- An operation that does the same beside a change of link `n` (R37). -/
def Aside (n : Ix) (g : LinkRx → LinkRx) (f : Part → Part) : Prop := ∀ p, f (modLink n g p) = modLink n g (f p)

theorem aside_comp {f h : Part → Part} (hf : Aside n g f) (hh : Aside n g h) : Aside n g (fun p => h (f p)) :=
  fun p => (congrArg h (hf p)).trans (hh (f p))

theorem aside_forAll {α : Type} {f : α → Part → Part} (h : ∀ x, Aside n g (f x)) (xs : List α) : Aside n g (forAll xs f) := by
  induction xs with
  | nil => exact fun _ => rfl
  | cons x xs ih => exact fun p => (congrArg (forAll xs f) (h x p)).trans (ih (f x p))

theorem aside_notice (hg : ∀ l, (g l).settings = l.settings) (c : Cond) (m : Ix) : Aside n g (addNotice c m) := by
  intro p
  have hs : ((modLink n g p).links.get m).settings = (p.links.get m).settings := by
    rw [modLink_links, Four.get_modify]
    split
    · rw [hg]
    · rfl
  unfold addNotice
  rw [hs, show (modLink n g p).outs = p.outs from rfl]
  split <;> rfl

theorem aside_latchSet (hg : ∀ l, (g l).settings = l.settings) (c : Cond) : Aside n g (latchSet c) := by
  intro p
  have hf (f : FaultUnit → FaultUnit) : Aside n g (modFault f) := fun _ => rfl
  unfold latchSet
  rw [show (modLink n g p).fault = p.fault from rfl]
  split
  · rfl
  · rw [addNotices_eq, addNotices_eq]
    exact aside_comp (aside_comp (hf _) (aside_forAll (aside_notice hg c) allIx)) (hf _) p

theorem aside_slotToQuarantine (hg : ∀ l, (g l).settings = l.settings) (k : SlotIx) : Aside n g (slotToQuarantine k) := by
  intro p
  have hp : Aside n g poolDegrade := fun p =>
    congrArg (report .dl .poolDegraded (.count p.store.quarantine)) (aside_latchSet hg .poolDegraded p)
  rw [slotToQuarantine_eq, slotToQuarantine_eq, show quarantineSet k (modLink n g p) = modLink n g (quarantineSet k p) from rfl,
    show (modLink n g p).store = p.store from rfl]
  split
  · exact hp _
  · rfl

theorem aside_returnEntry (hg : ∀ l, (g l).settings = l.settings) (m : Ix) (e : Entry) : Aside n g (returnEntry m e) := by
  intro p
  have hs (k : SlotIx) : slotOf (modLink n g p) k = slotOf p k := rfl
  unfold returnEntry
  split
  · next k _ =>
    unfold returnSlot releaseSlot
    dsimp only
    rw [hs k]
    split
    · split
      · rfl
      · split
        · exact aside_slotToQuarantine hg k p
        · rfl
    · rfl
  · rfl

/-- A flush does the same beside a change of a link that keeps its settings (R37). -/
theorem aside_flushFeed (hg : ∀ l, (g l).settings = l.settings) (m : Ix) : Aside n g (flushFeed m) := by
  intro p
  have h := aside_forAll (n := n) (aside_returnEntry hg m) (p.feeds.get m).history (modFeed m (fun f => { f with history := [] }) p)
  exact congrArg (fun q => bumpFeed m (fun c => { c with flushes := bump c.flushes }) (modFeed m (fun f =>
    { f with lastStamp := none, dPrev := 0, segment := (f.segment + 1) % 65536 }) q)) h

end Aside

/-! ### Lanes that find the code of their feed -/

section Lanes
variable {p q : Part} {n m k : Ix} {code : Std}

/-- A lane that finds its source link LOCKED with `code` (R122, R129, R131). -/
def finding (code : Std) (l : Lane) : Lane :=
  if l.profile.input = code then
    if l.usable then { l with usable := true }
    else { l with usable := true, state := if l.state = .holding ∨ l.state = .slate then .acquiring else l.state }
  else unusable l

theorem inputReturn_lane : (inputReturn m p).lanes.get m = { p.lanes.get m with
    state := if (p.lanes.get m).state = .holding ∨ (p.lanes.get m).state = .slate then .acquiring else (p.lanes.get m).state } := by
  have hsame (h : ¬((p.lanes.get m).state = .holding ∨ (p.lanes.get m).state = .slate)) : p.lanes.get m = { p.lanes.get m with
      state := if (p.lanes.get m).state = .holding ∨ (p.lanes.get m).state = .slate then .acquiring
        else (p.lanes.get m).state } := by
    rw [if_neg h]
  unfold inputReturn
  cases hs : (p.lanes.get m).state with
  | holding => exact Four.get_modify_same ..
  | slate => exact Four.get_modify_same ..
  | acquiring => rw [hs] at hsame; exact hsame (by decide)
  | converting => rw [hs] at hsame; exact hsame (by decide)
  | stopped => rw [hs] at hsame; exact hsame (by decide)
  | faulted => rw [hs] at hsame; exact hsame (by decide)

theorem inputUsable_locked (h : lockedCode p (p.lanes.get m).profile.source = some code) :
    inputUsable p m = decide ((p.lanes.get m).profile.input = code) := by
  rw [inputUsable, h]
  exact decide_eq_decide.2 ⟨fun e => (Option.some.inj e).symm, fun e => congrArg some e.symm⟩

theorem evalUsable_finding (h : lockedCode p (p.lanes.get m).profile.source = some code) :
    (evalUsable m p).lanes.get m = finding code (p.lanes.get m) := by
  have hu := inputUsable_locked h
  unfold finding
  by_cases hc : (p.lanes.get m).profile.input = code
  · rw [if_pos hc]
    rw [decide_eq_true hc] at hu
    unfold evalUsable
    rw [hu]
    cases (p.lanes.get m).usable with
    | true => exact Four.get_modify_same ..
    | false =>
      refine (inputReturn_lane (p := modLane m (fun l => { l with usable := true }) p)).trans ?_
      rw [modLane_lanes, Four.get_modify_same]
      rfl
  · rw [if_neg hc]
    rw [decide_eq_false hc] at hu
    exact evalUsable_lost_lane hu

theorem lostInput_runs (l : Lane) : isRunning (lostInput l).state = isRunning l.state
    ∧ (lostInput l).profile = l.profile := by
  unfold lostInput enteredHold slated swapped held
  split_ifs with h
  · split <;> rcases h with h | h <;> exact ⟨by rw [h]; rfl, rfl⟩
  · rcases h with h | h <;> exact ⟨by rw [h]; rfl, rfl⟩
  · exact ⟨rfl, rfl⟩

theorem finding_usable (l : Lane) : (finding code l).usable = decide (l.profile.input = code) := by
  unfold finding
  by_cases hc : l.profile.input = code
  · rw [if_pos hc, decide_eq_true hc]
    split <;> rfl
  · rw [if_neg hc, decide_eq_false hc]
    exact unusable_usable l

/-- A lane runs under the same profile once it has found its code (R122). -/
theorem finding_runs (l : Lane) : isRunning (finding code l).state = isRunning l.state ∧ (finding code l).profile = l.profile := by
  unfold finding unusable
  split_ifs with h1 h2 h3
  · exact ⟨rfl, rfl⟩
  · rcases h3 with h3 | h3 <;> exact ⟨by rw [h3]; rfl, rfl⟩
  · exact ⟨rfl, rfl⟩
  · exact lostInput_runs _
  · exact ⟨rfl, rfl⟩

/-- A lane whose input was not usable (R122, R131). -/
theorem finding_new {l : Lane} (h : l.usable = false) : finding code l = { l with
    usable := decide (l.profile.input = code)
    state := if l.profile.input = code ∧ (l.state = .holding ∨ l.state = .slate) then .acquiring else l.state } := by
  unfold finding unusable
  rw [h]
  by_cases hc : l.profile.input = code
  · simp only [hc, true_and, if_true, Bool.false_eq_true, if_false, decide_true]
  · simp only [hc, false_and, if_false, Bool.false_eq_true, decide_false]

/-- The lanes of a feed find its code, each by itself (R122). -/
theorem forSourcing_finding (hlock : lockedCode p n = some code) (hm : (p.lanes.get m).profile.source = n) :
    (forSourcing n evalUsable p).lanes.get m = finding code (p.lanes.get m) := by
  have hacts (k : Ix) (q : Part) : InputActs q (if sources q n k then evalUsable k q else q) := by
    split
    · exact acts_evalUsable k q
    · exact .refl q
  have hother (k : Ix) (q : Part) (hk : k ≠ m) :
      laneOpView m (if sources q n k then evalUsable k q else q) = laneOpView m q := by
    split
    · exact evalUsable_view hk.symm q
    · rfl
  obtain ⟨q, hpq, hview, -, hafter⟩ := forEach_at (R := InputActs) (f := fun k q => if sources q n k then evalUsable k q else q)
    .refl (fun _ _ _ => .trans) hacts m hother p
  have hlane : q.lanes.get m = p.lanes.get m := congrArg Prod.fst hview
  have hs : sources q n m = true := by rw [sources, hlane, hm, decide_eq_true rfl]
  have hl := congrArg Prod.fst hafter
  simp only [hs, if_true] at hl
  refine hl.trans ((evalUsable_finding ?_).trans (congrArg (finding code) hlane))
  rw [hlane, hm, lockedCode_congr hpq.links, hlock]

end Lanes

end Sys2Proof.Machine.Identify
end

section
/-! SUPPORT. What a picture start and a flush leave of capture, flush counts and STD_MISMATCH (R21, R31, R37, R123). -/

namespace Sys2Proof.Machine.Identify

open Frames Keeping LaneValues HistoryLaw StoreValues LaneEnds LockLoss LineStarts Markers PictureStarts

/-! ### Picture starts -/

section Timeline
variable {n m : Ix} {p q r : Part}

/-- `q` is `p` after work on the timeline of feed `n` or the store: the feed captures and has flushed as before, and no lane
has latched STD_MISMATCH. -/
structure Timeline (n : Ix) (p q : Part) : Prop where
  mismatch : ∀ m, Cond.stdMismatch m ∈ q.fault.latches ↔ Cond.stdMismatch m ∈ p.fault.latches
  capture : (q.feeds.get n).captureOn = (p.feeds.get n).captureOn
  flushes : (q.feeds.get n).ctr.flushes = (p.feeds.get n).ctr.flushes
  fatal : q.fault.deviceFatal = p.fault.deviceFatal

theorem Timeline.refl (n : Ix) (p : Part) : Timeline n p p := ⟨fun _ => .rfl, rfl, rfl, rfl⟩

theorem Timeline.trans (h : Timeline n p q) (g : Timeline n q r) : Timeline n p r :=
  ⟨fun m => (g.mismatch m).trans (h.mismatch m), g.capture.trans h.capture, g.flushes.trans h.flushes,
   g.fatal.trans h.fatal⟩

theorem Timeline.of (h : Timeline n p q) (hl : r.fault.latches = q.fault.latches) (hf : r.feeds = q.feeds)
    (hd : r.fault.deviceFatal = q.fault.deviceFatal) : Timeline n p r :=
  h.trans ⟨fun _ => by rw [hl], by rw [hf], by rw [hf], hd⟩

theorem Timeline.latchSet {c : Cond} (h : Timeline n p q) (hc : ∀ m, Cond.stdMismatch m ≠ c := by intro; exact nofun) : Timeline n p (latchSet c q) :=
  h.trans ⟨fun m => (mem_latchSet _ c _).trans (or_iff_left (hc m)), by simp, by simp, by simp⟩

theorem Timeline.modFeed {f : Feed → Feed} (h : Timeline n p q) (hc : ∀ x, (f x).captureOn = x.captureOn := by intro; rfl)
    (hf : ∀ x, (f x).ctr.flushes = x.ctr.flushes := by intro; rfl) : Timeline n p (modFeed n f q) := by
  refine h.trans ⟨fun _ => .rfl, ?_, ?_, rfl⟩
  · rw [modFeed_feeds, Four.get_modify_same, hc]
  · rw [modFeed_feeds, Four.get_modify_same, hf]

theorem Timeline.bumpFeed {f : FeedCounters → FeedCounters} (h : Timeline n p q) (hf : ∀ x, (f x).flushes = x.flushes := by intro; rfl) :
    Timeline n p (bumpFeed n f q) :=
  h.modFeed (fun _ => rfl) (fun x => hf x.ctr)

theorem Timeline.report (h : Timeline n p q) (l : LogId) (c : ErrCode) (d : Detail) : Timeline n p (report l c d q) := by
  cases l <;> exact h.of rfl rfl rfl

theorem Timeline.integrityError (h : Timeline n p q) (k : SlotIx) : Timeline n p (integrityError k q) := h.of rfl rfl rfl

theorem Timeline.slotToQuarantine (h : Timeline n p q) (k : SlotIx) : Timeline n p (slotToQuarantine k q) := by
  have h0 : Timeline n p (quarantineSet k q) := h.of rfl rfl rfl
  rw [slotToQuarantine_eq]
  split
  · exact .report (.latchSet h0) ..
  · exact h0

theorem Timeline.returnEntry (h : Timeline n p q) (a : Ix) (e : Entry) : Timeline n p (returnEntry a e q) := by
  unfold Machine.returnEntry
  split
  · next k _ =>
    unfold returnSlot releaseSlot
    dsimp only
    split
    · split
      · exact h.of rfl rfl rfl
      · split
        · exact h.slotToQuarantine k
        · exact h.of rfl rfl rfl
    · exact h.integrityError k
  · exact h

theorem Timeline.grant (h : Timeline n p q) : Timeline n p (grant n q).1 := by
  unfold Machine.grant
  split
  · exact h.of rfl rfl rfl
  · split
    · exact h.of rfl rfl rfl
    · dsimp only
      split
      · exact h.of rfl rfl rfl
      · exact h.integrityError _

theorem Timeline.abandonNewest (h : Timeline n p q) (b : Bool) : Timeline n p (abandonNewest n b q) := by
  by_cases hopen : ∃ e, newest (q.feeds.get n) = some e ∧ isOpenPicture e = true
  · obtain ⟨e, he, ho⟩ := hopen
    have ha : Timeline n p (abandonedEntry n e q) :=
      .bumpFeed (.returnEntry (.modFeed h) n e)
    rw [abandonNewest_open b he ho]
    split
    · exact ha.report ..
    · exact ha
  · rw [abandonNewest_closed b (fun e he => by
      by_contra hc
      exact hopen ⟨e, he, by simpa using hc⟩)]
    exact h

theorem Timeline.makeRoom (h : Timeline n p q) : Timeline n p (makeRoom n q) := by
  unfold Machine.makeRoom
  split
  · exact h
  · split
    · exact .returnEntry (.modFeed h) ..
    · exact h

theorem Timeline.pushEntry (h : Timeline n p q) (e : Entry) : Timeline n p (pushEntry n e q) :=
  h.modFeed

theorem Timeline.appendHoles (h : Timeline n p q) (il : Bool) (period : Nat) (first : Int) (m : Nat) :
    Timeline n p (appendHoles n il period first m q) := by
  induction m with
  | zero => exact h
  | succ m ih =>
    rw [Machine.appendHoles, appendMissed_eq]
    exact .bumpFeed (.report (.pushEntry (.makeRoom ih) _) ..)

theorem Timeline.appendPicture (h : Timeline n p q) (stamp a : Int) (par : Option Parity) :
    Timeline n p (appendPicture n stamp a par q) := by
  have h0 : Timeline n p (Machine.grant n (Machine.makeRoom n q)).1 := h.makeRoom.grant
  unfold Machine.appendPicture
  dsimp only
  generalize Machine.grant n (Machine.makeRoom n q) = g at h0
  obtain ⟨r, slot⟩ := g
  refine .bumpFeed ?_
  cases slot with
  | some k => exact h0.pushEntry _
  | none => exact .bumpFeed (.report (.pushEntry h0 _) ..)

/-- A picture start latches no STD_MISMATCH, and leaves capture and the flushes as they were (R31). -/
theorem Timeline.pictureStart (h : Timeline n p q) (code : Std) (a : Int) (parity : Parity) :
    Timeline n p (pictureStart n code a parity q) := by
  have h0 : Timeline n p (Machine.abandonNewest n true q) := h.abandonNewest true
  unfold Machine.pictureStart
  dsimp only
  generalize Machine.abandonNewest n true q = r at h0
  split
  · exact .appendPicture (.modFeed h0) ..
  · exact .appendPicture (.appendHoles (.modFeed h0) ..) ..
  · exact .appendPicture (.bumpFeed (.report (.latchSet (.modFeed h0)
     ) ..)) ..

theorem timeline_handPicture (code : Std) (a : Int) (parity : Parity) : Timeline n p (handPicture n code a parity p) := by
  unfold handPicture
  split
  · exact (Timeline.refl n p).pictureStart code a parity
  · exact .refl n p

/-- A flush latches no STD_MISMATCH (R37). -/
theorem flushFeed_mismatch (m : Ix) : Cond.stdMismatch m ∈ (flushFeed n p).fault.latches ↔ Cond.stdMismatch m ∈ p.fault.latches := by
  have h (xs : List Entry) : ∀ q r : Part, Timeline n q r → Timeline n q (forAll xs (returnEntry n) r) := by
    induction xs with
    | nil => exact fun _ _ hq => hq
    | cons x xs ih => exact fun q r hq => ih q _ (hq.returnEntry n x)
  exact (h (p.feeds.get n).history _ (modFeed n (fun f => { f with history := [] }) p) (.refl n _)).mismatch m

end Timeline

/-! ### Lanes that find another code -/

section Mismatch
variable {p q : Part} {n m k : Ix} {code : Std}

theorem evalUsable_mismatch (k : Ix) (p : Part) :
    Cond.stdMismatch m ∈ (evalUsable k p).fault.latches ↔ Cond.stdMismatch m ∈ p.fault.latches := by
  have hhold (q : Part) : Cond.stdMismatch m ∈ (enterHolding k q).fault.latches ↔ Cond.stdMismatch m ∈ q.fault.latches := by
    rw [mem_enterHolding]
    simp
  unfold evalUsable
  dsimp only
  split
  · unfold inputLoss
    split
    · exact hhold _
    · exact hhold _
    all_goals exact .rfl
  · split
    · unfold inputReturn
      split <;> exact .rfl
    · exact .rfl

theorem forSourcing_mismatch (p : Part) (n : Ix) :
    Cond.stdMismatch m ∈ (forSourcing n evalUsable p).fault.latches ↔ Cond.stdMismatch m ∈ p.fault.latches := by
  refine iff_of_eq (forEach_keeps p (fun p => Cond.stdMismatch m ∈ p.fault.latches) _ (fun k q => ?_))
  split
  · exact propext (evalUsable_mismatch k q)
  · rfl

theorem acts_checkMismatch (k : Ix) (q : Part) : InputActs q (if sources q n k then checkMismatch k q else q) := by
  unfold checkMismatch
  split
  · split
    · exact acts_latchSet _ _
    · exact .refl q
  · exact .refl q

theorem checkMismatch_lanes (k : Ix) (q : Part) : (if sources q n k then checkMismatch k q else q).lanes = q.lanes := by
  unfold checkMismatch
  split
  · split
    · simp
    · rfl
  · rfl

theorem forSourcing_check_acts (p : Part) (n : Ix) : InputActs p (forSourcing n checkMismatch p) :=
  (((acts_checkMismatch 0 p).trans (acts_checkMismatch 1 _)).trans (acts_checkMismatch 2 _)).trans (acts_checkMismatch 3 _)

theorem forSourcing_check_lanes (p : Part) (n : Ix) : (forSourcing n checkMismatch p).lanes = p.lanes :=
  forEach_keeps p (fun p => p.lanes) _ (fun k q => checkMismatch_lanes k q)

theorem causePresent_mismatch (h : lockedCode p (p.lanes.get m).profile.source = some code) :
    causePresent p (.stdMismatch m) = true ↔ isRunning (p.lanes.get m).state = true ∧ (p.lanes.get m).profile.input ≠ code := by
  rw [causePresent, h]
  dsimp only
  rw [Bool.and_eq_true, bne_iff_ne, ne_comm]

/-- A running lane of the feed whose input standard is another latches STD_MISMATCH (R123). -/
theorem forSourcing_check (hlock : lockedCode p n = some code) (hm : (p.lanes.get m).profile.source = n) :
    Cond.stdMismatch m ∈ (forSourcing n checkMismatch p).fault.latches ↔ Cond.stdMismatch m ∈ p.fault.latches
      ∨ (isRunning (p.lanes.get m).state = true ∧ (p.lanes.get m).profile.input ≠ code) := by
  have hother (k : Ix) (q : Part) (hk : k ≠ m) : (Cond.stdMismatch m ∈ (if sources q n k then checkMismatch k q else q).fault.latches)
      = (Cond.stdMismatch m ∈ q.fault.latches) := by
    unfold checkMismatch
    split
    · split
      · refine propext ((mem_latchSet _ _ _).trans (or_iff_left (fun e => hk ?_)))
        exact (Cond.stdMismatch.inj e).symm
      · rfl
    · rfl
  obtain ⟨q, ⟨hl, hk⟩, hview, -, hafter⟩ := forEach_at (R := fun a b : Part => b.lanes = a.lanes ∧ b.links = a.links)
    (f := fun k q => if sources q n k then checkMismatch k q else q) (view := fun p => Cond.stdMismatch m ∈ p.fault.latches)
    (fun _ => ⟨rfl, rfl⟩) (fun _ _ _ h g => ⟨g.1.trans h.1, g.2.trans h.2⟩)
    (fun k q => ⟨checkMismatch_lanes k q, (acts_checkMismatch k q).links⟩) m hother p
  have hlane : q.lanes.get m = p.lanes.get m := by rw [hl]
  have hs : sources q n m = true := by rw [sources, hlane, hm, decide_eq_true rfl]
  have hlock' : lockedCode q (q.lanes.get m).profile.source = some code := by rw [hlane, hm, lockedCode_congr hk, hlock]
  have hcause := causePresent_mismatch hlock'
  rw [hlane] at hcause
  simp only [hs, if_true] at hafter
  refine (iff_of_eq hafter).trans ?_
  unfold checkMismatch
  split
  · next hc =>
    rw [mem_latchSet]
    exact ⟨fun _ => .inr (hcause.1 hc), fun _ => .inr rfl⟩
  · next hc =>
    rw [← hcause]
    exact (iff_of_eq hview).trans (or_iff_left hc).symm

end Mismatch

end Sys2Proof.Machine.Identify
end

section
/-! SUPPORT. The marker that identifies a link (R8, R9, R21, R22, R37, R122, R123, R131). -/

namespace Sys2Proof.Machine.Identify

open Frames Keeping LaneValues HistoryLaw StoreValues LaneEnds LockLoss LineStarts Markers PictureStarts

/-! ### The effects of R9 -/

section Locking
variable {env : Env} {s : State} {p q : Part} {n m : Ix} {number : Nat} {parity : Parity} {blank : Bool} {e : Established}
  {c : Current} {code old : Std} {w : Window} {now : Nat}

/-- A link that locks with `code` (R9). -/
def locking (e : Established) (c : Current) (parity : Parity) (blank : Bool) (code : Std) (now : Nat) (l : LinkRx) : LinkRx :=
  { begun e c parity blank l with
    state := .locked code, lastCode := some code, window := some ⟨now, 0⟩
    ctr := { l.ctr with identified := bump l.ctr.identified } }

/-- A link whose identifying marker has been handed on (R9, R12). -/
def lockedLink (e : Established) (c : Current) (parity : Parity) (blank : Bool) (code : Std) (now : Nat) (l : LinkRx) : LinkRx :=
  { locking e c parity blank code now l with
    lineErrors := 0
    cur := some { beginPicture parity (expectedParity e c.parity) blank true with handed := true } }

/-- The flush of a feed whose link had another last identified code (R9, R37). -/
def reflushed (n : Ix) (code : Std) (p : Part) : Part :=
  if (p.links.get n).lastCode.any (fun c => c != code) then flushFeed n p else p

theorem reflushed_other (h : (p.links.get n).lastCode = some old) (hne : old ≠ code) : reflushed n code p = flushFeed n p := by
  rw [reflushed, h]
  exact if_pos (by simpa using hne)

theorem reflushed_same (h : (p.links.get n).lastCode = none ∨ (p.links.get n).lastCode = some code) : reflushed n code p = p := by
  rw [reflushed]
  rcases h with h | h <;> rw [h]
  · exact if_neg (by simp)
  · exact if_neg (by simp)

/-- A flush leaves what a lock does not look at anew. -/
theorem reflushed_frame (n : Ix) (code : Std) (p : Part) : (reflushed n code p).links = p.links
    ∧ (reflushed n code p).lanes = p.lanes ∧ (reflushed n code p).timebase = p.timebase
    ∧ (Cond.stdMismatch m ∈ (reflushed n code p).fault.latches ↔ Cond.stdMismatch m ∈ p.fault.latches) := by
  unfold reflushed
  split
  · exact ⟨by simp, by simp, by simp, flushFeed_mismatch m⟩
  · exact ⟨rfl, rfl, rfl, .rfl⟩

/-- The part in which a link has locked, once capture and the lanes of its feed have followed (R9, R21, R122, R123). -/
def followed (n : Ix) (p : Part) : Part := forSourcing n checkMismatch (forSourcing n evalUsable (recapture n p))

/-- The part of the marker that identifies a link, before its picture start (R9, R12). -/
def lockedIn (n : Ix) (e : Established) (c : Current) (parity : Parity) (blank : Bool) (code : Std) (p : Part) : Part :=
  modLink n (fun l => { l with lineErrors := 0, cur := l.cur.map (fun c => { c with handed := true }) })
    (followed n (modLink n (locking e c parity blank code p.timebase) (reflushed n code p)))

/-- The hand-on changes the link alone. -/
theorem lockedIn_frame (n : Ix) (e : Established) (c : Current) (parity : Parity) (blank : Bool) (code : Std) (p : Part) :
    ∃ q, q = followed n (modLink n (locking e c parity blank code p.timebase) (reflushed n code p))
      ∧ (lockedIn n e c parity blank code p).timebase = q.timebase ∧ (lockedIn n e c parity blank code p).feeds = q.feeds
      ∧ (lockedIn n e c parity blank code p).lanes = q.lanes ∧ (lockedIn n e c parity blank code p).fault = q.fault := by
  unfold lockedIn
  generalize followed n _ = q
  exact ⟨q, rfl, rfl, rfl, rfl, rfl⟩

theorem followed_acts (n : Ix) (p : Part) : InputActs (recapture n p) (followed n p) :=
  (forSourcing_acts _ n).trans (forSourcing_check_acts _ n)

theorem identified_eq : identified n code parity (modLink n (begun e c parity blank) p) =
    handPicture n code p.timebase parity (lockedIn n e c parity blank code p) := by
  have hl : ((modLink n (begun e c parity blank) p).links.get n).lastCode = (p.links.get n).lastCode := by
    rw [modLink_links, Four.get_modify_same]
    rfl
  have ht : (lockedIn n e c parity blank code p).timebase = p.timebase := by
    obtain ⟨q, hq, ht, -⟩ := lockedIn_frame n e c parity blank code p
    rw [ht, hq, (followed_acts n _).timebase]
    exact (reflushed_frame (m := n) n code p).2.2.1
  have hflush : (if (p.links.get n).lastCode.any (fun c => c != code) then
        flushFeed n (bumpLink n (fun c => { c with identified := bump c.identified }) (modLink n (begun e c parity blank) p))
      else bumpLink n (fun c => { c with identified := bump c.identified }) (modLink n (begun e c parity blank) p)) =
      modLink n (fun l => { begun e c parity blank l with ctr := { l.ctr with identified := bump l.ctr.identified } })
        (reflushed n code p) := by
    have hb : bumpLink n (fun c => { c with identified := bump c.identified }) (modLink n (begun e c parity blank) p) =
        modLink n (fun l => { begun e c parity blank l with ctr := { l.ctr with identified := bump l.ctr.identified } }) p :=
      modLink_modLink ..
    rw [hb, reflushed]
    split
    · exact aside_flushFeed (by intro; rfl) n p
    · rfl
  rw [← ht]
  unfold identified
  dsimp only
  rw [hl, hflush]
  have hlock : modLink n (fun l => { l with lastCode := some code, state := .locked code, window := some ⟨p.timebase, 0⟩ })
      (modLink n (fun l => { begun e c parity blank l with ctr := { l.ctr with identified := bump l.ctr.identified } })
        (reflushed n code p)) = modLink n (locking e c parity blank code p.timebase) (reflushed n code p) := modLink_modLink ..
  have htime : (modLink n (begun e c parity blank) p).timebase = p.timebase := rfl
  rw [htime, hlock]
  unfold handMarker lockedIn followed
  generalize forSourcing n checkMismatch _ = q
  rfl

/-- A marker in MEASURING whose window identifies a code (R8, R9). -/
theorem takeMarker_identifies (hs : (p.links.get n).state = .measuring) (he : (p.links.get n).est = some e)
    (hc : (p.links.get n).cur = some c) (hseq : outOfSequence (p.links.get n).lastNumber number true = false)
    (hb : (c.checked && breaks e c) = false) (hw : (p.links.get n).window = some w) (hcount : w.count = 7)
    (hid : identifyWindow e (p.timebase - w.start) = some code) : takeMarker n number parity blank false p =
      seeLine n number blank (handPicture n code p.timebase parity (lockedIn n e c parity blank code p)) := by
  have hwin : ((modLink n (begun e c parity blank) p).links.get n).window = some w := by
    rw [modLink_links, Four.get_modify_same]
    exact hw
  have hsum : windowSum (modLink n (begun e c parity blank) p) w = p.timebase - w.start := rfl
  rw [takeMarker_checked (by rw [hs]; rfl), (markerChecked_passes he hc hseq hb).1 hs, ← identified_eq]
  refine congrArg (seeLine n number blank) ?_
  unfold markerMeasuring
  rw [hwin]
  dsimp only
  rw [if_neg (by omega), hsum, hid]

/-- What a lock leaves: the link, the lanes of its feed, and the feed as capture follows (R9, R21, R122, R123). -/
theorem lockedIn_links : (lockedIn n e c parity blank code p).links =
    p.links.modify n (lockedLink e c parity blank code p.timebase) := by
  have h : (followed n (modLink n (locking e c parity blank code p.timebase) (reflushed n code p))).links =
      p.links.modify n (locking e c parity blank code p.timebase) := by
    rw [(followed_acts n _).links]
    show (reflushed n code p).links.modify n _ = _
    rw [(reflushed_frame (m := n) n code p).1]
  rw [lockedIn, modLink_links, h, Four.modify_modify]
  rfl

theorem lockedCode_locking : lockedCode (recapture n (modLink n (locking e c parity blank code now) q)) n = some code := by
  have h : (recapture n (modLink n (locking e c parity blank code now) q)).links.get n =
      locking e c parity blank code now (q.links.get n) := Four.get_modify_same ..
  rw [lockedCode, h]
  rfl

theorem runningCount_lanes (h : q.lanes = p.lanes) : runningCount q n = runningCount p n :=
  runningCount_congr fun m => by simp only [sources, h]

theorem lockedIn_feeds : (lockedIn n e c parity blank code p).feeds =
    (reflushed n code p).feeds.modify n (fun f => { f with captureOn := decide (0 < runningCount p n) }) := by
  have hl : lockedCode (modLink n (locking e c parity blank code p.timebase) (reflushed n code p)) n = some code :=
    lockedCode_locking (q := reflushed n code p)
  have hc : runningCount (modLink n (locking e c parity blank code p.timebase) (reflushed n code p)) n = runningCount p n :=
    runningCount_lanes (reflushed_frame (m := n) n code p).2.1
  obtain ⟨q, hq, -, hf, -⟩ := lockedIn_frame n e c parity blank code p
  rw [hf, hq, (followed_acts n _).feeds, recapture, hl, hc]
  rfl

/-- The lanes of a feed whose link locks (R122, R123, R131). -/
theorem lockedIn_lanes (hm : (p.lanes.get m).profile.source = n) :
    (lockedIn n e c parity blank code p).lanes.get m = finding code (p.lanes.get m)
      ∧ (Cond.stdMismatch m ∈ (lockedIn n e c parity blank code p).fault.latches ↔ Cond.stdMismatch m ∈ p.fault.latches
        ∨ (isRunning (p.lanes.get m).state = true ∧ (p.lanes.get m).profile.input ≠ code)) := by
  obtain ⟨-, hlanes, -, hlatch⟩ := reflushed_frame (m := m) n code p
  have hlock := lockedCode_locking (n := n) (e := e) (c := c) (parity := parity) (blank := blank) (code := code)
    (now := p.timebase) (q := reflushed n code p)
  have hb : (recapture n (modLink n (locking e c parity blank code p.timebase) (reflushed n code p))).lanes = p.lanes := hlanes
  have hbl : (recapture n (modLink n (locking e c parity blank code p.timebase) (reflushed n code p))).fault.latches =
      (reflushed n code p).fault.latches := rfl
  obtain ⟨q, hq, -, -, hF, hL⟩ := lockedIn_frame n e c parity blank code p
  rw [hF, hL, hq, followed]
  clear hF hL hq
  generalize recapture n (modLink n (locking e c parity blank code p.timebase) (reflushed n code p)) = b at *
  have hfind := forSourcing_finding (m := m) hlock (by rw [hb]; exact hm)
  have hlock' : lockedCode (forSourcing n evalUsable b) n = some code := by
    rw [lockedCode_congr (forSourcing_acts b n).links, hlock]
  rw [hb] at hfind
  obtain ⟨hrun, hprof⟩ := finding_runs (code := code) (p.lanes.get m)
  have hcheck := forSourcing_check (m := m) hlock' (by rw [hfind, hprof]; exact hm)
  rw [hfind, hrun, hprof] at hcheck
  refine ⟨by rw [forSourcing_check_lanes, hfind], ?_⟩
  rw [hcheck, forSourcing_mismatch, hbl, hlatch]

/-! ### The picture start of the marker -/

theorem handPicture_lanes (n : Ix) (code : Std) (a : Int) (parity : Parity) (p : Part) :
    (handPicture n code a parity p).lanes = p.lanes := by
  have hk : FeedAt n (fun q : Part => q.lanes = p.lanes) :=
    { store_blind storeBlind_lanes (fun ls => ls = p.lanes) with feed := fun _ _ h => h }
  unfold handPicture
  split
  · exact hk.pictureStart code a parity rfl
  · rfl

/-- What an entry appended in a history with room makes of its feed (R31, R32). -/
theorem appendPicture_feed {stamp a : Int} {par : Option Parity} (h : (p.feeds.get n).history.length < 8) :
    (appendPicture n stamp a par p).feeds.get n = unbuffered stamp par (p.feeds.get n)
      ∨ ∃ k, (appendPicture n stamp a par p).feeds.get n = pictured k stamp a par (p.feeds.get n) := by
  have hf : (grant n p).1.feeds = p.feeds := grant_feeds ..
  unfold appendPicture
  dsimp only
  rw [makeRoom_room h]
  generalize grant n p = g at hf
  obtain ⟨q, slot⟩ := g
  dsimp only at hf ⊢
  cases slot with
  | some k =>
    refine .inr ⟨k, ?_⟩
    simp only [bumpFeed_eq, pushEntry, modFeed_feeds, Four.modify_modify, Four.get_modify_same, hf]
    rfl
  | none =>
    refine .inl ?_
    simp only [bumpFeed_eq, pushEntry, modFeed_feeds, report_frame, Four.modify_modify, Four.get_modify_same, hf]
    rfl

/-- A picture start on a flushed feed anchors (R24, R31). -/
theorem handPicture_anchors {a : Int} (hon : (p.feeds.get n).captureOn = true) (hh : (p.feeds.get n).history = [])
    (hlast : (p.feeds.get n).lastStamp = none) :
    (handPicture n code a parity p).feeds.get n = unbuffered a (entryParity code parity) (stampedAt a 0 (p.feeds.get n))
      ∨ ∃ k, (handPicture n code a parity p).feeds.get n =
        pictured k a a (entryParity code parity) (stampedAt a 0 (p.feeds.get n)) := by
  have hclosed : abandonNewest n true p = p := abandonNewest_closed true fun x hx => by
    rw [newest, hh] at hx
    cases hx
  have hsg : stampingOf p n code a = .anchor := by rw [stampingOf, hlast]; rfl
  have hfeed : (modFeed n (stampedAt a 0) p).feeds.get n = stampedAt a 0 (p.feeds.get n) := Four.get_modify_same ..
  have happ := appendPicture_feed (p := modFeed n (stampedAt a 0) p) (n := n) (stamp := a) (a := a)
    (par := entryParity code parity) (by
      rw [hfeed]
      show (p.feeds.get n).history.length < 8
      rw [hh]
      decide)
  rw [hfeed] at happ
  rw [handPicture, if_pos hon, pictureStart_anchor hclosed hsg]
  exact happ

end Locking

end Sys2Proof.Machine.Identify
end

section
/-! SUPPORT. The step of the marker that identifies a link (R8, R9, R37, R122, R123, R131). -/

namespace Sys2Proof.Machine.Identify

open Frames Keeping LaneValues HistoryLaw StoreValues LaneEnds LockLoss LineStarts Markers PictureStarts

section Identified
variable {env : Env} {s : State} {n m : Ix} {number : Nat} {parity : Parity} {blank : Bool} {e : Established}
  {c : Current} {code old : Std} {w : Window} {now : Nat}

/-- A marker in MEASURING that passes the check and completes a window that one row matches (R8). -/
structure Completes (s : State) (n : Ix) (number : Nat) (e : Established) (c : Current) (code : Std) (now : Nat) : Prop where
  state : (s.part.links.get n).state = .measuring
  est : (s.part.links.get n).est = some e
  cur : (s.part.links.get n).cur = some c
  inSequence : outOfSequence (s.part.links.get n).lastNumber number true = false
  passes : (c.checked && breaks e c) = false
  window : ∃ w, (s.part.links.get n).window = some w ∧ w.count = 7 ∧ identifyWindow e (now - w.start) = some code

theorem Completes.takes {p : Part} (h : Completes s n number e c code now)
    (hl : p.links = s.part.links ∨ p.links = s.part.links.modify n (fun l => { l with lastCode := some old }))
    (ht : p.timebase = now) : takeMarker n number parity blank false p =
      seeLine n number blank (handPicture n code now parity (lockedIn n e c parity blank code p)) := by
  obtain ⟨hs, he, hc, hseq, hb, w, hw, hcount, hid⟩ := h
  have hp : ∃ last, p.links.get n = { s.part.links.get n with lastCode := last } := by
    rcases hl with hl | hl
    · exact ⟨_, by rw [hl]⟩
    · exact ⟨some old, by rw [hl, Four.get_modify_same]⟩
  obtain ⟨last, hp⟩ := hp
  rw [← ht] at hid ⊢
  exact takeMarker_identifies (by rw [hp]; exact hs) (by rw [hp]; exact he) (by rw [hp]; exact hc) (by rw [hp]; exact hseq) hb
    (by rw [hp]; exact hw) hcount hid

/-- The part of the identifying marker before its picture start. -/
abbrev lockedNow (env : Env) (s : State) (n : Ix) (e : Established) (c : Current) (parity : Parity) (blank : Bool)
    (code : Std) : Part := lockedIn n e c parity blank code (foundBy env s)

theorem marker_identifies (hq : quiet s) (h : Completes s n number e c code now) (hnow : now = max s.part.timebase env.time) :
    exec (.pictureMarker env n number parity blank false) s = .next { s with part := settle (seeLine n number blank
      (handPicture n code now parity (lockedNow env s n e c parity blank code))) } := by
  rw [marker_next hq, h.takes (old := code) (.inl (found_links env s)) ((found_timebase env s).trans hnow.symm)]

/-- The link that an identifying marker leaves (R9, R12). -/
theorem identified_link : (settle (seeLine n number blank (handPicture n code now parity
      (lockedNow env s n e c parity blank code)))).links.get n =
    seen number blank (lockedLink e c parity blank code (foundBy env s).timebase (s.part.links.get n)) := by
  rw [(endured_settle _).links]
  show ((handPicture n code now parity (lockedNow env s n e c parity blank code)).links.modify n (seen number blank)).get n = _
  rw [Four.get_modify_same, handPicture_links, lockedIn_links, Four.get_modify_same, found_links]

/-- Where device fatal does not follow, the end of the step leaves what the picture start left (R58). -/
theorem settle_parts {p : Part} (h : (settle p).fault.deviceFatal = p.fault.deviceFatal) : (settle p).feeds = p.feeds
    ∧ (settle p).lanes = p.lanes ∧ (settle p).fault.latches = p.fault.latches := by
  rw [settle_calm h]
  exact ⟨rfl, rfl, rfl⟩

theorem lockedIn_fatal (n : Ix) (e : Established) (c : Current) (parity : Parity) (blank : Bool) (code : Std) (p : Part) :
    (lockedIn n e c parity blank code p).fault.deviceFatal = p.fault.deviceFatal := by
  obtain ⟨q, hq, -, -, -, hf⟩ := lockedIn_frame n e c parity blank code p
  rw [hf, hq, (followed_acts n _).deviceFatal]
  show (reflushed n code p).fault.deviceFatal = _
  unfold reflushed
  split
  · exact (mild_flushFeed n p).deviceFatal
  · rfl

/-- What a step of an identifying marker leaves, where the part does not go to device fatal. -/
theorem identified_calm {t : Part} (ht : t = settle (seeLine n number blank (handPicture n code now parity
      (lockedNow env s n e c parity blank code)))) (hcalm : t.fault.deviceFatal = s.part.fault.deviceFatal) :
    t.feeds = (handPicture n code now parity (lockedNow env s n e c parity blank code)).feeds
      ∧ t.lanes = (lockedNow env s n e c parity blank code).lanes
      ∧ ∀ m, Cond.stdMismatch m ∈ t.fault.latches ↔
        Cond.stdMismatch m ∈ (lockedNow env s n e c parity blank code).fault.latches := by
  have hstart := timeline_handPicture (n := n) (p := lockedNow env s n e c parity blank code) code now parity
  have hlanes := handPicture_lanes n code now parity (lockedNow env s n e c parity blank code)
  have hfatal : (handPicture n code now parity (lockedNow env s n e c parity blank code)).fault.deviceFatal =
      s.part.fault.deviceFatal := by rw [hstart.fatal, lockedNow, lockedIn_fatal, found_fault]
  have hmis := hstart.mismatch
  generalize handPicture n code now parity (lockedNow env s n e c parity blank code) = g at *
  obtain ⟨h1, h2, h3⟩ := settle_parts (p := seeLine n number blank g) (by rw [← ht, hcalm]; exact hfatal.symm)
  rw [ht]
  exact ⟨h1, h2.trans hlanes, fun m => (iff_of_eq (congrArg (Cond.stdMismatch m ∈ ·) h3)).trans (hmis m)⟩

/-- The lanes of the feed under the code of their link (R122, R123, R131). -/
theorem identified_finds {t : Part} (ht : t = settle (seeLine n number blank (handPicture n code now parity
      (lockedNow env s n e c parity blank code)))) (hcalm : t.fault.deviceFatal = s.part.fault.deviceFatal)
    (hm : (s.part.lanes.get m).profile.source = n) : findsCode (foundBy env s) t m code := by
  have hprof : ((foundBy env s).lanes.get m).profile = (s.part.lanes.get m).profile :=
    found_lane env s (fun l => l.profile) m (fun _ _ => rfl) (fun _ _ => rfl)
  obtain ⟨-, hlanes, hmis⟩ := identified_calm ht hcalm
  obtain ⟨hlane, hlatch⟩ := lockedIn_lanes (e := e) (c := c) (parity := parity) (blank := blank) (code := code)
    (p := foundBy env s) (m := m) (n := n) (by rw [hprof]; exact hm)
  refine ⟨fun hu => ?_, (hmis m).trans hlatch⟩
  rw [hlanes, hlane]
  exact finding_new hu

theorem identified_usable (hm : (s.part.lanes.get m).profile.source = n) : ((settle (seeLine n number blank (handPicture n code
      now parity (lockedNow env s n e c parity blank code)))).lanes.get m).usable =
    decide ((s.part.lanes.get m).profile.input = code) := by
  have hprof : ((foundBy env s).lanes.get m).profile = (s.part.lanes.get m).profile :=
    found_lane env s (fun l => l.profile) m (fun _ _ => rfl) (fun _ _ => rfl)
  rw [settle_usable]
  show ((handPicture n code now parity (lockedNow env s n e c parity blank code)).lanes.get m).usable = _
  rw [handPicture_lanes, (lockedIn_lanes (by rw [hprof]; exact hm)).1, finding_usable, hprof]

/-! ### The feed that the marker captures -/

theorem runningCount_found (env : Env) (s : State) (n : Ix) : runningCount (foundBy env s) n = runningCount s.part n :=
  runningCount_congr fun m => by
    have hprof : ((foundBy env s).lanes.get m).profile = (s.part.lanes.get m).profile :=
      found_lane env s (fun l => l.profile) m (fun _ _ => rfl) (fun _ _ => rfl)
    have hstate : ((foundBy env s).lanes.get m).state = (s.part.lanes.get m).state :=
      found_lane env s (fun l => l.state) m (fun _ _ => rfl) (fun _ _ => rfl)
    simp only [sources, hprof, hstate]

/-- The feed before the picture start of the marker (R21, R37). -/
theorem lockedNow_feed : (lockedNow env s n e c parity blank code).feeds.get n =
    { (reflushed n code (foundBy env s)).feeds.get n with captureOn := decide (0 < runningCount s.part n) } := by
  rw [lockedNow, lockedIn_feeds, Four.get_modify_same, runningCount_found]

/-- A feed that an identification has flushed (R9, R37). -/
def flushed (on : Bool) (f : Feed) : Feed :=
  { f with
    captureOn := on, history := [], lastStamp := none, dPrev := 0, segment := (f.segment + 1) % 65536
    ctr := { f.ctr with flushes := bump f.ctr.flushes } }

theorem lockedNow_flushed (hold : (s.part.links.get n).lastCode = some old) (hne : old ≠ code) :
    (lockedNow env s n e c parity blank code).feeds.get n = flushed (decide (0 < runningCount s.part n)) (s.part.feeds.get n) := by
  rw [lockedNow_feed, reflushed_other (by rw [found_links]; exact hold) hne, flushFeed_feeds, Four.get_modify_same, found_feeds]
  rfl

theorem lockedNow_unflushed (h : (s.part.links.get n).lastCode = none ∨ (s.part.links.get n).lastCode = some code) :
    (lockedNow env s n e c parity blank code).feeds.get n =
      { s.part.feeds.get n with captureOn := decide (0 < runningCount s.part n) } := by
  rw [lockedNow_feed, reflushed_same (by rw [found_links]; exact h), found_feeds]

/-! ### A flush comes first -/

theorem arbiter_mild {p q : Part} (hm : q.mgmt = p.mgmt) (h : Mild p q) : arbiter q = arbiter p := by
  have he (k : Ix) : eligible q k = eligible p k := by
    have hr : (q.outs.get k).replies = (p.outs.get k).replies := h.out (fun o => o.replies) (fun _ _ => rfl)
    have hv : (q.outs.get k).reserved = (p.outs.get k).reserved := h.out (fun o => o.reserved) (fun _ _ => rfl)
    unfold eligible headBlock room
    rw [hm, hr, hv]
  simp only [arbiter, funext he, hm]

/-- The part whose link `n` has `code` as its last identified code. -/
def recoded (n : Ix) (code : Std) (p : Part) : Part := modLink n (fun l => { l with lastCode := some code }) p

theorem reflushed_recoded (p : Part) : reflushed n code (recoded n code p) = recoded n code p :=
  reflushed_same (.inr (by rw [recoded, modLink_links, Four.get_modify_same]))

/-- An identification under another code is a flush and then the marker of a link whose last code is this one (R9, R37). -/
theorem marker_reflushes (hq : quiet s) (h : Completes s n number e c code now) (hnow : now = max s.part.timebase env.time)
    (hold : (s.part.links.get n).lastCode = some old) (hne : old ≠ code)
    (hdue : (flushFeed n (foundBy env s)).fault.fatalDue = false) : exec (.pictureMarker env n number parity blank false) s =
      exec (.pictureMarker ⟨env.time, []⟩ n number parity blank false) { s with
        part := { flushFeed n (foundBy env s) with
          links := s.part.links.modify n (fun l => { l with lastCode := some code }) } } := by
  have hlinks := found_links env s
  have hl : (flushFeed n (foundBy env s)).links = s.part.links := by simp
  have ht : (flushFeed n (foundBy env s)).timebase = now := by rw [hnow, ← found_timebase env s]; simp
  have hmild := mild_flushFeed n (foundBy env s)
  have hm : (flushFeed n (foundBy env s)).mgmt = (foundBy env s).mgmt := by simp
  have hre : reflushed n code (foundBy env s) = flushFeed n (foundBy env s) :=
    reflushed_other (by rw [hlinks]; exact hold) hne
  have htf : (foundBy env s).timebase = now := (found_timebase env s).trans hnow.symm
  have hset : { flushFeed n (foundBy env s) with links := s.part.links.modify n (fun l => { l with lastCode := some code }) } =
      recoded n code (flushFeed n (foundBy env s)) := by rw [recoded, modLink, hl]
  have hquiet : quiet { s with part := recoded n code (flushFeed n (foundBy env s)) } := by
    refine ⟨hdue, (JobRowsLaw.arbiter_congr (p := flushFeed n (foundBy env s)) rfl rfl).trans ((arbiter_mild hm hmild).trans ?_)⟩
    exact (JobRowsLaw.arbiter_congr (found_mgmt env s) (found_outs env s)).trans hq.2
  have hfound : foundBy ⟨env.time, []⟩ { s with part := recoded n code (flushFeed n (foundBy env s)) } =
      recoded n code (flushFeed n (foundBy env s)) := begin_at (p := recoded n code (flushFeed n (foundBy env s))) (by
    show env.time ≤ (flushFeed n (foundBy env s)).timebase
    rw [ht, hnow]
    exact Nat.le_max_right ..)
  have hlock : lockedIn n e c parity blank code (recoded n code (flushFeed n (foundBy env s))) =
      lockedNow env s n e c parity blank code := by
    have htr : (recoded n code (flushFeed n (foundBy env s))).timebase = now := ht
    rw [lockedNow, lockedIn, lockedIn, reflushed_recoded, hre, htf, htr, recoded, modLink_modLink]
    rfl
  rw [marker_identifies hq h hnow, hset, marker_next hquiet, hfound,
    h.takes (old := code) (p := recoded n code (flushFeed n (foundBy env s))) (.inr ?_) ht, hlock]
  rw [recoded, modLink_links, hl]

end Identified

end Sys2Proof.Machine.Identify
end

section
/-! Picture markers search, identify, check and lose the structure of a link (O23): R3, R6 to R12, R22, R37, R122, R123,
R129 to R131, R163. -/

namespace Sys2Proof.Machine.Identify

open Frames Keeping LaneValues HistoryLaw StoreValues LaneEnds LockLoss LineStarts Markers PictureStarts

section Clauses
variable {env : Env} {s : State} {n : Ix} {number : Nat} {parity : Parity} {blank : Bool} {e : Established}
  {c : Current} {code old : Std} {w : Window} {now : Nat} {t : Part}

/-- What an identification under another code makes of the feed (R9, R21, R37). -/
theorem identified_flushes (ht : t = settle (seeLine n number blank (handPicture n code now parity
      (lockedNow env s n e c parity blank code)))) (hcalm : t.fault.deviceFatal = s.part.fault.deviceFatal)
    (hold : (s.part.links.get n).lastCode = some old) (hne : old ≠ code) :
    (t.feeds.get n).segment = ((s.part.feeds.get n).segment + 1) % 65536
      ∧ (t.feeds.get n).ctr.flushes = bump (s.part.feeds.get n).ctr.flushes ∧ (t.feeds.get n).dPrev = 0
      ∧ (runningCount s.part n = 0 → (t.feeds.get n).history = [] ∧ (t.feeds.get n).lastStamp = none
        ∧ (t.feeds.get n).nextSeq = (s.part.feeds.get n).nextSeq)
      ∧ (0 < runningCount s.part n → (t.feeds.get n).lastStamp = some (now : Int)
        ∧ ∃ x : Entry, (t.feeds.get n).history = [x] ∧ x.seq = (s.part.feeds.get n).nextSeq
          ∧ x.segment = ((s.part.feeds.get n).segment + 1) % 65536 ∧ x.stamp = (now : Int)
          ∧ (x.kind = .hole .noBuffer ∨ ∃ k, x.kind = .picture k (now : Int))) := by
  have hfeed := lockedNow_flushed (env := env) (e := e) (c := c) (parity := parity) (blank := blank) hold hne
  rw [(identified_calm ht hcalm).1]
  generalize lockedNow env s n e c parity blank code = p at *
  rcases Nat.eq_zero_or_pos (runningCount s.part n) with h0 | hpos
  · rw [h0] at hfeed
    have hoff : handPicture n code now parity p = p := by
      unfold handPicture
      rw [hfeed]
      exact if_neg (by simp [flushed])
    rw [hoff, hfeed]
    exact ⟨rfl, rfl, rfl, fun _ => ⟨rfl, rfl, rfl⟩, fun h => absurd h0 (by omega)⟩
  · have hon : (p.feeds.get n).captureOn = true := by rw [hfeed]; exact decide_eq_true hpos
    rcases handPicture_anchors (code := code) (parity := parity) (a := now) hon (by rw [hfeed]; rfl) (by rw [hfeed]; rfl)
      with h | ⟨k, h⟩
    · rw [h, hfeed]
      exact ⟨rfl, rfl, rfl, fun h0 => absurd h0 (by omega), fun _ => ⟨rfl, _, rfl, rfl, rfl, rfl, .inl rfl⟩⟩
    · rw [h, hfeed]
      exact ⟨rfl, rfl, rfl, fun h0 => absurd h0 (by omega), fun _ => ⟨rfl, _, rfl, rfl, rfl, rfl, .inr ⟨k, rfl⟩⟩⟩

/-- What an identification makes of capture, and under the same code of the flushes (R9, R21). -/
theorem identified_captures (ht : t = settle (seeLine n number blank (handPicture n code now parity
      (lockedNow env s n e c parity blank code)))) (hcalm : t.fault.deviceFatal = s.part.fault.deviceFatal) :
    (t.feeds.get n).captureOn = decide (0 < runningCount s.part n)
      ∧ ((s.part.links.get n).lastCode = none ∨ (s.part.links.get n).lastCode = some code →
        (t.feeds.get n).ctr.flushes = (s.part.feeds.get n).ctr.flushes) := by
  have hstart := timeline_handPicture (n := n) (p := lockedNow env s n e c parity blank code) code now parity
  rw [(identified_calm ht hcalm).1]
  refine ⟨?_, fun h => ?_⟩
  · rw [hstart.capture, lockedNow_feed]
  · rw [hstart.flushes, lockedNow_unflushed h]

/-- A link in MEASURING after a marker that identifies nothing, written out (R8). -/
theorem seen_measured (l : LinkRx) : seen number blank (measured now (begun e c parity blank l)) = { l with
    window := (match l.window with
      | none => some ⟨now, 0⟩
      | some w => if w.count + 1 < 8 then some ⟨w.start, w.count + 1⟩ else some ⟨now, 0⟩)
    ctr := (match l.window with
      | none => l.ctr
      | some w => if w.count + 1 < 8 then l.ctr else { l.ctr with unidentified := bump l.ctr.unidentified })
    missedRun := 0, cur := some (beginPicture parity (expectedParity e c.parity) blank true)
    lastNumber := some number, line := some (!blank) } := by
  have hb : (begun e c parity blank l).window = l.window := rfl
  unfold measured
  rw [hb]
  cases l.window with
  | none => rfl
  | some w =>
    dsimp only
    by_cases hc : w.count + 1 < 8
    · simp only [if_pos hc]
      rfl
    · simp only [if_neg hc]
      rfl

theorem windowMatches_far {period sum : Nat} (h : 8 * period * 300 / 1000000 < ((sum : Int) - ((8 * period : Nat) : Int)).natAbs) :
    windowMatches period sum = false := decide_eq_false (not_le.2 h)

/-- The rule of a marker in SEEKING, with the pair test and the structure written out (R6). -/
theorem searched_pair (l : LinkRx) (r : Measured) (hseq : ¬outOfSequence l.lastNumber number true = true)
    (hc : l.cur = some c) (hr : l.recorded = some r) : searched number parity blank now l =
      if r.active = (measuredOf c).active ∧ r.active ≠ 0 ∧ r.samples = (measuredOf c).samples ∧ r.samples ≠ 0
          ∧ ((r.parity = .top ∧ c.parity = .top ∧ r.total = c.total)
            ∨ (r.parity ≠ c.parity ∧ ((r.total : Int) - (c.total : Int)).natAbs ≤ 1)) then
        { l with
          state := .measuring, est := some (establish r (measuredOf c)), window := some ⟨now, 0⟩, missedRun := 0
          recorded := none
          cur := some (beginPicture parity (if r.parity = c.parity then .top else oppositeParity c.parity) blank true)
          lastNumber := some number, line := some (!blank) }
      else { l with cur := none, recorded := none, lastNumber := some number, line := some (!blank) } := by
  have h := consistent_iff r c
  unfold searched
  rw [if_neg hseq, hc, hr, ← expected_established]
  dsimp only
  by_cases hx : consistent r (measuredOf c) = true
  · rw [if_pos hx, if_pos (h.1 hx)]
  · rw [if_neg hx, if_neg (fun e => hx (h.2 e))]

end Clauses

/-- Settles O23. -/
theorem markerIdentifiesTheLink : Obligations.MarkerIdentifiesTheLink := by
  unfold Obligations.MarkerIdentifiesTheLink
  refine ⟨fun e sum => ⟨fun a b ha hb => rowMatches_unique ha hb, fun c => identifyWindow_iff⟩, ?_, ?_, fun e c => ?_⟩
  · intro env n number parity blank s e c w code now hq hs he hc hseq hb hw hcount hnow hid
    have h : Completes s n number e c code now := ⟨hs, he, hc, hseq, hb, w, hw, hcount, hid⟩
    refine ⟨_, marker_identifies hq h hnow, ?_, fun m hm => identified_usable hm, fun hcalm m hm => identified_finds rfl hcalm hm,
      ?_, ?_⟩
    · rw [hnow, ← found_timebase env s]
      exact identified_link
    · rintro f f' old rfl rfl hcalm
      obtain ⟨hcap, hsame⟩ := identified_captures rfl hcalm
      exact ⟨hcap, fun hold hne => identified_flushes rfl hcalm hold hne, hsame⟩
    · rintro old p hold hne rfl hdue
      exact marker_reflushes hq h hnow hold hne hdue
  · rintro env n number parity blank s l now hq rfl hnow
    refine ⟨fun hs => marker_dark hq hs, fun hs => ?_, fun e c hex he hc hbreak => ?_, fun e c hs he hc hseq hb hid hcount => ?_,
      fun code e c w hs he hc hseq hb hw hcount hfar => ?_, fun code e c h => ?_, marker_cut hq hnow⟩
    · rw [marker_searches hq hnow hs]
      refine congrArg (fun x => Host.Outcome.next { s with
        part := { foundBy env s with links := s.part.links.set n x } }) ?_
      generalize s.part.links.get n = l
      by_cases hseq : outOfSequence l.lastNumber number true = true
      · rw [if_pos hseq, searched, if_pos hseq]
      · rw [if_neg hseq]
        cases hc : l.cur with
        | none => rw [searched, if_neg hseq, hc]
        | some c =>
          cases hr : l.recorded with
          | none => rw [searched, if_neg hseq, hc, hr]
          | some r => exact searched_pair l r hseq hc hr
    · have hlinks := found_links env s
      obtain ⟨h1, h2⟩ := seeking_settled (p := foundBy env s) (n := n) (cur := some (beginPicture parity parity blank true))
        number blank (found_calm hq)
      refine ⟨_, marker_breaks hq hex he hc hbreak, ?_, ?_⟩
      · refine h1.trans ?_
        rw [hlinks]
        rfl
      · rw [hlinks] at h2
        split at h2 <;> rename_i hlock
        · rw [if_pos hlock]
          exact lostLock_found (g := id) (by rw [modLink_id]; exact h2)
        · rw [if_neg hlock]
          exact h2
    · rw [marker_measures hq hnow hs he hc hseq hb fun w hw => ?_]
      · refine congrArg (fun x => Host.Outcome.next { s with
          part := { foundBy env s with links := s.part.links.set n x } }) ?_
        generalize s.part.links.get n = l
        exact seen_measured l
      · rcases Nat.lt_or_ge (w.count + 1) 8 with hlt | hge
        · exact .inl hlt
        · exact .inr (hid w hw (by have := hcount w hw; omega))
    · have hlinks := found_links env s
      obtain ⟨h1, h2⟩ := seeking_settled (p := modLink n (begun e c parity blank) (foundBy env s)) (n := n) (cur := none)
        number blank (found_calm hq)
      have hget : (modLink n (begun e c parity blank) (foundBy env s)).links.get n =
          begun e c parity blank (s.part.links.get n) := by rw [modLink_links, Four.get_modify_same, hlinks]
      have hlock : isLocked ((modLink n (begun e c parity blank) (foundBy env s)).links.get n).state = true := by
        rw [hget]
        show isLocked (s.part.links.get n).state = true
        rw [hs]
        rfl
      rw [hlock, hget] at h1
      rw [if_pos hlock] at h2
      obtain ⟨hcap, hlatch, hlog, hnext, husable, hloses⟩ := lostLock_found h2
      exact ⟨_, marker_slips hq hnow hs he hc hseq hb hw hcount (windowMatches_far hfar), h1, hcap, hlatch, hlog, husable, hloses,
        hnext⟩
    · refine ⟨_, marker_next hq, marker_link hq h hnow (marker_next hq), fun hoff => ?_⟩
      have hx := marker_uncaptured (parity := parity) (blank := blank) hq h hnow hoff
      rw [marker_next hq] at hx
      have hp : settle (takeMarker n number parity blank false (foundBy env s)) =
          seeLine n number blank (modLink n (handedOn e c parity blank now) (foundBy env s)) :=
        congrArg State.part (Host.Outcome.next.inj hx)
      dsimp only
      rw [hp]
      rfl
  · rw [breaks_iff]
    cases c.parity <;> rfl

end Sys2Proof.Machine.Identify
end
